-- ==== Sys2Proof/Word.lean ====
section
/-! DEFINITION. The machine's words: bytes, 32-bit words, 64-bit words, the 7-bit register fields of
Format R (03 R41) and the lane sets of a 32-lane warp (04 R59). -/

namespace Sys2Proof

/-- A byte. -/
abbrev Byte := BitVec 8

/-- A 32-bit word: a scalar register, a lane of a vector register, MODE, a PC (04 R58). -/
abbrev Word := BitVec 32

/-- A 64-bit word: a staging word (13 R213), an interface register (27 R371), device time (21 R323). -/
abbrev DWord := BitVec 64

/-- A 7-bit field D, A or B of Format R (03 R41). -/
abbrev Field := BitVec 7

/-- A set of lanes of one warp: lane l is bit l. On the X40 a warp has 32 lanes (07 R122), so a mask
is one scalar register (04 R59). -/
abbrev LaneMask := BitVec 32

end Sys2Proof
end

