-- ==== Sys2Proof/Config.lean ====
section
/-! DEFINITION. What the Thoaz X40 fixes (07 R122, 01 R10 to R13), and the values the spec leaves open.
A value the spec leaves open is an opaque constant: nothing can be proved about it, so a claim about it
holds for every value. Each is named in a log entry under notes/assumptions/. -/

namespace Sys2Proof.Config

/-- Warp width of the X40 (07 R122). -/
def width : Nat := 32

/-- Mask registers per mask: the ceiling of WIDTH/32 (04 R59). -/
def maskRegs : Nat := (width + 31) / 32

/-- Resident warps of a core, and each other per-core or per-die size a check compares with
(01 R11 to R13, 07 R128). -/
def coreWarps : Nat := 32
def coreVRegs : Nat := 3072
def coreSpill : Nat := 256
def bsmBytes : Nat := 262144
def stripsPerEngine : Nat := 16
def spadBytes : Nat := 18 * 1024 * 1024
def rltPerCore : Nat := 64
def mrtEntries : Nat := 32
def collectiveBuffer : Nat := 16 * 1024 * 1024
def defaultEnergy : Nat := 64
def pendingLimit : Nat := 64
def starveClocks : Nat := 64
def drainLimit : Nat := 50000

/-- Device clocks in one second, one millisecond and one microsecond of device time (00 R5, 21 R323). -/
def clocksPerSecond : Nat := 2100000000
def clocksPerMs : Nat := 2100000
def clocksPerUs : Nat := 2100

/-- FREE VALUE (notes/assumptions/1.md): the choice the spec leaves between two values, for the n-th
step and the place d the choice is made for (04 R66, R67; 09 R170). -/
opaque freeBit : Nat → Nat → Bool

/-- FREE VALUE: one of several candidates, as a number the step reduces modulo their count (04 R66). -/
opaque freeIndex : Nat → Nat → Nat

/-- FREE VALUE: the rank of a lane among the lanes that meet at one place (10 R171, R181). -/
opaque freeRank : Nat → Nat → Nat → Nat

/-- FREE VALUE: a word the spec calls undefined (11 R202, 15 R248, 16 R266). -/
opaque freeWord : Nat → Nat → Word

/-- FREE VALUE: the data keys by number that no session and no bring-up has given (24 R343), such as the one in force
right after reset; the spec does not give their bits. -/
opaque dataKey : Nat → BitVec 512

/-- FREE VALUE: the save key that the security block generates for its n-th data key (14 R245). -/
opaque freeKey : Nat → BitVec 256

/-- FREE VALUE: the nominal clock in MHz of island 25, which the spec does not give (28 R390). -/
opaque ringMhz : Nat

/-- FREE VALUE: a launch's draw for a core; the cores' numbers in the launch follow the order of their draws, so
that they are a permutation (21 R322). -/
opaque coreDraw : Nat → Nat → Nat

/-- FREE VALUE: the clocks that pass at a step for which the agenda names none (21 R323). -/
opaque freeClocks : Nat → Nat

/-- FREE VALUE: Ed25519 and ML-DSA-65 verification of a signature over a digest (27 R385); the spec
names the two algorithms and gives neither. -/
opaque ed25519Ok : BitVec 384 → Nat → Bool
opaque mlDsaOk : BitVec 384 → Nat → Bool

/-- FREE VALUE: the two signatures the device makes over a report's digest (27 R385). -/
opaque signEd25519 : BitVec 384 → Nat
opaque signMlDsa : BitVec 384 → Nat

/-- FREE VALUE: the device identity certificate and its two signatures, which the spec names and does not give
(27 R385). -/
opaque identityBytes : List Byte
opaque identityEd25519 : Nat
opaque identityMlDsa : Nat

/-- FREE VALUE: the fuse configuration that a report covers beside the defect map; the spec gives it no layout
(27 R385). -/
opaque fuseConfig : List Byte

/-- FREE VALUE: the group key that the session of a group's member on another device has installed, by the
member's DEVID, at the n-th step (25 R356). -/
opaque peerGroupKey : Nat → DWord → BitVec 256

/-- FREE VALUE: where in its own ROM the darkroom core's calls return to (27 R381). -/
opaque romReturn : Nat

end Sys2Proof.Config
end

