-- ==== Sys2Proof/Syntax.lean ====
section
/-! DEFINITION. The instructions and events of the Thoaz X40: one constructor per row of
spec/opcode_table.json. An encoded instruction carries its switch marker m (03 R41) and the fields that
03 R45 gives it; an event carries what it concerns. -/

namespace Sys2Proof

/-- A B operand of kind v/# or s/# (03 R44): a register field, or a literal word (03 R42). -/
inductive Src where
  | reg (r : Field)
  | lit (w : Word)
  deriving DecidableEq, Repr

/-- Which warp: the launch (its number in the device), the block's linear ID (07 R123), WARPID. -/
structure WarpRef where
  launch : Nat
  block : Nat
  warp : Nat
  deriving DecidableEq, Repr

/-- A partner's segment of a collective step, as it reaches the device (25 R358, R360; 26 R366):
the group and chain it belongs to, the rank that sent it, its step's parameters, its F32 words. -/
structure Segment where
  iface : Nat
  group : Nat
  tag : Word
  rank : Nat
  kind : Nat
  count : Nat
  itype : Nat
  otype : Nat
  step : Nat
  data : List Word
  deriving DecidableEq, Repr

/-- A flit at a peer port (25 R355, 27 R382): whether FEC and the CRC pass, its collective group, the
device it is for and, for one addressed to this device, the segment it completes if it is the last of it. -/
structure Flit where
  ok : Bool
  iface : Nat
  group : Nat
  devid : DWord
  segment : Option Segment
  deriving DecidableEq, Repr

/-- What a die-port message does at its receiver, as far as a program can see: bytes written to the
receiving die's memory, or nothing (a request that only reads). -/
structure DieMessage where
  src : Nat        -- 0 to 7 a compute die, 8 the control die
  dst : Nat
  world : Nat
  op : Option Nat  -- the engine operation that sent it
  addr : Nat       -- device physical address written, when bytes are not empty
  bytes : List Byte
  answers : Bool   -- a response to a message of the receiver
  deriving DecidableEq, Repr

/-- A tenant's session as SPDM fixes it (24 R345). -/
structure SessionRequest where
  iface : Nat
  world : Nat
  heartbeatMs : Nat
  debug : Bool
  dataKey : BitVec 512
  weightKey : BitVec 256
  groupKey : BitVec 256
  deriving DecidableEq, Repr

/-- What a SELFTEST found (21 R326). -/
structure SelftestResult where
  pass : Bool
  nfail : Word
  first : Word
  deriving DecidableEq, Repr

/-- A firmware image offered to the device: the SHA-384 digest of it and its two signatures (27 R385). -/
structure FirmwareImage where
  digest : BitVec 384
  ed25519 : Nat
  mlDsa : Nat
  deriving DecidableEq, Repr

/-- What a power-on or reset finds outside the machine: the firmware in its store, the fused defect map
of 544 bytes (28 R387), the compute dies whose step 4 fails and the peer ports whose training fails
(28 R386), and the world-0 data key the security block generates. -/
structure PowerEnv where
  firmware : FirmwareImage
  fuses : List Byte
  failedDies : BitVec 8
  failedPorts : BitVec 12
  key0 : BitVec 512
  deriving DecidableEq, Repr

/-- Where a cluster of blocks goes (07 R127): die, cluster site and, for each rank in ascending order, the
core of the site. -/
structure Placement where
  die : Nat
  site : Nat
  cores : List Nat
  deriving DecidableEq, Repr

/-- The rows of spec/opcode_table.json. -/
inductive Instr where
  /-- SADD (R91). Scalar add: S(D) := Wrap32(S(A) + OpB), executed once for the path at issue. -/
  | sadd (m : Bool) (d : Field) (a : Field) (b : Src)
  /-- SSUB (R91). Scalar subtract with wrap. -/
  | ssub (m : Bool) (d : Field) (a : Field) (b : Src)
  /-- SMUL (R91). Scalar multiply, low 32 bits. -/
  | smul (m : Bool) (d : Field) (a : Field) (b : Src)
  /-- SMULH (R91). Scalar signed multiply, high 32 bits. -/
  | smulh (m : Bool) (d : Field) (a : Field) (b : Src)
  /-- SMULHN (R91). Scalar unsigned multiply, high 32 bits. -/
  | smulhn (m : Bool) (d : Field) (a : Field) (b : Src)
  /-- SDIV (R92). Scalar signed division quotient; with TRAPDIV a zero divisor or overflow faults DIVIDE on the path. -/
  | sdiv (m : Bool) (d : Field) (a : Field) (b : Src)
  /-- SDIVN (R92). Scalar unsigned division quotient. -/
  | sdivn (m : Bool) (d : Field) (a : Field) (b : Src)
  /-- SREM (R92). Scalar signed remainder. -/
  | srem (m : Bool) (d : Field) (a : Field) (b : Src)
  /-- SREMN (R92). Scalar unsigned remainder. -/
  | sremn (m : Bool) (d : Field) (a : Field) (b : Src)
  /-- SAND (R91). Scalar bitwise AND. -/
  | sand (m : Bool) (d : Field) (a : Field) (b : Src)
  /-- SOR (R91). Scalar bitwise OR. -/
  | sor (m : Bool) (d : Field) (a : Field) (b : Src)
  /-- SXOR (R91). Scalar bitwise XOR. -/
  | sxor (m : Bool) (d : Field) (a : Field) (b : Src)
  /-- SANDN (R91). Scalar AND NOT. -/
  | sandn (m : Bool) (d : Field) (a : Field) (b : Src)
  /-- SSHL (R93). Scalar shift left by b[7:0]. -/
  | sshl (m : Bool) (d : Field) (a : Field) (b : Src)
  /-- SSHR (R93). Scalar logical shift right. -/
  | sshr (m : Bool) (d : Field) (a : Field) (b : Src)
  /-- SSRA (R93). Scalar arithmetic shift right. -/
  | ssra (m : Bool) (d : Field) (a : Field) (b : Src)
  /-- SMIN (R91). Scalar signed minimum. -/
  | smin (m : Bool) (d : Field) (a : Field) (b : Src)
  /-- SMAX (R91). Scalar signed maximum. -/
  | smax (m : Bool) (d : Field) (a : Field) (b : Src)
  /-- SMINN (R91). Scalar unsigned minimum. -/
  | sminn (m : Bool) (d : Field) (a : Field) (b : Src)
  /-- SMAXN (R91). Scalar unsigned maximum. -/
  | smaxn (m : Bool) (d : Field) (a : Field) (b : Src)
  /-- SPOPC (R91). Scalar population count. -/
  | spopc (m : Bool) (d : Field) (a : Field)
  /-- SCLZ (R91). Scalar count leading zeros. -/
  | sclz (m : Bool) (d : Field) (a : Field)
  /-- SBREV (R91). Scalar bit reverse. -/
  | sbrev (m : Bool) (d : Field) (a : Field)
  /-- SBFX (R94). Scalar bit-field extract, zero-extending. -/
  | sbfx (m : Bool) (d : Field) (a : Field) (b : Src)
  /-- SBFI (R94). Scalar bit-field insert into S(D). -/
  | sbfi (m : Bool) (d : Field) (a : Field) (b : Src)
  /-- SCEQ (R91). Scalar compare equal, 1 or 0. -/
  | sceq (m : Bool) (d : Field) (a : Field) (b : Src)
  /-- SCNE (R91). Scalar compare not equal. -/
  | scne (m : Bool) (d : Field) (a : Field) (b : Src)
  /-- SCLT (R91). Scalar signed less-than. -/
  | sclt (m : Bool) (d : Field) (a : Field) (b : Src)
  /-- SCLE (R91). Scalar signed less-or-equal. -/
  | scle (m : Bool) (d : Field) (a : Field) (b : Src)
  /-- SCLTN (R91). Scalar unsigned less-than. -/
  | scltn (m : Bool) (d : Field) (a : Field) (b : Src)
  /-- SCLEN (R91). Scalar unsigned less-or-equal. -/
  | sclen (m : Bool) (d : Field) (a : Field) (b : Src)
  /-- NOP (R95). No operation; with S set it parks until outstanding writes land. -/
  | nop (m : Bool)
  /-- BRA (R96). Unconditional branch to a literal offset. -/
  | bra (m : Bool) (lit : Word)
  /-- BZ (R96). Branch when S(A) is zero. -/
  | bz (m : Bool) (a : Field) (lit : Word)
  /-- BNZ (R96). Branch when S(A) is nonzero. -/
  | bnz (m : Bool) (a : Field) (lit : Word)
  /-- BRD (R137). Divergent branch: lands writes, writes the rejoin mask and splits or pushes the path on vA. -/
  | brd (m : Bool) (d : Field) (a : Field) (lit : Word)
  /-- JOIN (R138). Lands writes and enters the join group keyed by PC and mask, completing it or giving up the slot. -/
  | join (m : Bool) (a : Field)
  /-- CALL (R97). Writes the return PC into S(D) and branches. -/
  | call (m : Bool) (d : Field) (lit : Word)
  /-- RET (R97). Sets PC to S(A), faulting MISALIGNED on a misaligned target. -/
  | ret (m : Bool) (a : Field)
  /-- BRX (R97). Indirect branch to S(A). -/
  | brx (m : Bool) (a : Field)
  /-- LOOP (R98). Decrements S(D) and branches while it is nonzero. -/
  | loop (m : Bool) (d : Field) (lit : Word)
  /-- EXIT (R99). Makes every non-exited lane of the path exit; the warp ends after its writes land when its last lane exits. -/
  | exit (m : Bool)
  /-- SETMODE (R100). Writes MODE from OpB, faulting ILLEGAL_MODE on illegal values. -/
  | setmode (m : Bool) (b : Src)
  /-- GETMODE (R100). Reads the MODE under which it issues into S(D). -/
  | getmode (m : Bool) (d : Field)
  /-- SETIX (R61). Writes the path's index register ix. -/
  | setix (m : Bool) (b : Src)
  /-- WAITF (R205). Reads a local word and compares it, continuing as an acquire, faulting, or parking until written or timed out. -/
  | waitf (m : Bool) (d : Field) (a : Field) (lit : Word)
  /-- YIELD (R318). Parks the path for 32 scheduler clocks. -/
  | yield (m : Bool)
  /-- SMOV (R91). Scalar move S(D) := OpB. -/
  | smov (m : Bool) (d : Field) (b : Src)
  /-- SSEL (R91). Scalar bitwise select using S(A) as mask between OpB and S(D). -/
  | ssel (m : Bool) (d : Field) (a : Field) (b : Src)
  /-- SFFS (R91). Index of lowest set bit of S(A), or 32. -/
  | sffs (m : Bool) (d : Field) (a : Field)
  /-- VADD (R102). Vector per-element integer add. -/
  | vadd (m : Bool) (d : Field) (a : Field) (b : Src)
  /-- VSUB (R102). Vector integer subtract. -/
  | vsub (m : Bool) (d : Field) (a : Field) (b : Src)
  /-- VMUL (R102). Vector integer multiply, low bits. -/
  | vmul (m : Bool) (d : Field) (a : Field) (b : Src)
  /-- VMULH (R102). Vector signed multiply high. -/
  | vmulh (m : Bool) (d : Field) (a : Field) (b : Src)
  /-- VMULHN (R102). Vector unsigned multiply high. -/
  | vmulhn (m : Bool) (d : Field) (a : Field) (b : Src)
  /-- VMAD (R102). Vector integer multiply-add into vD. -/
  | vmad (m : Bool) (d : Field) (a : Field) (b : Src)
  /-- VDIV (R103). Vector signed division with DZ/OV status or DIVIDE lane fault. -/
  | vdiv (m : Bool) (d : Field) (a : Field) (b : Src)
  /-- VDIVN (R103). Vector unsigned division. -/
  | vdivn (m : Bool) (d : Field) (a : Field) (b : Src)
  /-- VREM (R103). Vector signed remainder. -/
  | vrem (m : Bool) (d : Field) (a : Field) (b : Src)
  /-- VREMN (R103). Vector unsigned remainder. -/
  | vremn (m : Bool) (d : Field) (a : Field) (b : Src)
  /-- VAND (R105). Vector bitwise AND per lane word. -/
  | vand (m : Bool) (d : Field) (a : Field) (b : Src)
  /-- VOR (R105). Vector bitwise OR. -/
  | vor (m : Bool) (d : Field) (a : Field) (b : Src)
  /-- VXOR (R105). Vector bitwise XOR. -/
  | vxor (m : Bool) (d : Field) (a : Field) (b : Src)
  /-- VANDN (R105). Vector AND NOT. -/
  | vandn (m : Bool) (d : Field) (a : Field) (b : Src)
  /-- VSHL (R93). Vector per-element shift left. -/
  | vshl (m : Bool) (d : Field) (a : Field) (b : Src)
  /-- VSHR (R93). Vector logical shift right. -/
  | vshr (m : Bool) (d : Field) (a : Field) (b : Src)
  /-- VSRA (R93). Vector arithmetic shift right. -/
  | vsra (m : Bool) (d : Field) (a : Field) (b : Src)
  /-- VMIN (R102). Vector signed minimum. -/
  | vmin (m : Bool) (d : Field) (a : Field) (b : Src)
  /-- VMAX (R102). Vector signed maximum. -/
  | vmax (m : Bool) (d : Field) (a : Field) (b : Src)
  /-- VMINN (R102). Vector unsigned minimum. -/
  | vminn (m : Bool) (d : Field) (a : Field) (b : Src)
  /-- VMAXN (R102). Vector unsigned maximum. -/
  | vmaxn (m : Bool) (d : Field) (a : Field) (b : Src)
  /-- VABS (R104). Vector absolute value, OV on the most negative value. -/
  | vabs (m : Bool) (d : Field) (a : Field)
  /-- VNEG (R104). Vector negate. -/
  | vneg (m : Bool) (d : Field) (a : Field)
  /-- VPOPC (R104). Vector per-element population count. -/
  | vpopc (m : Bool) (d : Field) (a : Field)
  /-- VCLZ (R104). Vector per-element leading zeros. -/
  | vclz (m : Bool) (d : Field) (a : Field)
  /-- VBREV (R104). Vector per-element bit reverse. -/
  | vbrev (m : Bool) (d : Field) (a : Field)
  /-- VBFX (R105). Vector bit-field extract, sign-extending under signed ETYPE. -/
  | vbfx (m : Bool) (d : Field) (a : Field) (b : Src)
  /-- VBFI (R105). Vector bit-field insert. -/
  | vbfi (m : Bool) (d : Field) (a : Field) (b : Src)
  /-- VMOV (R105). Copies OpB into every Active lane of vD. -/
  | vmov (m : Bool) (d : Field) (b : Src)
  /-- VSPLAT (R105). Writes S(A) into every Active lane. -/
  | vsplat (m : Bool) (d : Field) (a : Field)
  /-- VGET (R106). Writes lane identities selected by the A field. -/
  | vget (m : Bool) (d : Field) (a : Field)
  /-- VCEQ (R107). Vector integer compare equal into a lane mask. -/
  | vceq (m : Bool) (d : Field) (a : Field) (b : Src)
  /-- VCNE (R107). Vector compare not equal into a mask. -/
  | vcne (m : Bool) (d : Field) (a : Field) (b : Src)
  /-- VCLT (R107). Vector compare less-than into a mask. -/
  | vclt (m : Bool) (d : Field) (a : Field) (b : Src)
  /-- VCLE (R107). Vector compare less-or-equal into a mask. -/
  | vcle (m : Bool) (d : Field) (a : Field) (b : Src)
  /-- VGETST (R108). Reads each Active lane's status word into vD. -/
  | vgetst (m : Bool) (d : Field)
  /-- VCLRST (R108). Clears chosen status bits in each Active lane, honouring the guard. -/
  | vclrst (m : Bool) (b : Src)
  /-- VFADD (R110). Floating-point add, rounded once under MODE. -/
  | vfadd (m : Bool) (d : Field) (a : Field) (b : Src)
  /-- VFSUB (R110). Floating-point subtract. -/
  | vfsub (m : Bool) (d : Field) (a : Field) (b : Src)
  /-- VFMUL (R110). Floating-point multiply. -/
  | vfmul (m : Bool) (d : Field) (a : Field) (b : Src)
  /-- VFMA (R110). Fused multiply-add x*y+z, one rounding. -/
  | vfma (m : Bool) (d : Field) (a : Field) (b : Src)
  /-- VFMS (R110). Fused multiply-subtract x*y-z. -/
  | vfms (m : Bool) (d : Field) (a : Field) (b : Src)
  /-- VFNMA (R110). Fused negated multiply-add -(x*y)+z. -/
  | vfnma (m : Bool) (d : Field) (a : Field) (b : Src)
  /-- VFMIN (R112). Floating-point minimum with NaN and signed-zero rules. -/
  | vfmin (m : Bool) (d : Field) (a : Field) (b : Src)
  /-- VFMAX (R112). Floating-point maximum. -/
  | vfmax (m : Bool) (d : Field) (a : Field) (b : Src)
  /-- VFABS (R112). Clears the sign bit. -/
  | vfabs (m : Bool) (d : Field) (a : Field)
  /-- VFNEG (R112). Inverts the sign bit. -/
  | vfneg (m : Bool) (d : Field) (a : Field)
  /-- VFCPSGN (R112). x's magnitude with y's sign. -/
  | vfcpsgn (m : Bool) (d : Field) (a : Field) (b : Src)
  /-- VFCEQ (R111). Floating-point compare equal into a mask. -/
  | vfceq (m : Bool) (d : Field) (a : Field) (b : Src)
  /-- VFCLT (R111). Floating-point compare less-than into a mask. -/
  | vfclt (m : Bool) (d : Field) (a : Field) (b : Src)
  /-- VFCLE (R111). Floating-point compare less-or-equal into a mask. -/
  | vfcle (m : Bool) (d : Field) (a : Field) (b : Src)
  /-- VFCUN (R111). Floating-point unordered compare into a mask. -/
  | vfcun (m : Bool) (d : Field) (a : Field) (b : Src)
  /-- VFCLASS (R113). Classifies each element into a one-hot class word. -/
  | vfclass (m : Bool) (d : Field) (a : Field)
  /-- VFDIV (R110). Floating-point divide with DZ and invalid cases. -/
  | vfdiv (m : Bool) (d : Field) (a : Field) (b : Src)
  /-- VFSQRT (R110). Correctly rounded square root. -/
  | vfsqrt (m : Bool) (d : Field) (a : Field)
  /-- VFRINT (R114). Rounds to an integral value in the same format. -/
  | vfrint (m : Bool) (d : Field) (a : Field)
  /-- VFRCP (R116). Correctly rounded reciprocal. -/
  | vfrcp (m : Bool) (d : Field) (a : Field)
  /-- VFRSQ (R116). Correctly rounded reciprocal square root. -/
  | vfrsq (m : Bool) (d : Field) (a : Field)
  /-- VFEXP2 (R116). Correctly rounded 2^x. -/
  | vfexp2 (m : Bool) (d : Field) (a : Field)
  /-- VFLOG2 (R116). Correctly rounded log2 x. -/
  | vflog2 (m : Bool) (d : Field) (a : Field)
  /-- VFSINPI (R116). Correctly rounded sin(pi x). -/
  | vfsinpi (m : Bool) (d : Field) (a : Field)
  /-- VFCOSPI (R116). Correctly rounded cos(pi x). -/
  | vfcospi (m : Bool) (d : Field) (a : Field)
  /-- VFTANH (R116). Correctly rounded tanh x. -/
  | vftanh (m : Bool) (d : Field) (a : Field)
  /-- VDOT4 (R117). Four-way 8-bit integer dot product accumulated into vD. -/
  | vdot4 (m : Bool) (d : Field) (a : Field) (b : Src)
  /-- VDOT4M (R117). Mixed signed-by-unsigned 8-bit dot product. -/
  | vdot4m (m : Bool) (d : Field) (a : Field) (b : Src)
  /-- VDOT8 (R117). Eight-way 4-bit signed dot product. -/
  | vdot8 (m : Bool) (d : Field) (a : Field) (b : Src)
  /-- VFDOT4 (R118). Four-way narrow floating-point dot product into an F32 accumulator, rounded once. -/
  | vfdot4 (m : Bool) (d : Field) (a : Field) (b : Src)
  /-- VFDOT8 (R118). Eight-way E2M1 dot product into F32. -/
  | vfdot8 (m : Bool) (d : Field) (a : Field) (b : Src)
  /-- VUNP5 (R119). Decodes a ternary byte into five S8 trits in a register pair. -/
  | vunp5 (m : Bool) (d : Field) (a : Field) (lit : Word)
  /-- VCVTW (R121). Widening conversion within a type class. -/
  | vcvtw (m : Bool) (d : Field) (a : Field) (lit : Word)
  /-- VCVTN (R121). Narrowing conversion into a part of vD. -/
  | vcvtn (m : Bool) (d : Field) (a : Field) (lit : Word)
  /-- VCVTFI (R121). Floating-point to integer conversion. -/
  | vcvtfi (m : Bool) (d : Field) (a : Field) (lit : Word)
  /-- VCVTIF (R121). Integer to floating-point conversion. -/
  | vcvtif (m : Bool) (d : Field) (a : Field) (lit : Word)
  /-- VSHUP (R147). Warp-wide shuffle from lane l - c. -/
  | vshup (m : Bool) (d : Field) (a : Field) (b : Src)
  /-- VSHDN (R147). Warp-wide shuffle from lane l + c. -/
  | vshdn (m : Bool) (d : Field) (a : Field) (b : Src)
  /-- VSHXOR (R147). Warp-wide shuffle from lane l XOR c. -/
  | vshxor (m : Bool) (d : Field) (a : Field) (b : Src)
  /-- VSHIDX (R147). Warp-wide shuffle from lane c. -/
  | vshidx (m : Bool) (d : Field) (a : Field) (b : Src)
  /-- VQSWAP (R149). Quad exchange with helper lanes, never parking. -/
  | vqswap (m : Bool) (d : Field) (a : Field) (b : Src)
  /-- VRED (R150). Warp-wide tree reduction. -/
  | vred (m : Bool) (d : Field) (a : Field) (lit : Word)
  /-- VSCAN (R150). Warp-wide inclusive scan. -/
  | vscan (m : Bool) (d : Field) (a : Field) (lit : Word)
  /-- VREADL (R153). Reads one lane of vA into S(D). -/
  | vreadl (m : Bool) (d : Field) (a : Field) (b : Src)
  /-- VWRITEL (R153). Writes S(A) into one lane of vD if that lane is Active. -/
  | vwritel (m : Bool) (d : Field) (a : Field) (b : Src)
  /-- VVOTE (R151). Warp-wide vote: ALL, ANY, BALLOT or UNIFORM. -/
  | vvote (m : Bool) (d : Field) (a : Field) (lit : Word)
  /-- VMATCH (R152). Warp-wide match mask of lanes holding equal words. -/
  | vmatch (m : Bool) (d : Field) (a : Field)
  /-- VMOVX (R154). Reads register ix + k into vD. -/
  | vmovx (m : Bool) (d : Field) (a : Field)
  /-- VMOVXW (R154). Writes vA into register ix + k. -/
  | vmovxw (m : Bool) (d : Field) (a : Field)
  /-- BAR (R157). Arrives at block barrier id and waits for its generation. -/
  | bar (m : Bool) (d : Field)
  /-- BARA (R157). Arrives at block barrier id without waiting. -/
  | bara (m : Bool) (d : Field)
  /-- BARW (R157). Waits for the generation at which the warp last arrived. -/
  | barw (m : Bool) (d : Field)
  /-- BARC (R158). Arrives at the cluster barrier and waits. -/
  | barc (m : Bool)
  /-- BARP (R158). Arrives at the package barrier and waits; faults BARRIER_BROKEN unless co-resident. -/
  | barp (m : Bool)
  /-- LD8 (R193). Vector byte load, zero-extended. -/
  | ld8 (m : Bool) (d : Field) (a : Field) (b : Src)
  /-- LD8S (R193). Vector byte load, sign-extended. -/
  | ld8s (m : Bool) (d : Field) (a : Field) (b : Src)
  /-- LD16 (R193). Vector half load, zero-extended. -/
  | ld16 (m : Bool) (d : Field) (a : Field) (b : Src)
  /-- LD16S (R193). Vector half load, sign-extended. -/
  | ld16s (m : Bool) (d : Field) (a : Field) (b : Src)
  /-- LD32 (R193). Vector word load. -/
  | ld32 (m : Bool) (d : Field) (a : Field) (b : Src)
  /-- LD64 (R193). Vector 8-byte load into a register pair. -/
  | ld64 (m : Bool) (d : Field) (a : Field) (b : Src)
  /-- LD128 (R193). Vector 16-byte load into four registers. -/
  | ld128 (m : Bool) (d : Field) (a : Field) (b : Src)
  /-- ST8 (R194). Vector byte store. -/
  | st8 (m : Bool) (d : Field) (a : Field) (b : Src)
  /-- ST16 (R194). Vector half store. -/
  | st16 (m : Bool) (d : Field) (a : Field) (b : Src)
  /-- ST32 (R194). Vector word store. -/
  | st32 (m : Bool) (d : Field) (a : Field) (b : Src)
  /-- ST64 (R194). Vector 8-byte store from a pair. -/
  | st64 (m : Bool) (d : Field) (a : Field) (b : Src)
  /-- ST128 (R194). Vector 16-byte store from four registers. -/
  | st128 (m : Bool) (d : Field) (a : Field) (b : Src)
  /-- SLD32 (R196). Scalar word load for the path. -/
  | sld32 (m : Bool) (d : Field) (a : Field) (b : Src)
  /-- SLD64 (R196). Scalar 8-byte load into a pair. -/
  | sld64 (m : Bool) (d : Field) (a : Field) (b : Src)
  /-- SST32 (R196). Scalar word store. -/
  | sst32 (m : Bool) (d : Field) (a : Field) (b : Src)
  /-- SST64 (R196). Scalar 8-byte store from a pair. -/
  | sst64 (m : Bool) (d : Field) (a : Field) (b : Src)
  /-- VSPILL (R198). Pushes a whole vector register onto the spill stack. -/
  | vspill (m : Bool) (a : Field)
  /-- VFILL (R198). Pops the spill stack into the Active lanes of vD. -/
  | vfill (m : Bool) (d : Field)
  /-- LDACQ32 (R197). Word load acting as an acquire at MODE.SCOPE. -/
  | ldacq32 (m : Bool) (d : Field) (a : Field) (b : Src)
  /-- STREL32 (R197). Word store acting as a release at MODE.SCOPE. -/
  | strel32 (m : Bool) (d : Field) (a : Field) (b : Src)
  /-- AADD (R200). Returning atomic add on a local word. -/
  | aadd (m : Bool) (d : Field) (a : Field) (b : Src)
  /-- AAND (R200). Returning atomic AND. -/
  | aand (m : Bool) (d : Field) (a : Field) (b : Src)
  /-- AOR (R200). Returning atomic OR. -/
  | aor (m : Bool) (d : Field) (a : Field) (b : Src)
  /-- AXOR (R200). Returning atomic XOR. -/
  | axor (m : Bool) (d : Field) (a : Field) (b : Src)
  /-- AMIN (R200). Returning atomic signed minimum. -/
  | amin (m : Bool) (d : Field) (a : Field) (b : Src)
  /-- AMAX (R200). Returning atomic signed maximum. -/
  | amax (m : Bool) (d : Field) (a : Field) (b : Src)
  /-- AMINN (R200). Returning atomic unsigned minimum. -/
  | aminn (m : Bool) (d : Field) (a : Field) (b : Src)
  /-- AMAXN (R200). Returning atomic unsigned maximum. -/
  | amaxn (m : Bool) (d : Field) (a : Field) (b : Src)
  /-- AEXCH (R200). Returning atomic exchange. -/
  | aexch (m : Bool) (d : Field) (a : Field) (b : Src)
  /-- ACAS (R200). Atomic compare-and-swap returning the old word into vD. -/
  | acas (m : Bool) (d : Field) (a : Field) (b : Src)
  /-- AFADD (R201). Returning atomic floating-point add under RNE. -/
  | afadd (m : Bool) (d : Field) (a : Field) (b : Src)
  /-- AFMIN (R201). Returning atomic floating-point minimum. -/
  | afmin (m : Bool) (d : Field) (a : Field) (b : Src)
  /-- AFMAX (R201). Returning atomic floating-point maximum. -/
  | afmax (m : Bool) (d : Field) (a : Field) (b : Src)
  /-- REDADD (R202). Non-returning atomic add. -/
  | redadd (m : Bool) (a : Field) (b : Src)
  /-- REDAND (R202). Non-returning atomic AND. -/
  | redand (m : Bool) (a : Field) (b : Src)
  /-- REDOR (R202). Non-returning atomic OR. -/
  | redor (m : Bool) (a : Field) (b : Src)
  /-- REDXOR (R202). Non-returning atomic XOR. -/
  | redxor (m : Bool) (a : Field) (b : Src)
  /-- REDMIN (R202). Non-returning atomic minimum under S32 or N32. -/
  | redmin (m : Bool) (a : Field) (b : Src)
  /-- REDMAX (R202). Non-returning atomic maximum. -/
  | redmax (m : Bool) (a : Field) (b : Src)
  /-- REDFADD (R202). Non-returning atomic floating-point add. -/
  | redfadd (m : Bool) (a : Field) (b : Src)
  /-- FENCE (R204). Parks the path until its earlier accesses are performed at MODE.SCOPE. -/
  | fence (m : Bool)
  /-- PUBLISH (R208). Waits for covered accesses at SYSTEM scope, then replaces a window's image and advances its version counter. -/
  | publish (m : Bool) (b : Src)
  /-- ECW (R257). Writes a scalar pair into staging word Wk. -/
  | ecw (m : Bool) (d : Field) (a : Field)
  /-- EGO (R258). Snapshots the staging words into a command for engine e, validates it, joins the open batch and starts it. -/
  | ego (m : Bool) (d : Field)
  /-- BCLOSE (R259). Closes the open batch and returns its number. -/
  | bclose (m : Bool) (d : Field)
  /-- WAITB (R260). Waits for a batch, faulting BATCH_AHEAD or reporting batch errors. -/
  | waitb (m : Bool) (b : Src)
  /-- BPOLL (R261). Writes batch completion status without parking. -/
  | bpoll (m : Bool) (d : Field) (b : Src)
  /-- MLOADB (R263). Issues a stationary load of a B tile into a slot as a batch operation. -/
  | mloadb (m : Bool) (d : Field) (a : Field)
  /-- MMA (R264). Validates a matrix pass and posts one MRT request per active quarter. -/
  | mma (m : Bool) (acc : BitVec 4) (adesc : BitVec 6) (fslot : BitVec 3) (shape : BitVec 2) (fvec : BitVec 6)
  /-- MDRAIN (R265). Issues a drain of an accumulator strip to local memory as a batch operation. -/
  | mdrain (m : Bool) (d : Field) (a : Field) (b : Src)
  /-- MZERO (R265). Issues zeroing of an accumulator strip as a batch operation. -/
  | mzero (m : Bool) (d : Field)
  /-- SPINIT (R266). Binds a splice forest to the warp, optionally issuing its initialisation. -/
  | spinit (m : Bool) (a : Field)
  /-- UNITE (R267). Sends a union of two elements per lane to the splice engine. -/
  | unite (m : Bool) (d : Field) (a : Field) (b : Src)
  /-- FIND (R267). Sends a root lookup per lane to the splice engine. -/
  | find (m : Bool) (d : Field) (a : Field)
  /-- CSIZE (R267). Sends a class-size lookup per lane to the splice engine. -/
  | csize (m : Bool) (d : Field) (a : Field)
  /-- RELAB (R270). Issues a relabel-and-reduce operation on the bound forest into the open batch. -/
  | relab (m : Bool) (a : Field)
  /-- SNAP (R269). Opens the splice log or returns a mark. -/
  | snap (m : Bool) (d : Field)
  /-- UNDO (R269). Rolls the splice log back to a mark or closes it, parking until applied. -/
  | undo (m : Bool) (b : Src)
  /-- TRAP (R316). Raises a TRAP lane fault in the Active lanes selected by a mask. -/
  | trap (m : Bool) (b : Src)
  /-- RESUME (R290). Ends a continuation, restores the frozen state and retries or skips the faulting instruction. -/
  | resume (m : Bool) (d : Field) (a : Field)
  /-- LOUPE (R319). Transfers the warp to a loupe core of its die, or acts as NOP. -/
  | loupe (m : Bool)
  /-- PRGN (R321). Pushes a profile counter set. -/
  | prgn (m : Bool) (d : Field)
  /-- PRGX (R321). Pops a profile counter set and writes its record. -/
  | prgx (m : Bool)
  /-- SGET (R322). Reads a special register into sD. -/
  | sget (m : Bool) (d : Field) (a : Field)
  /-- SSET (R324). Privileged write of EBUDGET or INJECT. -/
  | sset (m : Bool) (d : Field) (b : Src)
  /-- DBGBRK (R320). When armed, transfers and pauses the warp for the debugger. -/
  | dbgbrk (m : Bool)
  /-- SELFTEST (R325). Privileged self-test of pipes, registers, BSM or a stationary bank, parking until done. -/
  | selftest (m : Bool) (d : Field) (b : Src)
  /-- FRAMEND (R207). Ends the tripod frame; NOP outside tripod mode. -/
  | framend (m : Bool)
  /-- WRITE_LANDING (R64). An outstanding register write lands, ending a marker park when the path's set empties. -/
  | writeLanding (w : WarpRef) (slot : Bool) (k : Nat)
  /-- PATH_STARVATION (R134). A path eligible and unchosen for 64 scheduler clocks becomes starved. -/
  | pathStarvation (w : WarpRef) (slot : Bool)
  /-- FENCE_COMPLETE (R204). Earlier accesses are performed at the fence scope and the path resumes. -/
  | fenceComplete (w : WarpRef) (slot : Bool)
  /-- WAITF_WAKE (R205). A write to the awaited word wakes a parked WAITF to read again. -/
  | waitfWake (w : WarpRef) (slot : Bool)
  /-- WAITF_TIMEOUT (R205). The WAITF timeout expires and the path faults WAIT_TIMEOUT. -/
  | waitfTimeout (w : WarpRef) (slot : Bool)
  /-- YIELD_EXPIRY (R318). The 32-clock YIELD park ends. -/
  | yieldExpiry (w : WarpRef) (slot : Bool)
  /-- PUBLISH_COMPLETE (R190). Covered accesses are performed, the image is replaced and the version counter advances. -/
  | publishComplete (w : WarpRef) (slot : Bool)
  /-- FRAME_COMMIT (R186). When every warp of a block has ended frame n, the buffers apply in WARPID order and frame n+1 begins. -/
  | frameCommit (launch : Nat) (block : Nat)
  /-- BATCH_COMPLETION (R215). A batch's operations finish, BDONE advances and waiting WAITBs resume. -/
  | batchCompletion (w : WarpRef)
  /-- COPY_ENGINE_COMPLETION (R219). A copy-engine command finishes its rows or stops at a fault and releases its range locks. -/
  | copyEngineCompletion (op : Nat)
  /-- MAIN_MEMORY_ATOMIC_COMPLETION (R221). A KIND 5 atomic read-modify-write completes and lands the old value. -/
  | mainMemoryAtomicCompletion (op : Nat)
  /-- STATIONARY_LOAD_COMPLETION (R227). The stationary port writes (or decrypts and verifies) a tile into its bound bank. -/
  | stationaryLoadCompletion (op : Nat)
  /-- MRT_GRANT (R232). The arbiter grants and fuses waiting quarter requests into a pass. -/
  | mrtGrant (die : Nat) (site : Nat)
  /-- PASS_COMPLETION (R232). A pass leaves the banks, its main terms land and its MRT entries free. -/
  | passCompletion (die : Nat) (site : Nat) (pass : Nat)
  /-- FILTER_ENTRY_READ (R239). Filter table entries are read and generations latched, applying hits or starting fetches. -/
  | filterEntryRead (op : Nat)
  /-- FILTER_SLICE_ARRIVAL (R241). A missed filter slice arrives and the row's filter term is replayed. -/
  | filterSliceArrival (op : Nat) (row : Nat) (k : Nat)
  /-- STRIP_OPERATION_COMPLETION (R237). An MZERO or MDRAIN performs on its strip, comparing shadow rows under redundancy. -/
  | stripOperationCompletion (op : Nat)
  /-- BANK_PERIODIC_CHECK (R243). Every 2,100,000 clocks free banks run a known product and failing banks are fenced. -/
  | bankPeriodicCheck (die : Nat) (site : Nat) (wrong : DWord)
  /-- SPLICE_APPLY (R249). The splice engine applies a UNITE, FIND, CSIZE, SNAP or UNDO in lane order. -/
  | spliceApply (req : Nat)
  /-- SPINIT_INIT_COMPLETION (R246). The forest initialisation writes every record and the log header. -/
  | spinitInitCompletion (op : Nat)
  /-- RELAB_COMPLETION (R253). RELAB writes labels and class reductions and releases waiting splice operations. -/
  | relabCompletion (op : Nat)
  /-- COLLECTIVE_STEP_COMPLETION (R359). A collective step finishes accumulating and its successor starts. -/
  | collectiveStepCompletion (op : Nat)
  /-- SEGMENT_ARRIVAL (R366). A partner segment arrives and is used or held for an unopened chain. -/
  | segmentArrival (seg : Segment)
  /-- SEGMENT_DISCARD (R366). A held segment is discarded after the group timeout. -/
  | segmentDiscard (k : Nat)
  /-- COLLECTIVE_TIMEOUT (R359). Partner data misses the group timeout and the chain completes in error. -/
  | collectiveTimeout (op : Nat)
  /-- FLIT_ARRIVAL (R355). A peer-port flit arrives, is delivered, forwarded or resent on CRC failure. -/
  | flitArrival (port : Nat) (flit : Flit)
  /-- DIE_PORT_MESSAGE (R351). A die-port message arrives, is stamped and reeled, or refused on world mismatch. -/
  | diePortMessage (msg : DieMessage)
  /-- TRANSFER_COMPLETE (R295). A loupe transfer or return finishes and the warp resumes on the target core. -/
  | transferComplete (w : WarpRef)
  /-- STALL_WATCHDOG (R294). A warp retires nothing for WDOG clocks and is transferred. -/
  | stallWatchdog (w : WarpRef)
  /-- PREDICATE_START (R304). The darkroom core starts a watchpoint predicate with a hit record. -/
  | predicateStart (die : Nat)
  /-- PREDICATE_RETURN (R303). A predicate returns; the event proceeds or halts the warp. a0: its result; stores:
  the bytes that its run has left in darkroom SRAM. -/
  | predicateReturn (die : Nat) (a0 : Word) (stores : List (Nat × Byte))
  /-- PREDICATE_OVERRUN (R304). A predicate exceeds 4,096 darkroom clocks and is stopped as false. -/
  | predicateOverrun (die : Nat) (stores : List (Nat × Byte))
  /-- LOG_DOORBELL (R381). A predicate store to the log doorbell appends a predicate-log record. -/
  | logDoorbell (die : Nat) (stores : List (Nat × Byte))
  /-- PREEMPTION (R291). The control die stops issue of a launch cluster, span or grid and chooses drain, flush or save. -/
  | preemption (launch : Nat) (unit : Nat) (rate : Nat)
  /-- DRAIN_LIMIT_EXPIRY (R291). A draining block exceeds twice its estimate and the method is chosen again. -/
  | drainLimitExpiry (launch : Nat) (block : Nat)
  /-- SAVE_COMPLETE (R292). A pre-emption save finishes writing the encrypted save area. -/
  | saveComplete (launch : Nat) (unit : Nat)
  /-- RESTORE (R292). Saved blocks are restored onto ordinary cores. -/
  | restore (launch : Nat) (unit : Nat) (sites : List Placement)
  /-- NEGATIVE_COMPLETE (R350). All negatives are written, reels emptied and BARP waiters resume. -/
  | negativeComplete (launch : Nat)
  /-- FATAL_DIE_ERROR (R352). An uncorrectable die error resets the die and starts recovery or ends launches. -/
  | fatalDieError (die : Nat) (resetOk : Bool)
  /-- DIE_RECOVERY_COMPLETE (R352). Restore and reel replay finish and held messages are delivered. -/
  | dieRecoveryComplete (die : Nat)
  /-- WORLD_LATCH (R341). An empty die is zeroed and latched to a new world. -/
  | worldLatch (die : Nat) (world : Nat)
  /-- SESSION_ESTABLISH (R345). A tenant establishes an SPDM secured session fixing world, heartbeat, DEBUG and keys. -/
  | sessionEstablish (req : SessionRequest)
  /-- HEARTBEAT (R345). A secured heartbeat is verified and moves the deadline. -/
  | heartbeat (iface : Nat) (seq : DWord)
  /-- HEARTBEAT_DEADLINE (R346). The heartbeat deadline passes and the world is torn down. -/
  | heartbeatDeadline (iface : Nat)
  /-- GRAIN_WINDOW_BOUNDARY (R347). A 1 s grain window ends, updating coarsened counters and releasing protected-world records. -/
  | grainWindowBoundary
  /-- ENERGY_BUDGET_UPDATE (R128). The control die sets a core's energy budget from island power. -/
  | energyBudgetUpdate (core : Nat) (budget : Nat)
  /-- PRIORITY_AGING (R131). Each 10 ms at a queue head raises a launch one level. -/
  | priorityAging (iface : Nat) (q : Nat)
  /-- LAUNCH_QUEUE_EXIT (R393). The dispatcher takes a head launch by weighted round-robin and runs record, buffer, world, die and fit checks. -/
  | launchQueueExit
  /-- DEPENDENCE_RESOLUTION (R131). A launch's dependences complete, releasing it or cancelling it. -/
  | dependenceResolution (launch : Nat)
  /-- LAUNCH_DISPATCH (R62). The image is read into the code store and SIG computed. -/
  | launchDispatch (launch : Nat)
  /-- BLOCK_PLACEMENT (R126). A block is admitted, its arguments copied and its warps started. -/
  | blockPlacement (launch : Nat) (cluster : Nat) (sites : List Placement)
  /-- BLOCK_RELEASE (R127). A block's last warp and batches finish, freeing resources and completing the launch if last. -/
  | blockRelease (launch : Nat) (block : Nat)
  /-- DOORBELL (R373). A host doorbell write sets a queue's tail, or is ignored and sets ERR. -/
  | doorbell (iface : Nat) (q : Nat) (v : DWord)
  /-- QUEUE_DESCRIPTOR_WRITE (R372). Writing descriptor bytes [7:0] makes a queue descriptor take effect. -/
  | queueDescriptorWrite (iface : Nat) (q : Nat) (v : BitVec 256)
  /-- INTERFACE_GRANT_WRITE (R370). Physical interface grants dies and queues to a virtual interface, or refuses. -/
  | interfaceGrantWrite (iface : Nat) (v : DWord)
  /-- ISLAND_REGISTER_WRITE (R390). Sets an island's clock, power limit and voltage offset, or refuses. -/
  | islandRegisterWrite (iface : Nat) (island : Nat) (v : DWord)
  /-- MARGIN_GO (R391). Starts a receiver margining run, or ends it refused or busy. -/
  | marginGo (iface : Nat) (v : DWord)
  /-- MARGIN_DONE (R391). A margining run finishes with its result and error count. -/
  | marginDone (fail : Bool) (errs : Nat)
  /-- REGISTER_WRITE (R371). Write to an interface register without behaviour of its own, such as PTROOT or FTBASE. -/
  | registerWrite (iface : Nat) (offset : Nat) (v : DWord)
  /-- COPY (R378). Host command for a main-to-main copy. -/
  | copy (iface : Nat) (q : Nat)
  /-- SIGNAL (R378). Host command writing a 64-bit value at DEVICE scope. -/
  | signal (iface : Nat) (q : Nat)
  /-- WAIT (R378). Host command waiting for a 64-bit compare. -/
  | wait (iface : Nat) (q : Nat)
  /-- WAIT_SATISFIED (R378). The WAIT command's compare holds and the command completes. -/
  | waitSatisfied (iface : Nat) (q : Nat)
  /-- WAIT_COMMAND_TIMEOUT (R378). The WAIT command's timeout expires and it completes FAULTED. -/
  | waitCommandTimeout (iface : Nat) (q : Nat)
  /-- PUBACK (R378). Host acknowledges images up to version v. -/
  | puback (iface : Nat) (q : Nat)
  /-- SUMMARY (R379). Re-synchronising command writing the interface state summary. -/
  | summary (iface : Nat) (q : Nat) (n : Nat)
  /-- INVAL (R170). Host translation invalidation command. -/
  | inval (iface : Nat) (q : Nat)
  /-- INVALIDATION_COMPLETE (R170). Commands holding covered translations finish and the invalidation completes. -/
  | invalidationComplete (iface : Nat) (q : Nat)
  /-- WINDOW (R378). Opens or closes a publication window. -/
  | window (iface : Nat) (q : Nat)
  /-- GROUP (R382). Sets up or removes a collective group after checking its route table. -/
  | group (iface : Nat) (q : Nat)
  /-- COUNTERS (R383). Copies and optionally clears histograms and class counters. -/
  | counters (iface : Nat) (q : Nat)
  /-- WPSET (R380). DEBUG sub-op writing a watchpoint. -/
  | wpset (iface : Nat) (q : Nat)
  /-- PROGSET (R380). DEBUG sub-op replacing a darkroom program table entry. -/
  | progset (iface : Nat) (q : Nat)
  /-- DRLOAD (R380). DEBUG sub-op loading code into darkroom SRAM. -/
  | drload (iface : Nat) (q : Nat)
  /-- CTLSET (R296). DEBUG sub-op writing the loupe control record. -/
  | ctlset (iface : Nat) (q : Nat)
  /-- TRANSFER (R380). DEBUG sub-op transferring a warp to a loupe core. -/
  | transfer (iface : Nat) (q : Nat)
  /-- RELEASE (R380). DEBUG sub-op returning a warp home. -/
  | release (iface : Nat) (q : Nat)
  /-- PAUSE (R380). DEBUG sub-op pausing a transferred warp. -/
  | pause (iface : Nat) (q : Nat)
  /-- DEBUG_RESUME (R380). DEBUG sub-op resuming a paused, halted or faulted warp. -/
  | debugResume (iface : Nat) (q : Nat)
  /-- ARMBRK (R380). DEBUG sub-op arming or disarming DBGBRK for a launch. -/
  | armbrk (iface : Nat) (q : Nat)
  /-- CSREAD (R380). DEBUG sub-op copying the contact sheet to the host. -/
  | csread (iface : Nat) (q : Nat)
  /-- FSREAD (R380). DEBUG sub-op copying the film strip and PC tables. -/
  | fsread (iface : Nat) (q : Nat)
  /-- FSNAME (R380). DEBUG sub-op naming registers tracked by a film-strip slot. -/
  | fsname (iface : Nat) (q : Nat)
  /-- COMMAND_COMPLETION (R374). A queue command finishes, its completion record is written and later entries may start. -/
  | commandCompletion (iface : Nat) (q : Nat)
  /-- SELFTEST_DONE (R326). A SELFTEST finishes and its four results land. -/
  | selftestDone (w : WarpRef) (slot : Bool) (r : SelftestResult)
  /-- MEASUREMENTS (R385). SPDM request returning signed firmware and fuse measurements. -/
  | measurements (iface : Nat) (nonce : BitVec 256)
  /-- FIRMWARE_UPDATE (R385). A signed firmware image is verified and installed or refused. -/
  | firmwareUpdate (image : FirmwareImage)
  /-- POWER_ON (R386). Module power up runs the bring-up sequence. -/
  | powerOn (env : PowerEnv)
  /-- PACKAGE_RESET (R386). Repeats bring-up steps 2 to 6 keeping verified firmware. -/
  | packageReset (env : PowerEnv)
  /-- MODULE_POWER_REMOVAL (R386). Module power is removed and every SRAM, fuse shadow, key and counter is lost. -/
  | modulePowerRemoval
  /-- PREDICATE_EXCEPTION (R381). A darkroom predicate makes an out-of-range load or store, a store below 0x0100, an illegal instruction or another exception, and is stopped with its result taken as false and OVERRUN recorded. -/
  | predicateException (die : Nat) (stores : List (Nat × Byte))
  /-- VIRTUAL_INTERFACE_ENABLE (R370). SR-IOV enables or disables a virtual interface, which decides whether grant register writes for it are refused. -/
  | virtualInterfaceEnable (iface : Nat) (on : Bool)
  /-- PUBLICATION_WINDOW_READ (R191). The host reads a publication window over CXL.mem and receives whole 64-byte lines of the current published image. -/
  | publicationWindowRead (iface : Nat) (window : Nat) (addr : Nat)
  deriving DecidableEq, Repr

end Sys2Proof
end

