-- ==== Sys2Proof/WellFormed.lean ====
section
/-! DEFINITION. Which instructions have an encoding that R49 does not refuse: the operand kinds of 03 R44
and R45 and the literals of 03 R46, 06 R120, 08 R148, R150 and R151. -/

namespace Sys2Proof

/-- Kind s: bit 6 zero (03 R44). -/
def isS (f : Field) : Bool := decide (f.toNat < 64)

/-- Kind s2: an even scalar register, 0 to 62. -/
def isS2 (f : Field) : Bool := decide (f.toNat < 64) && decide (f.toNat % 2 = 0)

/-- Kind s4: a multiple of 4, 0 to 60. -/
def isS4 (f : Field) : Bool := decide (f.toNat < 64) && decide (f.toNat % 4 = 0)

/-- Kind v2: an even vector register. -/
def isV2 (f : Field) : Bool := decide (f.toNat % 2 = 0)

/-- Kind v4: a multiple of 4. -/
def isV4 (f : Field) : Bool := decide (f.toNat % 4 = 0)

/-- Kind k: a constant in its range. -/
def isK (lo hi : Nat) (f : Field) : Bool := decide (lo ≤ f.toNat) && decide (f.toNat ≤ hi)

/-- A scalar register that starts a mask: sD + WIDTH/32 - 1 is at most 63 (06 R107, 08 R144, R151). -/
def isMaskS (f : Field) : Bool := decide (f.toNat + Config.maskRegs - 1 < 64)

/-- A code-label target: bits [1:0] zero (03 R46). -/
def isTarget (w : Word) : Bool := decide (w.toNat % 4 = 0)

/-- A literal that holds a code up to n (03 R46). -/
def isCode (n : Nat) (w : Word) : Bool := decide (w.toNat ≤ n)

/-- A shuffle offset: with bit 31 set, bits [30:3] are zero (08 R148). -/
def isOffset (w : Word) : Bool := decide (w.toNat < 2 ^ 31) || decide (w.toNat - 2 ^ 31 < 8)

/-- Kind s/#: a scalar register or any literal (03 R44). -/
def Src.isSB : Src → Bool
  | .reg r => isS r
  | .lit _ => true

/-- A shuffle's v/# operand: a register or an offset literal (08 R148). -/
def Src.isShuffleB : Src → Bool
  | .reg _ => true
  | .lit w => isOffset w

/-- An instruction that no check of 03 R49 refuses; an event row has no encoding and passes. -/
def Instr.wf : Instr → Bool
  | .sadd _ d a b => isS d && isS a && b.isSB
  | .ssub _ d a b => isS d && isS a && b.isSB
  | .smul _ d a b => isS d && isS a && b.isSB
  | .smulh _ d a b => isS d && isS a && b.isSB
  | .smulhn _ d a b => isS d && isS a && b.isSB
  | .sdiv _ d a b => isS d && isS a && b.isSB
  | .sdivn _ d a b => isS d && isS a && b.isSB
  | .srem _ d a b => isS d && isS a && b.isSB
  | .sremn _ d a b => isS d && isS a && b.isSB
  | .sand _ d a b => isS d && isS a && b.isSB
  | .sor _ d a b => isS d && isS a && b.isSB
  | .sxor _ d a b => isS d && isS a && b.isSB
  | .sandn _ d a b => isS d && isS a && b.isSB
  | .sshl _ d a b => isS d && isS a && b.isSB
  | .sshr _ d a b => isS d && isS a && b.isSB
  | .ssra _ d a b => isS d && isS a && b.isSB
  | .smin _ d a b => isS d && isS a && b.isSB
  | .smax _ d a b => isS d && isS a && b.isSB
  | .sminn _ d a b => isS d && isS a && b.isSB
  | .smaxn _ d a b => isS d && isS a && b.isSB
  | .spopc _ d a => isS d && isS a
  | .sclz _ d a => isS d && isS a
  | .sbrev _ d a => isS d && isS a
  | .sbfx _ d a b => isS d && isS a && b.isSB
  | .sbfi _ d a b => isS d && isS a && b.isSB
  | .sceq _ d a b => isS d && isS a && b.isSB
  | .scne _ d a b => isS d && isS a && b.isSB
  | .sclt _ d a b => isS d && isS a && b.isSB
  | .scle _ d a b => isS d && isS a && b.isSB
  | .scltn _ d a b => isS d && isS a && b.isSB
  | .sclen _ d a b => isS d && isS a && b.isSB
  | .nop _ => true
  | .bra _ lit => isTarget lit
  | .bz _ a lit => isS a && isTarget lit
  | .bnz _ a lit => isS a && isTarget lit
  | .brd _ d _ lit => isMaskS d && isTarget lit
  | .join _ a => isS a
  | .call _ d lit => isS d && isTarget lit
  | .ret _ a => isS a
  | .brx _ a => isS a
  | .loop _ d lit => isS d && isTarget lit
  | .exit _ => true
  | .setmode _ b => b.isSB
  | .getmode _ d => isS d
  | .setix _ b => b.isSB
  | .waitf _ d a _ => isK 0 5 d && isS2 a
  | .yield _ => true
  | .smov _ d b => isS d && b.isSB
  | .ssel _ d a b => isS d && isS a && b.isSB
  | .sffs _ d a => isS d && isS a
  | .vadd _ _ _ _ => true
  | .vsub _ _ _ _ => true
  | .vmul _ _ _ _ => true
  | .vmulh _ _ _ _ => true
  | .vmulhn _ _ _ _ => true
  | .vmad _ _ _ _ => true
  | .vdiv _ _ _ _ => true
  | .vdivn _ _ _ _ => true
  | .vrem _ _ _ _ => true
  | .vremn _ _ _ _ => true
  | .vand _ _ _ _ => true
  | .vor _ _ _ _ => true
  | .vxor _ _ _ _ => true
  | .vandn _ _ _ _ => true
  | .vshl _ _ _ _ => true
  | .vshr _ _ _ _ => true
  | .vsra _ _ _ _ => true
  | .vmin _ _ _ _ => true
  | .vmax _ _ _ _ => true
  | .vminn _ _ _ _ => true
  | .vmaxn _ _ _ _ => true
  | .vabs _ _ _ => true
  | .vneg _ _ _ => true
  | .vpopc _ _ _ => true
  | .vclz _ _ _ => true
  | .vbrev _ _ _ => true
  | .vbfx _ _ _ _ => true
  | .vbfi _ _ _ _ => true
  | .vmov _ _ _ => true
  | .vsplat _ _ a => isS a
  | .vget _ _ a => isK 0 4 a
  | .vceq _ d _ _ => isMaskS d
  | .vcne _ d _ _ => isMaskS d
  | .vclt _ d _ _ => isMaskS d
  | .vcle _ d _ _ => isMaskS d
  | .vgetst _ _ => true
  | .vclrst _ b => b.isSB
  | .vfadd _ _ _ _ => true
  | .vfsub _ _ _ _ => true
  | .vfmul _ _ _ _ => true
  | .vfma _ _ _ _ => true
  | .vfms _ _ _ _ => true
  | .vfnma _ _ _ _ => true
  | .vfmin _ _ _ _ => true
  | .vfmax _ _ _ _ => true
  | .vfabs _ _ _ => true
  | .vfneg _ _ _ => true
  | .vfcpsgn _ _ _ _ => true
  | .vfceq _ d _ _ => isMaskS d
  | .vfclt _ d _ _ => isMaskS d
  | .vfcle _ d _ _ => isMaskS d
  | .vfcun _ d _ _ => isMaskS d
  | .vfclass _ _ _ => true
  | .vfdiv _ _ _ _ => true
  | .vfsqrt _ _ _ => true
  | .vfrint _ _ _ => true
  | .vfrcp _ _ _ => true
  | .vfrsq _ _ _ => true
  | .vfexp2 _ _ _ => true
  | .vflog2 _ _ _ => true
  | .vfsinpi _ _ _ => true
  | .vfcospi _ _ _ => true
  | .vftanh _ _ _ => true
  | .vdot4 _ _ _ _ => true
  | .vdot4m _ _ _ _ => true
  | .vdot8 _ _ _ _ => true
  | .vfdot4 _ _ _ _ => true
  | .vfdot8 _ _ _ _ => true
  | .vunp5 _ d _ lit => isV2 d && isCode 3 lit
  | .vcvtw _ _ _ lit => isCode 127 lit
  | .vcvtn _ _ _ lit => isCode 127 lit
  | .vcvtfi _ _ _ lit => isCode 127 lit
  | .vcvtif _ _ _ lit => isCode 127 lit
  | .vshup _ _ _ b => b.isShuffleB
  | .vshdn _ _ _ b => b.isShuffleB
  | .vshxor _ _ _ b => b.isShuffleB
  | .vshidx _ _ _ _ => true
  | .vqswap _ _ _ _ => true
  | .vred _ _ _ lit => isCode 5 lit
  | .vscan _ _ _ lit => isCode 5 lit
  | .vreadl _ d _ b => isS d && b.isSB
  | .vwritel _ _ a b => isS a && b.isSB
  | .vvote _ d _ lit => isMaskS d && isCode 3 lit
  | .vmatch _ _ _ => true
  | .vmovx _ _ _ => true
  | .vmovxw _ _ _ => true
  | .bar _ d => isK 0 15 d
  | .bara _ d => isK 0 15 d
  | .barw _ d => isK 0 15 d
  | .barc _ => true
  | .barp _ => true
  | .ld8 _ _ _ b => b.isSB
  | .ld8s _ _ _ b => b.isSB
  | .ld16 _ _ _ b => b.isSB
  | .ld16s _ _ _ b => b.isSB
  | .ld32 _ _ _ b => b.isSB
  | .ld64 _ d _ b => isV2 d && b.isSB
  | .ld128 _ d _ b => isV4 d && b.isSB
  | .st8 _ _ _ b => b.isSB
  | .st16 _ _ _ b => b.isSB
  | .st32 _ _ _ b => b.isSB
  | .st64 _ d _ b => isV2 d && b.isSB
  | .st128 _ d _ b => isV4 d && b.isSB
  | .sld32 _ d a b => isS d && isS a && b.isSB
  | .sld64 _ d a b => isS2 d && isS a && b.isSB
  | .sst32 _ d a b => isS d && isS a && b.isSB
  | .sst64 _ d a b => isS2 d && isS a && b.isSB
  | .vspill _ _ => true
  | .vfill _ _ => true
  | .ldacq32 _ _ _ b => b.isSB
  | .strel32 _ _ _ b => b.isSB
  | .aadd _ _ _ _ => true
  | .aand _ _ _ _ => true
  | .aor _ _ _ _ => true
  | .axor _ _ _ _ => true
  | .amin _ _ _ _ => true
  | .amax _ _ _ _ => true
  | .aminn _ _ _ _ => true
  | .amaxn _ _ _ _ => true
  | .aexch _ _ _ _ => true
  | .acas _ _ _ _ => true
  | .afadd _ _ _ _ => true
  | .afmin _ _ _ _ => true
  | .afmax _ _ _ _ => true
  | .redadd _ _ _ => true
  | .redand _ _ _ => true
  | .redor _ _ _ => true
  | .redxor _ _ _ => true
  | .redmin _ _ _ => true
  | .redmax _ _ _ => true
  | .redfadd _ _ _ => true
  | .fence _ => true
  | .publish _ b => b.isSB
  | .ecw _ d a => isK 0 3 d && isS2 a
  | .ego _ d => isK 0 2 d
  | .bclose _ d => isS d
  | .waitb _ b => b.isSB
  | .bpoll _ d b => isS d && b.isSB
  | .mloadb _ d a => isK 0 63 d && isS a
  | .mma _ _ adesc _ _ _ => decide (adesc.toNat % 2 = 0)
  | .mdrain _ d a b => isK 0 15 d && isS a && b.isSB
  | .mzero _ d => isK 0 15 d
  | .spinit _ a => isS4 a
  | .unite _ _ _ _ => true
  | .find _ _ _ => true
  | .csize _ _ _ => true
  | .relab _ a => isS4 a
  | .snap _ d => isS d
  | .undo _ b => b.isSB
  | .trap _ b => b.isSB
  | .resume _ d a => isK 0 1 d && isS a
  | .loupe _ => true
  | .prgn _ _ => true
  | .prgx _ => true
  | .sget _ d a => isS d && isK 0 18 a
  | .sset _ d b => isK 64 65 d && b.isSB
  | .dbgbrk _ => true
  | .selftest _ d b => isS4 d && b.isSB
  | .framend _ => true
  | .writeLanding _ _ _ => true
  | .pathStarvation _ _ => true
  | .fenceComplete _ _ => true
  | .waitfWake _ _ => true
  | .waitfTimeout _ _ => true
  | .yieldExpiry _ _ => true
  | .publishComplete _ _ => true
  | .frameCommit _ _ => true
  | .batchCompletion _ => true
  | .copyEngineCompletion _ => true
  | .mainMemoryAtomicCompletion _ => true
  | .stationaryLoadCompletion _ => true
  | .mrtGrant _ _ => true
  | .passCompletion _ _ _ => true
  | .filterEntryRead _ => true
  | .filterSliceArrival _ _ _ => true
  | .stripOperationCompletion _ => true
  | .bankPeriodicCheck _ _ _ => true
  | .spliceApply _ => true
  | .spinitInitCompletion _ => true
  | .relabCompletion _ => true
  | .collectiveStepCompletion _ => true
  | .segmentArrival _ => true
  | .segmentDiscard _ => true
  | .collectiveTimeout _ => true
  | .flitArrival _ _ => true
  | .diePortMessage _ => true
  | .transferComplete _ => true
  | .stallWatchdog _ => true
  | .predicateStart _ => true
  | .predicateReturn _ _ _ => true
  | .predicateOverrun _ _ => true
  | .logDoorbell _ _ => true
  | .preemption _ _ _ => true
  | .drainLimitExpiry _ _ => true
  | .saveComplete _ _ => true
  | .restore _ _ _ => true
  | .negativeComplete _ => true
  | .fatalDieError _ _ => true
  | .dieRecoveryComplete _ => true
  | .worldLatch _ _ => true
  | .sessionEstablish _ => true
  | .heartbeat _ _ => true
  | .heartbeatDeadline _ => true
  | .grainWindowBoundary => true
  | .energyBudgetUpdate _ _ => true
  | .priorityAging _ _ => true
  | .launchQueueExit => true
  | .dependenceResolution _ => true
  | .launchDispatch _ => true
  | .blockPlacement _ _ _ => true
  | .blockRelease _ _ => true
  | .doorbell _ _ _ => true
  | .queueDescriptorWrite _ _ _ => true
  | .interfaceGrantWrite _ _ => true
  | .islandRegisterWrite _ _ _ => true
  | .marginGo _ _ => true
  | .marginDone _ _ => true
  | .registerWrite _ _ _ => true
  | .copy _ _ => true
  | .signal _ _ => true
  | .wait _ _ => true
  | .waitSatisfied _ _ => true
  | .waitCommandTimeout _ _ => true
  | .puback _ _ => true
  | .summary _ _ _ => true
  | .inval _ _ => true
  | .invalidationComplete _ _ => true
  | .window _ _ => true
  | .group _ _ => true
  | .counters _ _ => true
  | .wpset _ _ => true
  | .progset _ _ => true
  | .drload _ _ => true
  | .ctlset _ _ => true
  | .transfer _ _ => true
  | .release _ _ => true
  | .pause _ _ => true
  | .debugResume _ _ => true
  | .armbrk _ _ => true
  | .csread _ _ => true
  | .fsread _ _ => true
  | .fsname _ _ => true
  | .commandCompletion _ _ => true
  | .selftestDone _ _ _ => true
  | .measurements _ _ => true
  | .firmwareUpdate _ => true
  | .powerOn _ => true
  | .packageReset _ => true
  | .modulePowerRemoval => true
  | .predicateException _ _ => true
  | .virtualInterfaceEnable _ _ => true
  | .publicationWindowRead _ _ _ => true

end Sys2Proof
end

