-- ==== Sys2Proof/Decode.lean ====
section
/-! DEFINITION. The decoder, total on any bytes (03 R40 to R52), and after it the encoder. -/

namespace Sys2Proof

/-- What the core makes of the bytes at a PC: an instruction, or the issue fault by name. len is the
distance to the word's successor (04 R62, 03 R52). -/
inductive Decoded where
  | instr (i : Instr) (len : Nat)
  | illegalOpcode (len : Nat)
  | reservedField (len : Nat)
  deriving DecidableEq, Repr

/-! ### The fields of Format R (03 R41) and Format T (03 R43) -/

/-- Bit [31] S. -/
def fieldS (w : Word) : Bool := w.getLsbD 31

/-- Bits [30:22] OP. -/
def fieldOp (w : Word) : BitVec 9 := w.extractLsb' 22 9

/-- Bits [21:15] D. -/
def fieldD (w : Word) : Field := w.extractLsb' 15 7

/-- Bits [14:8] A. -/
def fieldA (w : Word) : Field := w.extractLsb' 8 7

/-- Bits [7:1] B. -/
def fieldB (w : Word) : Field := w.extractLsb' 1 7

/-- Bit [0] L. -/
def fieldL (w : Word) : Bool := w.getLsbD 0

/-- A field of kind 0: zero (03 R44). -/
def isZero (f : Field) : Bool := decide (f = 0)

/-- The B operand: the register with L = 0, the literal with L = 1 (03 R42). -/
def srcOf (l : Bool) (b : Field) (lit : Word) : Src := if l then .lit lit else .reg b

/-- B of kind v/#: B is zero while L = 1 (03 R49). -/
def bV (l : Bool) (b : Field) : Bool := !l || isZero b

/-- B of kind s/#. -/
def bS (l : Bool) (b : Field) : Bool := if l then isZero b else isS b

/-- B of kind #: a literal is required. -/
def bLit (l : Bool) (b : Field) : Bool := l && isZero b

/-- B of kind -: no operand. -/
def bNone (l : Bool) (b : Field) : Bool := !l && isZero b

/-- A shuffle's v/# operand (08 R148). -/
def bShuffle (l : Bool) (b : Field) (lit : Word) : Bool := bV l b && (!l || isOffset lit)

/-- An instruction whose checks hold, else the fault RESERVED_FIELD (03 R49). -/
def checked (ok : Bool) (i : Instr) (len : Nat) : Decoded := if ok then .instr i len else .reservedField len

/-- The instruction of a Format R opcode with its fields (03 R45, R47); every other OP is unassigned and
faults ILLEGAL_OPCODE (03 R48). -/
def decodeR (op : Nat) (m : Bool) (d a b : Field) (l : Bool) (lit : Word) (len : Nat) : Decoded :=
  match op with
  | 0x001 => checked (isS d && isS a && bS l b) (.sadd m d a (srcOf l b lit)) len
  | 0x002 => checked (isS d && isS a && bS l b) (.ssub m d a (srcOf l b lit)) len
  | 0x003 => checked (isS d && isS a && bS l b) (.smul m d a (srcOf l b lit)) len
  | 0x004 => checked (isS d && isS a && bS l b) (.smulh m d a (srcOf l b lit)) len
  | 0x005 => checked (isS d && isS a && bS l b) (.smulhn m d a (srcOf l b lit)) len
  | 0x006 => checked (isS d && isS a && bS l b) (.sdiv m d a (srcOf l b lit)) len
  | 0x007 => checked (isS d && isS a && bS l b) (.sdivn m d a (srcOf l b lit)) len
  | 0x008 => checked (isS d && isS a && bS l b) (.srem m d a (srcOf l b lit)) len
  | 0x009 => checked (isS d && isS a && bS l b) (.sremn m d a (srcOf l b lit)) len
  | 0x00A => checked (isS d && isS a && bS l b) (.sand m d a (srcOf l b lit)) len
  | 0x00B => checked (isS d && isS a && bS l b) (.sor m d a (srcOf l b lit)) len
  | 0x00C => checked (isS d && isS a && bS l b) (.sxor m d a (srcOf l b lit)) len
  | 0x00D => checked (isS d && isS a && bS l b) (.sandn m d a (srcOf l b lit)) len
  | 0x00E => checked (isS d && isS a && bS l b) (.sshl m d a (srcOf l b lit)) len
  | 0x00F => checked (isS d && isS a && bS l b) (.sshr m d a (srcOf l b lit)) len
  | 0x010 => checked (isS d && isS a && bS l b) (.ssra m d a (srcOf l b lit)) len
  | 0x011 => checked (isS d && isS a && bS l b) (.smin m d a (srcOf l b lit)) len
  | 0x012 => checked (isS d && isS a && bS l b) (.smax m d a (srcOf l b lit)) len
  | 0x013 => checked (isS d && isS a && bS l b) (.sminn m d a (srcOf l b lit)) len
  | 0x014 => checked (isS d && isS a && bS l b) (.smaxn m d a (srcOf l b lit)) len
  | 0x015 => checked (isS d && isS a && bNone l b) (.spopc m d a) len
  | 0x016 => checked (isS d && isS a && bNone l b) (.sclz m d a) len
  | 0x017 => checked (isS d && isS a && bNone l b) (.sbrev m d a) len
  | 0x018 => checked (isS d && isS a && bS l b) (.sbfx m d a (srcOf l b lit)) len
  | 0x019 => checked (isS d && isS a && bS l b) (.sbfi m d a (srcOf l b lit)) len
  | 0x01A => checked (isS d && isS a && bS l b) (.sceq m d a (srcOf l b lit)) len
  | 0x01B => checked (isS d && isS a && bS l b) (.scne m d a (srcOf l b lit)) len
  | 0x01C => checked (isS d && isS a && bS l b) (.sclt m d a (srcOf l b lit)) len
  | 0x01D => checked (isS d && isS a && bS l b) (.scle m d a (srcOf l b lit)) len
  | 0x01E => checked (isS d && isS a && bS l b) (.scltn m d a (srcOf l b lit)) len
  | 0x01F => checked (isS d && isS a && bS l b) (.sclen m d a (srcOf l b lit)) len
  | 0x020 => checked (isZero d && isZero a && bNone l b) (.nop m) len
  | 0x021 => checked (isZero d && isZero a && bLit l b && isTarget lit) (.bra m lit) len
  | 0x022 => checked (isZero d && isS a && bLit l b && isTarget lit) (.bz m a lit) len
  | 0x023 => checked (isZero d && isS a && bLit l b && isTarget lit) (.bnz m a lit) len
  | 0x024 => checked (isMaskS d && bLit l b && isTarget lit) (.brd m d a lit) len
  | 0x025 => checked (isZero d && isS a && bNone l b) (.join m a) len
  | 0x026 => checked (isS d && isZero a && bLit l b && isTarget lit) (.call m d lit) len
  | 0x027 => checked (isZero d && isS a && bNone l b) (.ret m a) len
  | 0x028 => checked (isZero d && isS a && bNone l b) (.brx m a) len
  | 0x029 => checked (isS d && isZero a && bLit l b && isTarget lit) (.loop m d lit) len
  | 0x02A => checked (isZero d && isZero a && bNone l b) (.exit m) len
  | 0x02B => checked (isZero d && isZero a && bS l b) (.setmode m (srcOf l b lit)) len
  | 0x02C => checked (isS d && isZero a && bNone l b) (.getmode m d) len
  | 0x02D => checked (isZero d && isZero a && bS l b) (.setix m (srcOf l b lit)) len
  | 0x02E => checked (isK 0 5 d && isS2 a && bLit l b) (.waitf m d a lit) len
  | 0x02F => checked (isZero d && isZero a && bNone l b) (.yield m) len
  | 0x030 => checked (isS d && isZero a && bS l b) (.smov m d (srcOf l b lit)) len
  | 0x031 => checked (isS d && isS a && bS l b) (.ssel m d a (srcOf l b lit)) len
  | 0x032 => checked (isS d && isS a && bNone l b) (.sffs m d a) len
  | 0x040 => checked (bV l b) (.vadd m d a (srcOf l b lit)) len
  | 0x041 => checked (bV l b) (.vsub m d a (srcOf l b lit)) len
  | 0x042 => checked (bV l b) (.vmul m d a (srcOf l b lit)) len
  | 0x043 => checked (bV l b) (.vmulh m d a (srcOf l b lit)) len
  | 0x044 => checked (bV l b) (.vmulhn m d a (srcOf l b lit)) len
  | 0x045 => checked (bV l b) (.vmad m d a (srcOf l b lit)) len
  | 0x046 => checked (bV l b) (.vdiv m d a (srcOf l b lit)) len
  | 0x047 => checked (bV l b) (.vdivn m d a (srcOf l b lit)) len
  | 0x048 => checked (bV l b) (.vrem m d a (srcOf l b lit)) len
  | 0x049 => checked (bV l b) (.vremn m d a (srcOf l b lit)) len
  | 0x04A => checked (bV l b) (.vand m d a (srcOf l b lit)) len
  | 0x04B => checked (bV l b) (.vor m d a (srcOf l b lit)) len
  | 0x04C => checked (bV l b) (.vxor m d a (srcOf l b lit)) len
  | 0x04D => checked (bV l b) (.vandn m d a (srcOf l b lit)) len
  | 0x04E => checked (bV l b) (.vshl m d a (srcOf l b lit)) len
  | 0x04F => checked (bV l b) (.vshr m d a (srcOf l b lit)) len
  | 0x050 => checked (bV l b) (.vsra m d a (srcOf l b lit)) len
  | 0x051 => checked (bV l b) (.vmin m d a (srcOf l b lit)) len
  | 0x052 => checked (bV l b) (.vmax m d a (srcOf l b lit)) len
  | 0x053 => checked (bV l b) (.vminn m d a (srcOf l b lit)) len
  | 0x054 => checked (bV l b) (.vmaxn m d a (srcOf l b lit)) len
  | 0x055 => checked (bNone l b) (.vabs m d a) len
  | 0x056 => checked (bNone l b) (.vneg m d a) len
  | 0x057 => checked (bNone l b) (.vpopc m d a) len
  | 0x058 => checked (bNone l b) (.vclz m d a) len
  | 0x059 => checked (bNone l b) (.vbrev m d a) len
  | 0x05A => checked (bV l b) (.vbfx m d a (srcOf l b lit)) len
  | 0x05B => checked (bV l b) (.vbfi m d a (srcOf l b lit)) len
  | 0x060 => checked (isZero a && bV l b) (.vmov m d (srcOf l b lit)) len
  | 0x061 => checked (isS a && bNone l b) (.vsplat m d a) len
  | 0x062 => checked (isK 0 4 a && bNone l b) (.vget m d a) len
  | 0x063 => checked (isMaskS d && bV l b) (.vceq m d a (srcOf l b lit)) len
  | 0x064 => checked (isMaskS d && bV l b) (.vcne m d a (srcOf l b lit)) len
  | 0x065 => checked (isMaskS d && bV l b) (.vclt m d a (srcOf l b lit)) len
  | 0x066 => checked (isMaskS d && bV l b) (.vcle m d a (srcOf l b lit)) len
  | 0x067 => checked (isZero a && bNone l b) (.vgetst m d) len
  | 0x068 => checked (isZero d && isZero a && bS l b) (.vclrst m (srcOf l b lit)) len
  | 0x080 => checked (bV l b) (.vfadd m d a (srcOf l b lit)) len
  | 0x081 => checked (bV l b) (.vfsub m d a (srcOf l b lit)) len
  | 0x082 => checked (bV l b) (.vfmul m d a (srcOf l b lit)) len
  | 0x083 => checked (bV l b) (.vfma m d a (srcOf l b lit)) len
  | 0x084 => checked (bV l b) (.vfms m d a (srcOf l b lit)) len
  | 0x085 => checked (bV l b) (.vfnma m d a (srcOf l b lit)) len
  | 0x086 => checked (bV l b) (.vfmin m d a (srcOf l b lit)) len
  | 0x087 => checked (bV l b) (.vfmax m d a (srcOf l b lit)) len
  | 0x088 => checked (bNone l b) (.vfabs m d a) len
  | 0x089 => checked (bNone l b) (.vfneg m d a) len
  | 0x08A => checked (bV l b) (.vfcpsgn m d a (srcOf l b lit)) len
  | 0x08B => checked (isMaskS d && bV l b) (.vfceq m d a (srcOf l b lit)) len
  | 0x08C => checked (isMaskS d && bV l b) (.vfclt m d a (srcOf l b lit)) len
  | 0x08D => checked (isMaskS d && bV l b) (.vfcle m d a (srcOf l b lit)) len
  | 0x08E => checked (isMaskS d && bV l b) (.vfcun m d a (srcOf l b lit)) len
  | 0x08F => checked (bNone l b) (.vfclass m d a) len
  | 0x090 => checked (bV l b) (.vfdiv m d a (srcOf l b lit)) len
  | 0x091 => checked (bNone l b) (.vfsqrt m d a) len
  | 0x092 => checked (bNone l b) (.vfrint m d a) len
  | 0x0A0 => checked (bNone l b) (.vfrcp m d a) len
  | 0x0A1 => checked (bNone l b) (.vfrsq m d a) len
  | 0x0A2 => checked (bNone l b) (.vfexp2 m d a) len
  | 0x0A3 => checked (bNone l b) (.vflog2 m d a) len
  | 0x0A4 => checked (bNone l b) (.vfsinpi m d a) len
  | 0x0A5 => checked (bNone l b) (.vfcospi m d a) len
  | 0x0A6 => checked (bNone l b) (.vftanh m d a) len
  | 0x0C0 => checked (bV l b) (.vdot4 m d a (srcOf l b lit)) len
  | 0x0C1 => checked (bV l b) (.vdot4m m d a (srcOf l b lit)) len
  | 0x0C2 => checked (bV l b) (.vdot8 m d a (srcOf l b lit)) len
  | 0x0C3 => checked (bV l b) (.vfdot4 m d a (srcOf l b lit)) len
  | 0x0C4 => checked (bV l b) (.vfdot8 m d a (srcOf l b lit)) len
  | 0x0C5 => checked (isV2 d && bLit l b && isCode 3 lit) (.vunp5 m d a lit) len
  | 0x0C6 => checked (bLit l b && isCode 127 lit) (.vcvtw m d a lit) len
  | 0x0C7 => checked (bLit l b && isCode 127 lit) (.vcvtn m d a lit) len
  | 0x0C8 => checked (bLit l b && isCode 127 lit) (.vcvtfi m d a lit) len
  | 0x0C9 => checked (bLit l b && isCode 127 lit) (.vcvtif m d a lit) len
  | 0x0E0 => checked (bShuffle l b lit) (.vshup m d a (srcOf l b lit)) len
  | 0x0E1 => checked (bShuffle l b lit) (.vshdn m d a (srcOf l b lit)) len
  | 0x0E2 => checked (bShuffle l b lit) (.vshxor m d a (srcOf l b lit)) len
  | 0x0E3 => checked (bV l b) (.vshidx m d a (srcOf l b lit)) len
  | 0x0E4 => checked (bV l b) (.vqswap m d a (srcOf l b lit)) len
  | 0x0E5 => checked (bLit l b && isCode 5 lit) (.vred m d a lit) len
  | 0x0E6 => checked (bLit l b && isCode 5 lit) (.vscan m d a lit) len
  | 0x0E7 => checked (isS d && bS l b) (.vreadl m d a (srcOf l b lit)) len
  | 0x0E8 => checked (isS a && bS l b) (.vwritel m d a (srcOf l b lit)) len
  | 0x0E9 => checked (isMaskS d && bLit l b && isCode 3 lit) (.vvote m d a lit) len
  | 0x0EA => checked (bNone l b) (.vmatch m d a) len
  | 0x0EB => checked (bNone l b) (.vmovx m d a) len
  | 0x0EC => checked (bNone l b) (.vmovxw m d a) len
  | 0x0F0 => checked (isK 0 15 d && isZero a && bNone l b) (.bar m d) len
  | 0x0F1 => checked (isK 0 15 d && isZero a && bNone l b) (.bara m d) len
  | 0x0F2 => checked (isK 0 15 d && isZero a && bNone l b) (.barw m d) len
  | 0x0F3 => checked (isZero d && isZero a && bNone l b) (.barc m) len
  | 0x0F4 => checked (isZero d && isZero a && bNone l b) (.barp m) len
  | 0x100 => checked (bS l b) (.ld8 m d a (srcOf l b lit)) len
  | 0x101 => checked (bS l b) (.ld8s m d a (srcOf l b lit)) len
  | 0x102 => checked (bS l b) (.ld16 m d a (srcOf l b lit)) len
  | 0x103 => checked (bS l b) (.ld16s m d a (srcOf l b lit)) len
  | 0x104 => checked (bS l b) (.ld32 m d a (srcOf l b lit)) len
  | 0x105 => checked (isV2 d && bS l b) (.ld64 m d a (srcOf l b lit)) len
  | 0x106 => checked (isV4 d && bS l b) (.ld128 m d a (srcOf l b lit)) len
  | 0x108 => checked (bS l b) (.st8 m d a (srcOf l b lit)) len
  | 0x109 => checked (bS l b) (.st16 m d a (srcOf l b lit)) len
  | 0x10A => checked (bS l b) (.st32 m d a (srcOf l b lit)) len
  | 0x10B => checked (isV2 d && bS l b) (.st64 m d a (srcOf l b lit)) len
  | 0x10C => checked (isV4 d && bS l b) (.st128 m d a (srcOf l b lit)) len
  | 0x110 => checked (isS d && isS a && bS l b) (.sld32 m d a (srcOf l b lit)) len
  | 0x111 => checked (isS2 d && isS a && bS l b) (.sld64 m d a (srcOf l b lit)) len
  | 0x112 => checked (isS d && isS a && bS l b) (.sst32 m d a (srcOf l b lit)) len
  | 0x113 => checked (isS2 d && isS a && bS l b) (.sst64 m d a (srcOf l b lit)) len
  | 0x114 => checked (isZero d && bNone l b) (.vspill m a) len
  | 0x115 => checked (isZero a && bNone l b) (.vfill m d) len
  | 0x116 => checked (bS l b) (.ldacq32 m d a (srcOf l b lit)) len
  | 0x117 => checked (bS l b) (.strel32 m d a (srcOf l b lit)) len
  | 0x120 => checked (bV l b) (.aadd m d a (srcOf l b lit)) len
  | 0x121 => checked (bV l b) (.aand m d a (srcOf l b lit)) len
  | 0x122 => checked (bV l b) (.aor m d a (srcOf l b lit)) len
  | 0x123 => checked (bV l b) (.axor m d a (srcOf l b lit)) len
  | 0x124 => checked (bV l b) (.amin m d a (srcOf l b lit)) len
  | 0x125 => checked (bV l b) (.amax m d a (srcOf l b lit)) len
  | 0x126 => checked (bV l b) (.aminn m d a (srcOf l b lit)) len
  | 0x127 => checked (bV l b) (.amaxn m d a (srcOf l b lit)) len
  | 0x128 => checked (bV l b) (.aexch m d a (srcOf l b lit)) len
  | 0x129 => checked (bV l b) (.acas m d a (srcOf l b lit)) len
  | 0x12A => checked (bV l b) (.afadd m d a (srcOf l b lit)) len
  | 0x12B => checked (bV l b) (.afmin m d a (srcOf l b lit)) len
  | 0x12C => checked (bV l b) (.afmax m d a (srcOf l b lit)) len
  | 0x130 => checked (isZero d && bV l b) (.redadd m a (srcOf l b lit)) len
  | 0x131 => checked (isZero d && bV l b) (.redand m a (srcOf l b lit)) len
  | 0x132 => checked (isZero d && bV l b) (.redor m a (srcOf l b lit)) len
  | 0x133 => checked (isZero d && bV l b) (.redxor m a (srcOf l b lit)) len
  | 0x134 => checked (isZero d && bV l b) (.redmin m a (srcOf l b lit)) len
  | 0x135 => checked (isZero d && bV l b) (.redmax m a (srcOf l b lit)) len
  | 0x136 => checked (isZero d && bV l b) (.redfadd m a (srcOf l b lit)) len
  | 0x13C => checked (isZero d && isZero a && bNone l b) (.fence m) len
  | 0x13D => checked (isZero d && isZero a && bS l b) (.publish m (srcOf l b lit)) len
  | 0x140 => checked (isK 0 3 d && isS2 a && bNone l b) (.ecw m d a) len
  | 0x141 => checked (isK 0 2 d && isZero a && bNone l b) (.ego m d) len
  | 0x142 => checked (isS d && isZero a && bNone l b) (.bclose m d) len
  | 0x143 => checked (isZero d && isZero a && bS l b) (.waitb m (srcOf l b lit)) len
  | 0x144 => checked (isS d && isZero a && bS l b) (.bpoll m d (srcOf l b lit)) len
  | 0x145 => checked (isK 0 63 d && isS a && bNone l b) (.mloadb m d a) len
  | 0x147 => checked (isK 0 15 d && isS a && bS l b) (.mdrain m d a (srcOf l b lit)) len
  | 0x148 => checked (isK 0 15 d && isZero a && bNone l b) (.mzero m d) len
  | 0x160 => checked (isZero d && isS4 a && bNone l b) (.spinit m a) len
  | 0x161 => checked (bV l b) (.unite m d a (srcOf l b lit)) len
  | 0x162 => checked (bNone l b) (.find m d a) len
  | 0x163 => checked (bNone l b) (.csize m d a) len
  | 0x164 => checked (isZero d && isS4 a && bNone l b) (.relab m a) len
  | 0x165 => checked (isS d && isZero a && bNone l b) (.snap m d) len
  | 0x166 => checked (isZero d && isZero a && bS l b) (.undo m (srcOf l b lit)) len
  | 0x180 => checked (isZero d && isZero a && bS l b) (.trap m (srcOf l b lit)) len
  | 0x181 => checked (isK 0 1 d && isS a && bNone l b) (.resume m d a) len
  | 0x182 => checked (isZero d && isZero a && bNone l b) (.loupe m) len
  | 0x183 => checked (isZero a && bNone l b) (.prgn m d) len
  | 0x184 => checked (isZero d && isZero a && bNone l b) (.prgx m) len
  | 0x185 => checked (isS d && isK 0 18 a && bNone l b) (.sget m d a) len
  | 0x186 => checked (isK 64 65 d && isZero a && bS l b) (.sset m d (srcOf l b lit)) len
  | 0x187 => checked (isZero d && isZero a && bNone l b) (.dbgbrk m) len
  | 0x188 => checked (isS4 d && isZero a && bS l b) (.selftest m d (srcOf l b lit)) len
  | 0x189 => checked (isZero d && isZero a && bNone l b) (.framend m) len
  | _ => .illegalOpcode len

/-- Whether OP is assigned to a Format R opcode (03 R47). -/
def assignedR (op : Nat) : Bool :=
  match decodeR op false 0 0 0 false 0 0 with
  | .illegalOpcode _ => false
  | _ => true

/-- MMA (03 R43): bit 0 zero and ADESC even. -/
def decodeT (w : Word) : Decoded :=
  let adesc : BitVec 6 := w.extractLsb' 12 6
  checked (!fieldL w && decide (adesc.toNat % 2 = 0))
    (.mma (fieldS w) (w.extractLsb' 18 4) adesc (w.extractLsb' 9 3) (w.extractLsb' 7 2) (w.extractLsb' 1 6)) 4

/-- The instruction of a word and the word after it (03 R48, R49). -/
def decodeWord (w lit : Word) : Decoded :=
  if (fieldOp w).toNat = 0x146 then decodeT w
  else decodeR (fieldOp w).toNat (fieldS w) (fieldD w) (fieldA w) (fieldB w) (fieldL w) lit
    (if fieldL w then 8 else 4)

/-- A little-endian 32-bit word of four bytes (03 R40). -/
def wordOf (b0 b1 b2 b3 : Byte) : Word := b3 ++ b2 ++ b1 ++ b0

/-- The bytes of a code image from a PC on, decoded (03 R48, R49, R52). An unassigned OP has no literal;
its successor is PC + 4. An assigned word with L = 1 that breaks R49 and whose literal lies beyond the image
is ILLEGAL_OPCODE: R51 does not order R52 against R49 (DESIGN CHOICE, notes/assumptions/47.md). -/
def decode : List Byte → Decoded
  | b0 :: b1 :: b2 :: b3 :: rest =>
    let w := wordOf b0 b1 b2 b3
    if (fieldOp w).toNat = 0x146 then decodeT w
    else if !assignedR (fieldOp w).toNat then .illegalOpcode 4
    else if fieldL w then
      match rest with
      | l0 :: l1 :: l2 :: l3 :: _ => decodeWord w (wordOf l0 l1 l2 l3)
      | _ => .illegalOpcode 8
    else decodeWord w 0
  | _ => .illegalOpcode 4

/-! ### The encoder -/

/-- A Format R word: S, OP, D, A, B, L (03 R41). -/
def wordR (m : Bool) (op : BitVec 9) (d a b : Field) (l : Bool) : Word :=
  BitVec.ofBool m ++ op ++ d ++ a ++ b ++ BitVec.ofBool l

/-- A Format R instruction whose B operand is a register or a literal. -/
def encB (m : Bool) (op : BitVec 9) (d a : Field) : Src → List Word
  | .reg r => [wordR m op d a r false]
  | .lit w => [wordR m op d a 0 true, w]

/-- A Format R instruction without a B operand. -/
def encN (m : Bool) (op : BitVec 9) (d a : Field) : List Word := [wordR m op d a 0 false]

/-- A Format R instruction with a literal-only B operand. -/
def encL (m : Bool) (op : BitVec 9) (d a : Field) (lit : Word) : List Word := [wordR m op d a 0 true, lit]

/-- The words of an instruction; none for an event row. -/
def encode : Instr → List Word
  | .sadd m d a b => encB m 0x001 d a b
  | .ssub m d a b => encB m 0x002 d a b
  | .smul m d a b => encB m 0x003 d a b
  | .smulh m d a b => encB m 0x004 d a b
  | .smulhn m d a b => encB m 0x005 d a b
  | .sdiv m d a b => encB m 0x006 d a b
  | .sdivn m d a b => encB m 0x007 d a b
  | .srem m d a b => encB m 0x008 d a b
  | .sremn m d a b => encB m 0x009 d a b
  | .sand m d a b => encB m 0x00A d a b
  | .sor m d a b => encB m 0x00B d a b
  | .sxor m d a b => encB m 0x00C d a b
  | .sandn m d a b => encB m 0x00D d a b
  | .sshl m d a b => encB m 0x00E d a b
  | .sshr m d a b => encB m 0x00F d a b
  | .ssra m d a b => encB m 0x010 d a b
  | .smin m d a b => encB m 0x011 d a b
  | .smax m d a b => encB m 0x012 d a b
  | .sminn m d a b => encB m 0x013 d a b
  | .smaxn m d a b => encB m 0x014 d a b
  | .spopc m d a => encN m 0x015 d a
  | .sclz m d a => encN m 0x016 d a
  | .sbrev m d a => encN m 0x017 d a
  | .sbfx m d a b => encB m 0x018 d a b
  | .sbfi m d a b => encB m 0x019 d a b
  | .sceq m d a b => encB m 0x01A d a b
  | .scne m d a b => encB m 0x01B d a b
  | .sclt m d a b => encB m 0x01C d a b
  | .scle m d a b => encB m 0x01D d a b
  | .scltn m d a b => encB m 0x01E d a b
  | .sclen m d a b => encB m 0x01F d a b
  | .nop m => encN m 0x020 0 0
  | .bra m lit => encL m 0x021 0 0 lit
  | .bz m a lit => encL m 0x022 0 a lit
  | .bnz m a lit => encL m 0x023 0 a lit
  | .brd m d a lit => encL m 0x024 d a lit
  | .join m a => encN m 0x025 0 a
  | .call m d lit => encL m 0x026 d 0 lit
  | .ret m a => encN m 0x027 0 a
  | .brx m a => encN m 0x028 0 a
  | .loop m d lit => encL m 0x029 d 0 lit
  | .exit m => encN m 0x02A 0 0
  | .setmode m b => encB m 0x02B 0 0 b
  | .getmode m d => encN m 0x02C d 0
  | .setix m b => encB m 0x02D 0 0 b
  | .waitf m d a lit => encL m 0x02E d a lit
  | .yield m => encN m 0x02F 0 0
  | .smov m d b => encB m 0x030 d 0 b
  | .ssel m d a b => encB m 0x031 d a b
  | .sffs m d a => encN m 0x032 d a
  | .vadd m d a b => encB m 0x040 d a b
  | .vsub m d a b => encB m 0x041 d a b
  | .vmul m d a b => encB m 0x042 d a b
  | .vmulh m d a b => encB m 0x043 d a b
  | .vmulhn m d a b => encB m 0x044 d a b
  | .vmad m d a b => encB m 0x045 d a b
  | .vdiv m d a b => encB m 0x046 d a b
  | .vdivn m d a b => encB m 0x047 d a b
  | .vrem m d a b => encB m 0x048 d a b
  | .vremn m d a b => encB m 0x049 d a b
  | .vand m d a b => encB m 0x04A d a b
  | .vor m d a b => encB m 0x04B d a b
  | .vxor m d a b => encB m 0x04C d a b
  | .vandn m d a b => encB m 0x04D d a b
  | .vshl m d a b => encB m 0x04E d a b
  | .vshr m d a b => encB m 0x04F d a b
  | .vsra m d a b => encB m 0x050 d a b
  | .vmin m d a b => encB m 0x051 d a b
  | .vmax m d a b => encB m 0x052 d a b
  | .vminn m d a b => encB m 0x053 d a b
  | .vmaxn m d a b => encB m 0x054 d a b
  | .vabs m d a => encN m 0x055 d a
  | .vneg m d a => encN m 0x056 d a
  | .vpopc m d a => encN m 0x057 d a
  | .vclz m d a => encN m 0x058 d a
  | .vbrev m d a => encN m 0x059 d a
  | .vbfx m d a b => encB m 0x05A d a b
  | .vbfi m d a b => encB m 0x05B d a b
  | .vmov m d b => encB m 0x060 d 0 b
  | .vsplat m d a => encN m 0x061 d a
  | .vget m d a => encN m 0x062 d a
  | .vceq m d a b => encB m 0x063 d a b
  | .vcne m d a b => encB m 0x064 d a b
  | .vclt m d a b => encB m 0x065 d a b
  | .vcle m d a b => encB m 0x066 d a b
  | .vgetst m d => encN m 0x067 d 0
  | .vclrst m b => encB m 0x068 0 0 b
  | .vfadd m d a b => encB m 0x080 d a b
  | .vfsub m d a b => encB m 0x081 d a b
  | .vfmul m d a b => encB m 0x082 d a b
  | .vfma m d a b => encB m 0x083 d a b
  | .vfms m d a b => encB m 0x084 d a b
  | .vfnma m d a b => encB m 0x085 d a b
  | .vfmin m d a b => encB m 0x086 d a b
  | .vfmax m d a b => encB m 0x087 d a b
  | .vfabs m d a => encN m 0x088 d a
  | .vfneg m d a => encN m 0x089 d a
  | .vfcpsgn m d a b => encB m 0x08A d a b
  | .vfceq m d a b => encB m 0x08B d a b
  | .vfclt m d a b => encB m 0x08C d a b
  | .vfcle m d a b => encB m 0x08D d a b
  | .vfcun m d a b => encB m 0x08E d a b
  | .vfclass m d a => encN m 0x08F d a
  | .vfdiv m d a b => encB m 0x090 d a b
  | .vfsqrt m d a => encN m 0x091 d a
  | .vfrint m d a => encN m 0x092 d a
  | .vfrcp m d a => encN m 0x0A0 d a
  | .vfrsq m d a => encN m 0x0A1 d a
  | .vfexp2 m d a => encN m 0x0A2 d a
  | .vflog2 m d a => encN m 0x0A3 d a
  | .vfsinpi m d a => encN m 0x0A4 d a
  | .vfcospi m d a => encN m 0x0A5 d a
  | .vftanh m d a => encN m 0x0A6 d a
  | .vdot4 m d a b => encB m 0x0C0 d a b
  | .vdot4m m d a b => encB m 0x0C1 d a b
  | .vdot8 m d a b => encB m 0x0C2 d a b
  | .vfdot4 m d a b => encB m 0x0C3 d a b
  | .vfdot8 m d a b => encB m 0x0C4 d a b
  | .vunp5 m d a lit => encL m 0x0C5 d a lit
  | .vcvtw m d a lit => encL m 0x0C6 d a lit
  | .vcvtn m d a lit => encL m 0x0C7 d a lit
  | .vcvtfi m d a lit => encL m 0x0C8 d a lit
  | .vcvtif m d a lit => encL m 0x0C9 d a lit
  | .vshup m d a b => encB m 0x0E0 d a b
  | .vshdn m d a b => encB m 0x0E1 d a b
  | .vshxor m d a b => encB m 0x0E2 d a b
  | .vshidx m d a b => encB m 0x0E3 d a b
  | .vqswap m d a b => encB m 0x0E4 d a b
  | .vred m d a lit => encL m 0x0E5 d a lit
  | .vscan m d a lit => encL m 0x0E6 d a lit
  | .vreadl m d a b => encB m 0x0E7 d a b
  | .vwritel m d a b => encB m 0x0E8 d a b
  | .vvote m d a lit => encL m 0x0E9 d a lit
  | .vmatch m d a => encN m 0x0EA d a
  | .vmovx m d a => encN m 0x0EB d a
  | .vmovxw m d a => encN m 0x0EC d a
  | .bar m d => encN m 0x0F0 d 0
  | .bara m d => encN m 0x0F1 d 0
  | .barw m d => encN m 0x0F2 d 0
  | .barc m => encN m 0x0F3 0 0
  | .barp m => encN m 0x0F4 0 0
  | .ld8 m d a b => encB m 0x100 d a b
  | .ld8s m d a b => encB m 0x101 d a b
  | .ld16 m d a b => encB m 0x102 d a b
  | .ld16s m d a b => encB m 0x103 d a b
  | .ld32 m d a b => encB m 0x104 d a b
  | .ld64 m d a b => encB m 0x105 d a b
  | .ld128 m d a b => encB m 0x106 d a b
  | .st8 m d a b => encB m 0x108 d a b
  | .st16 m d a b => encB m 0x109 d a b
  | .st32 m d a b => encB m 0x10A d a b
  | .st64 m d a b => encB m 0x10B d a b
  | .st128 m d a b => encB m 0x10C d a b
  | .sld32 m d a b => encB m 0x110 d a b
  | .sld64 m d a b => encB m 0x111 d a b
  | .sst32 m d a b => encB m 0x112 d a b
  | .sst64 m d a b => encB m 0x113 d a b
  | .vspill m a => encN m 0x114 0 a
  | .vfill m d => encN m 0x115 d 0
  | .ldacq32 m d a b => encB m 0x116 d a b
  | .strel32 m d a b => encB m 0x117 d a b
  | .aadd m d a b => encB m 0x120 d a b
  | .aand m d a b => encB m 0x121 d a b
  | .aor m d a b => encB m 0x122 d a b
  | .axor m d a b => encB m 0x123 d a b
  | .amin m d a b => encB m 0x124 d a b
  | .amax m d a b => encB m 0x125 d a b
  | .aminn m d a b => encB m 0x126 d a b
  | .amaxn m d a b => encB m 0x127 d a b
  | .aexch m d a b => encB m 0x128 d a b
  | .acas m d a b => encB m 0x129 d a b
  | .afadd m d a b => encB m 0x12A d a b
  | .afmin m d a b => encB m 0x12B d a b
  | .afmax m d a b => encB m 0x12C d a b
  | .redadd m a b => encB m 0x130 0 a b
  | .redand m a b => encB m 0x131 0 a b
  | .redor m a b => encB m 0x132 0 a b
  | .redxor m a b => encB m 0x133 0 a b
  | .redmin m a b => encB m 0x134 0 a b
  | .redmax m a b => encB m 0x135 0 a b
  | .redfadd m a b => encB m 0x136 0 a b
  | .fence m => encN m 0x13C 0 0
  | .publish m b => encB m 0x13D 0 0 b
  | .ecw m d a => encN m 0x140 d a
  | .ego m d => encN m 0x141 d 0
  | .bclose m d => encN m 0x142 d 0
  | .waitb m b => encB m 0x143 0 0 b
  | .bpoll m d b => encB m 0x144 d 0 b
  | .mloadb m d a => encN m 0x145 d a
  | .mma m acc adesc fslot shape fvec =>
    [BitVec.ofBool m ++ (0x146 : BitVec 9) ++ acc ++ adesc ++ fslot ++ shape ++ fvec ++ (0 : BitVec 1)]
  | .mdrain m d a b => encB m 0x147 d a b
  | .mzero m d => encN m 0x148 d 0
  | .spinit m a => encN m 0x160 0 a
  | .unite m d a b => encB m 0x161 d a b
  | .find m d a => encN m 0x162 d a
  | .csize m d a => encN m 0x163 d a
  | .relab m a => encN m 0x164 0 a
  | .snap m d => encN m 0x165 d 0
  | .undo m b => encB m 0x166 0 0 b
  | .trap m b => encB m 0x180 0 0 b
  | .resume m d a => encN m 0x181 d a
  | .loupe m => encN m 0x182 0 0
  | .prgn m d => encN m 0x183 d 0
  | .prgx m => encN m 0x184 0 0
  | .sget m d a => encN m 0x185 d a
  | .sset m d b => encB m 0x186 d 0 b
  | .dbgbrk m => encN m 0x187 0 0
  | .selftest m d b => encB m 0x188 d 0 b
  | .framend m => encN m 0x189 0 0
  | .writeLanding _ _ _ => []
  | .pathStarvation _ _ => []
  | .fenceComplete _ _ => []
  | .waitfWake _ _ => []
  | .waitfTimeout _ _ => []
  | .yieldExpiry _ _ => []
  | .publishComplete _ _ => []
  | .frameCommit _ _ => []
  | .batchCompletion _ => []
  | .copyEngineCompletion _ => []
  | .mainMemoryAtomicCompletion _ => []
  | .stationaryLoadCompletion _ => []
  | .mrtGrant _ _ => []
  | .passCompletion _ _ _ => []
  | .filterEntryRead _ => []
  | .filterSliceArrival _ _ _ => []
  | .stripOperationCompletion _ => []
  | .bankPeriodicCheck _ _ _ => []
  | .spliceApply _ => []
  | .spinitInitCompletion _ => []
  | .relabCompletion _ => []
  | .collectiveStepCompletion _ => []
  | .segmentArrival _ => []
  | .segmentDiscard _ => []
  | .collectiveTimeout _ => []
  | .flitArrival _ _ => []
  | .diePortMessage _ => []
  | .transferComplete _ => []
  | .stallWatchdog _ => []
  | .predicateStart _ => []
  | .predicateReturn _ _ _ => []
  | .predicateOverrun _ _ => []
  | .logDoorbell _ _ => []
  | .preemption _ _ _ => []
  | .drainLimitExpiry _ _ => []
  | .saveComplete _ _ => []
  | .restore _ _ _ => []
  | .negativeComplete _ => []
  | .fatalDieError _ _ => []
  | .dieRecoveryComplete _ => []
  | .worldLatch _ _ => []
  | .sessionEstablish _ => []
  | .heartbeat _ _ => []
  | .heartbeatDeadline _ => []
  | .grainWindowBoundary => []
  | .energyBudgetUpdate _ _ => []
  | .priorityAging _ _ => []
  | .launchQueueExit => []
  | .dependenceResolution _ => []
  | .launchDispatch _ => []
  | .blockPlacement _ _ _ => []
  | .blockRelease _ _ => []
  | .doorbell _ _ _ => []
  | .queueDescriptorWrite _ _ _ => []
  | .interfaceGrantWrite _ _ => []
  | .islandRegisterWrite _ _ _ => []
  | .marginGo _ _ => []
  | .marginDone _ _ => []
  | .registerWrite _ _ _ => []
  | .copy _ _ => []
  | .signal _ _ => []
  | .wait _ _ => []
  | .waitSatisfied _ _ => []
  | .waitCommandTimeout _ _ => []
  | .puback _ _ => []
  | .summary _ _ _ => []
  | .inval _ _ => []
  | .invalidationComplete _ _ => []
  | .window _ _ => []
  | .group _ _ => []
  | .counters _ _ => []
  | .wpset _ _ => []
  | .progset _ _ => []
  | .drload _ _ => []
  | .ctlset _ _ => []
  | .transfer _ _ => []
  | .release _ _ => []
  | .pause _ _ => []
  | .debugResume _ _ => []
  | .armbrk _ _ => []
  | .csread _ _ => []
  | .fsread _ _ => []
  | .fsname _ _ => []
  | .commandCompletion _ _ => []
  | .selftestDone _ _ _ => []
  | .measurements _ _ => []
  | .firmwareUpdate _ => []
  | .powerOn _ => []
  | .packageReset _ => []
  | .modulePowerRemoval => []
  | .predicateException _ _ => []
  | .virtualInterfaceEnable _ _ => []
  | .publicationWindowRead _ _ _ => []

/-- The four bytes of a word, lowest first (03 R40). -/
def bytesOf (w : Word) : List Byte :=
  [w.extractLsb' 0 8, w.extractLsb' 8 8, w.extractLsb' 16 8, w.extractLsb' 24 8]

/-- The bytes of a list of words. -/
def codeBytes : List Word → List Byte
  | [] => []
  | w :: r => bytesOf w ++ codeBytes r

/-- The instruction that the decoder reads from an instruction's bits numbered as spec/opcode_table.json
numbers them: the first word in bits [31:0], the literal word in bits [63:32]. -/
def decodeTableWord (nbits w : Nat) : Option Instr :=
  match decode (codeBytes [BitVec.ofNat 32 (w % 2 ^ nbits), BitVec.ofNat 32 (w % 2 ^ nbits / 2 ^ 32)]) with
  | .instr i _ => some i
  | _ => none

end Sys2Proof
end

