-- ==== Sys2Proof/Machine/State.lean ====
section
/-! DEFINITION. The state of the Thoaz X40 as plain data: paths, warps, blocks, launches, engines, dies,
control die, host side, main memory. INVENTORY.md lists every field with the rule that names it. -/

namespace Sys2Proof.Machine

/-! ### Sparse memories and register files -/

/-- Bytes by address: addresses strictly rising, no entry equal to what an unlisted byte reads as (0). -/
abbrev Memory := List Host.Cell

/-- 32-bit words by index in the same canonical form: a register file (04 R58). -/
abbrev Regs := List (Nat × Word)

/-- Records by key, keys strictly rising. -/
abbrev Table (α : Type) := List (Nat × α)

/-! ### Why the machine stops -/

/-- Why a step of the MODEL stops. None of these is a fault of the spec: those are taken (19 R282). -/
inductive Fault where
  /-- An instruction row was executed while `issuer` names no live path of a resident warp. Raised by
  every instruction row. Safe: such a step happens in no run. -/
  | noIssuingPath
  /-- An event row was executed in a state in which that event cannot happen. Raised by event rows,
  named by the row. Safe: the event does not happen in that state. -/
  | notEnabled (event : String)
  deriving DecidableEq, Repr

/-- Why the model gives an instruction no meaning. -/
inductive Refusal where
  /-- The instruction has no meaning yet; only exec's arms raise it. Safe. -/
  | notModelled (mnemonic : String)
  deriving DecidableEq, Repr

/-! ### The faults of the spec -/

/-- The fault kinds of 19 R282. -/
inductive FaultKind where
  | illegalOpcode | reservedField | illegalMode | regBounds | hazard | divergeDepth
  | misaligned | outOfRange | rangeLocked | spillOverflow | spillUnderflow
  | memberMismatch | joinCycle | batchAhead | waitTimeout | barrierBroken
  | translation | permission | sealTag | worldRefused | badCommand | sparseMeta
  | redundancyMismatch | filterInvalid | slotInvalid
  | spliceLogFull | spliceIndex
  | tripodScope | divide | invalidOp | softError | trap
  deriving DecidableEq, Repr

/-- One lane entry of a fault record (19 R286). -/
structure LaneEntry where
  lane : Nat
  kind : FaultKind
  detail : Nat
  addr : Word
  deriving DecidableEq, Repr

/-- The three classes of 19 R283. -/
inductive FaultClass where
  | lane | path | batch
  deriving DecidableEq, Repr

/-! ### Paths and warps -/

/-- What an outstanding write goes to (04 R64): a lane of a vector register, a scalar register, or a
lane's status word, where bits are set or cleared. -/
inductive WTarget where
  | v (reg lane : Nat)
  | s (reg : Nat)
  | stSet (lane : Nat)
  | stClr (lane : Nat)
  deriving DecidableEq, Repr

/-- An outstanding write (04 R64), the PC of its writer (20 R309), and which of the path's instructions with writes
outstanding that is. -/
structure PendingWrite where
  target : WTarget
  value : Word
  pc : Word
  no : Nat
  deriving DecidableEq, Repr

/-- A write that no park has covered yet, as a loupe core tracks it (20 R308): the register in the DEST
encoding of 20 R307 and the writer's PC. -/
structure Uncovered where
  dest : Nat
  pc : Word
  deriving DecidableEq, Repr

/-- An entry of a pending stack (07 R136); carry as in `Path`. -/
structure PendEntry where
  pc : Word
  lanes : LaneMask
  mode : Word
  ix : Word
  carry : Option (LaneMask × LaneMask)
  deriving DecidableEq, Repr

/-- A barrier unit: a block barrier by number, the cluster barrier, the package barrier (08 R157, R158). -/
inductive BarUnit where
  | block (id : Nat)
  | cluster
  | package
  deriving DecidableEq, Repr

/-- Why a path is not eligible (07 R134). A path parked at a wait whose instruction issues again has its
PC at that instruction (11 R209, 16 R271). -/
inductive Park where
  | none
  | marker                             -- 04 R65
  | fence                              -- 11 R204
  | waitf (x : Word) (seen : Nat)      -- 11 R205: the local address, and how many writes of its word it has seen
  | yield (till : DWord)               -- 21 R318; PC after the YIELD
  | barrier (u : BarUnit) (gen : Nat)  -- 08 R157: waiting for generation gen
  | arrive (u : BarUnit)               -- 08 R157: an earlier arrival's generation is open
  | batch (n : Nat)                    -- 13 R216: WAITB for n batches (BPOLL's wait under tripod too, 16 R262)
  | closeRoom                          -- 13 R215: BCLOSE stalls
  | room                               -- 13 R214: 64 pending commands
  | rlt (op : Nat)                     -- 10 R183: a full RLT; the operation has joined its batch (16 R258)
  | mrt (op : Nat)                     -- 14 R231: a full MRT
  | splice (req : Nat)                 -- 16 R269: UNDO, until its operation is applied
  | drain                              -- 04 R69: writes must land first that a splice operation still owes
  | publish (window : Nat)             -- 11 R208
  | selftest (dest : Nat) (opB : Word) (verdict : Nat) -- 21 R326; verdict 2 BUSY, 3 ABSENT, else it runs
  | loupeSlot                          -- 20 R294
  deriving DecidableEq, Repr

/-- A fault of an instruction whose path had already gone on, until it can be delivered (16 R267): its PC, class, kind,
lane entries and faulting lanes. -/
structure LateFault where
  pc : Word
  cls : FaultClass
  kind : FaultKind
  entries : List LaneEntry
  mask : LaneMask
  deriving DecidableEq, Repr

/-- An instruction that a watchpoint event has held (20 R303): the free values it had, and the addresses of the lanes that
failed R192's check for a locked range. It issues again with both (23 R335). -/
structure Drawn where
  free : Nat
  locked : List Word
  deriving DecidableEq, Repr

/-- A path (07 R136, 04 R58). -/
structure Path where
  pc : Word
  mode : Word
  ix : Word
  lanes : LaneMask
  writes : List PendingWrite
  /-- Splice operations on their way whose results are outstanding too (16 R267, R269). -/
  pending : List Nat
  /-- Faults of its applied splice operations that wait for the warp's other ones to be applied (04 R69). -/
  late : List LateFault
  uncovered : List Uncovered
  stack : List PendEntry
  park : Park
  /-- The lanes in which a RETRY re-executes (19 R290); none outside a RETRY. -/
  only : Option LaneMask
  /-- Member set and receiving set of a warp-wide operation whose group has completed (07 R141). -/
  carry : Option (LaneMask × LaneMask)
  /-- WAITF's saved start clock (11 R205). -/
  waitStart : Option DWord
  /-- The address and value a parked WAITF waits with; a reissue reads them again (11 R205). -/
  waitOn : Option (Word × Word)
  /-- A watchpoint event has been served for the instruction about to issue: it proceeds (20 R303). -/
  passed : Bool
  /-- A watchpoint event has been formed for it: its retire record has WATCH (23 R335). -/
  drawn : Option Drawn
  /-- The frame end that this instruction makes before it acts has been made (10 R185). -/
  frameServed : Bool
  /-- Where the path goes on once the instruction that a RETRY has put it back to completes (19 R290). -/
  back : Option Word
  starve : Nat
  starved : Bool
  deriving DecidableEq, Repr

/-- How a join group is keyed (07 R138, R141; 08 R155). -/
inductive GroupKey where
  | join (pc : Word) (m : LaneMask)
  | barrier (pc : Word)
  | wide (pc : Word) (u : LaneMask)
  deriving DecidableEq, Repr

/-- The lanes that one path brought to a group, with its Active set, MODE and ix; seq orders arrivals
within the warp (07 R139). -/
structure Arrival where
  lanes : LaneMask
  active : LaneMask
  mode : Word
  ix : Word
  seq : Nat
  deriving DecidableEq, Repr

/-- A join group; held says that it has completed and waits for a place (07 R138); left holds the lanes that a
JOIN_CYCLE has taken out of it and that it still wants (07 R139). -/
structure JoinGroup where
  key : GroupKey
  arrivals : List Arrival
  held : Option Bool
  left : LaneMask
  deriving DecidableEq, Repr

/-- A profile counter set (20 R310). -/
structure ProfSet where
  id : Nat
  startClk : DWord
  retired : Nat
  stalls : List Nat
  deriving DecidableEq, Repr

/-- A bound forest (15 R246). -/
structure Forest where
  base : Word
  bySize : Bool
  count : Nat
  logBase : Word
  logCap : Nat
  deriving DecidableEq, Repr

/-- A batch error that no WAITB has reported (13 R216, R217). rows holds, for FILTER_INVALID and
REDUNDANCY_MISMATCH, each row with the ADDR of 19 R286. atNext: the warp's next WAITB reports it, whatever batch it
names (14 R245). -/
structure BatchError where
  closeNo : Nat
  op : Nat
  kind : FaultKind
  addr : Word
  pc : Word
  mask : LaneMask
  rows : List (Nat × Word)
  atNext : Bool
  deriving DecidableEq, Repr

/-- The divergence state a continuation freezes (19 R288) and what RESUME needs of the fault. -/
structure Frozen where
  p0 : Option Path
  p1 : Option Path
  groups : List JoinGroup
  slot : Bool
  fpc : Word
  npc : Word
  fmask : LaneMask
  pmask : LaneMask
  deriving DecidableEq, Repr

/-- Where bytes of local memory lie: the BSM of a block, or a span's scratchpad (09 R161). -/
inductive Place where
  | bsm (launch block : Nat)
  | spad (launch span : Nat)
  deriving DecidableEq, Repr

/-- The integer and floating-point reductions that a RED buffers (11 R202). -/
inductive RedOp where
  | add | and | or | xor | min | max | fadd
  deriving DecidableEq, Repr

/-- A buffered write of a tripod frame (10 R185, R187). -/
inductive BufEntry where
  | store (place : Place) (addr : Nat) (bytes : List Byte)
  | red (place : Place) (addr : Nat) (op : RedOp) (etype : Nat) (b : Word)
  deriving DecidableEq, Repr

/-- A tripod warp's frame (10 R185, R186). -/
structure Frame where
  no : Nat
  next : Option Nat   -- the next frame's number, when a barrier generation has set it (10 R186)
  turn : Bool         -- the slot that issues while two paths are live (10 R185)
  count : Nat
  used : Nat
  ended : Bool
  buf : List BufEntry
  splice : Option Nat
  applyOps : List Nat
  deriving DecidableEq, Repr

/-- Where a warp runs (20 R294, R295). -/
inductive WarpPlace where
  | home
  | leaving (lcore slot : Nat)
  | loupe (lcore slot : Nat)
  | returning
  | wanting (ticket : Nat)   -- waits for a slot; the lowest ticket of the die is next
  deriving DecidableEq, Repr

/-- Why a warp is paused on a loupe core (20 R300, 27 R380): by PAUSE, by a DBGBRK (21 R320), at a fault, at a
watchpoint. -/
inductive Pause where
  | none
  | debugger
  | breakpoint
  | fault (fc : FaultClass) (slot : Bool) (pc npc : Word) (fmask : LaneMask)
  | watch (slot : Bool)
  | engWatch
  deriving DecidableEq, Repr

/-- A warp's loupe state: transfer number, latched PACE, retired count at the pacing base, loupe clock of its last
record (20 R300, R307), its scheduler on the loupe core (20 R299). brk: a DBGBRK has transferred it and its pause is not yet recorded: Active, PC and
PATH of the DBGBRK (21 R320). -/
structure LoupeState where
  place : WarpPlace
  pause : Pause
  brk : Option (LaneMask × Word × Bool)
  tseq : Nat
  pace : Nat
  base : Nat
  lastClk : Option DWord
  sched : Nat
  deriving DecidableEq, Repr

/-- The four staging words (13 R213). -/
structure Staging where
  w0 : DWord
  w1 : DWord
  w2 : DWord
  w3 : DWord
  deriving DecidableEq, Repr

/-- A warp (04 R58). -/
structure Warp where
  ref : WarpRef
  p0 : Option Path
  p1 : Option Path
  groups : List JoinGroup
  arrivals : Nat
  exited : LaneMask
  sregs : Regs
  vregs : Regs      -- register n, lane l at 32 n + l
  status : Regs
  spill : List (List Word)
  staging : Staging
  closes : Nat
  doneCloses : Nat
  errors : List BatchError
  forest : Option Forest
  prof : List ProfSet
  profOver : Nat
  frozen : Option Frozen
  splitReg : Nat
  inject : Option (Nat × Nat)
  soft : List (Nat × Nat)        -- what holds an uncorrectable error: v-register n and lane, or 256 + n and 0 for s-register n (19 R283)
  spillSoft : List (Nat × Nat)   -- lanes of spill slots with one: depth, lane
  sched : Nat
  startClk : DWord
  retired : Nat
  idle : Nat        -- device clocks since it last retired (20 R294)
  loupe : LoupeState
  frame : Frame
  ended : Bool
  deriving DecidableEq, Repr

/-! ### Blocks, spans, launches -/

/-- A barrier (08 R157): its generation, the warps with the arrived flag set, each warp's recorded
generation. -/
structure Barrier where
  gen : Nat
  arrived : List WarpRef
  recorded : List (WarpRef × Nat)
  deriving DecidableEq, Repr

/-- What a layer of the tripod scratchpad holds for a location (10 R187): a stored byte, or a pending
reduction of a word with its accumulated operand and element type. -/
inductive LayerCell where
  | byte (addr : Nat) (b : Byte)
  | red (addr : Nat) (op : RedOp) (etype : Nat) (b : Word)
  deriving DecidableEq, Repr

/-- What pre-emption is doing with a block (19 R291, R292): flushing waits for its engine operations (16 R271). -/
inductive PreState where
  | running
  | draining (till : DWord)
  | saving
  | flushing
  deriving DecidableEq, Repr

/-- A resident block. -/
structure Block where
  launch : Nat
  id : Nat
  die : Nat
  site : Nat
  core : Nat
  bsm : Memory
  barriers : Table Barrier
  ext : Bool
  stopped : Bool
  released : Bool
  pre : PreState
  overlay : List LayerCell
  frameMax : Nat
  stripBase : Nat
  soft : List Nat                -- BSM words with an uncorrectable error, by address / 4 (19 R283)
  woken : List (WarpRef × Bool × Nat)   -- how often a word of its BSM was written that a path's WAITF waits for (11 R205)
  deriving DecidableEq, Repr

/-- The blocks of a launch that one hardware cluster holds (07 R123): cluster barrier and cluster overlay. -/
structure LaunchCluster where
  launch : Nat
  num : Nat
  die : Nat
  site : Nat
  barc : Barrier
  overlay : List LayerCell
  deriving DecidableEq, Repr

/-- A span and its scratchpad allocation (07 R124). -/
structure Span where
  launch : Nat
  num : Nat
  die : Nat
  spad : Memory
  broken : List Nat   -- records and logs of bound forests that plain writes have touched, by offset (15 R248)
  woken : List (WarpRef × Bool × Nat)   -- as in `Block`
  deriving DecidableEq, Repr

/-- A launch record (07 R125). resOk says that every reserved field is zero. -/
structure LaunchRecord where
  codeVa : Nat
  codeSize : Nat
  entry : Nat
  cont : Nat
  idem : Bool
  cores : Bool
  tripod : Bool
  policy : Nat
  prio : Nat
  energy : Nat
  gridX : Nat
  gridY : Nat
  gridZ : Nat
  warps : Nat
  cluster : Nat
  span : Nat
  regs : Nat
  spill : Nat
  affinity : Nat
  bsmSize : Nat
  spadSize : Nat
  argVa : Nat
  argSize : Nat
  resil : Nat
  faultVa : Nat
  faultCap : Nat
  world : Nat
  profVa : Nat
  frameLen : Nat
  lcores : Nat
  accn : Nat
  deps : List DWord
  slots : List (BitVec 128)
  resOk : Bool
  deriving DecidableEq, Repr

/-- The completion status codes (27 R376). -/
inductive Status where
  | ok | faulted | dieLost | noDie | noFit | sessionLost | cancelled | worldMismatch
  deriving DecidableEq, Repr

/-- Where a launch stands (07 R131, R393). -/
inductive Stage where
  | dependences | placement | running | completed (st : Status)
  deriving DecidableEq, Repr

/-- An image in the code store (04 R62). -/
structure CodeImage where
  digest : BitVec 384
  bytes : List Byte
  deriving DecidableEq, Repr

/-- The package generations that a recovering die runs again (24 R352): how many it is behind, and which of its
warps have arrived at the next. -/
structure BarpReplay where
  die : Nat
  behind : Nat
  arrived : List WarpRef
  deriving DecidableEq, Repr

/-- A launch. uid numbers launches in the device; id is the launch ID of 27 R374. -/
structure Launch where
  uid : Nat
  iface : Nat
  queue : Nat
  id : Nat
  record : LaunchRecord
  stage : Stage
  privileged : Bool
  image : Nat           -- index in the code store
  sig : DWord
  placed : List Nat     -- launch clusters placed so far
  endedBlocks : Nat
  endedRetired : Nat    -- retired instructions of the blocks that ended (19 R291)
  faulted : Bool
  stopping : Option Status
  nrec : Nat
  firstKind : Option FaultKind
  faultFrames : Table Nat   -- page number to physical page of the fault buffer (07 R393)
  barp : Barrier
  overlays : Table (Nat × List LayerCell)   -- die and overlay of clusters that have ended, until a BARP generation (10 R187)
  negWait : Bool        -- a negative is being written; BARP waiters hold (24 R350)
  dbgArmed : Bool
  saved : List Nat      -- units that are saved and wait for their restore (19 R292)
  sampled : List Nat    -- dies on which warp 0 of the first block placed is to transfer (20 R294)
  replays : List BarpReplay
  deriving DecidableEq, Repr

/-! ### Engine operations -/

/-- A registered local range (10 R183): bytes [lo, lo + len) of a place, which local address x names, locked
as a destination or as a source, in the entries of one core. -/
structure Lock where
  x : Word
  place : Place
  lo : Nat
  len : Nat
  dest : Bool
  core : Nat
  deriving DecidableEq, Repr

/-- What an MMA latches of the filter table for a row (14 R239): ptr is the VA of the layer's pointer, layerBase what
it holds. -/
structure Latch where
  row : Nat
  id : Nat
  gen : Nat
  alpha : Word
  ptr : Nat
  layerBase : Nat
  rank32 : Bool
  bad : Option (FaultKind × Nat)
  deriving DecidableEq, Repr

/-- An MMA in flight (14 R229, R231, R239). latches: what it holds of the filter table; none while an earlier
operation of the warp has yet to write what it reads there (10 R182). ready: the entries have arrived. unposted lists
its quarters that wait to be registered and posted, with their source ranges, left those not yet through a pass. soft: lanes
that fault SOFT_ERROR when the instruction completes (19 R283). -/
structure MmaJob where
  addr : Word
  desc : Word
  acc : Nat
  fslot : Nat
  shape : Nat
  rows : LaneMask
  ids : List (Nat × Word)
  latches : Option (List Latch)
  ready : Bool
  unposted : List (Nat × Lock)
  left : List Nat
  soft : LaneMask
  deriving DecidableEq, Repr

/-- What an engine operation does. -/
inductive Work where
  | copy (w : Staging)
  | mload (slot : Nat) (word : Word)
  | mma (job : MmaJob)
  | mzero (strip : Nat)
  | mdrain (strip : Nat) (addr opB : Word) (sat : Bool)
  | spinit (f : Forest)
  | relab (f : Forest) (w : Staging)
  | step (chain : Nat) (w : Staging)
  | nothing
  deriving DecidableEq, Repr

/-- An interface with the PTROOT in force when what uses it started (27 R371). -/
structure Mmu where
  iface : Nat
  root : DWord
  deriving DecidableEq, Repr

/-- How long the range locks of a tripod launch's operation still count (10 R188): against every warp
until the covering WAITB retires, against the block's other warps until that frame's commit, against
other blocks until a cluster or package generation. -/
inductive LockStage where
  | held | waited | committed
  deriving DecidableEq, Repr

/-- An engine operation (13 R214, R215). closeNo is the number of closes before it plus one: the batch
it belongs to. held: bytes of a local destination that a tripod launch applies at a commit (13 R222). -/
structure EngineOp where
  id : Nat
  ref : WarpRef
  closeNo : Nat
  pc : Word
  mask : LaneMask
  work : Work
  locks : List Lock
  stage : LockStage
  posted : Bool
  finished : Bool
  err : Option BatchError
  pendingWrites : List BufEntry
  view : List BufEntry
  mmu : Mmu
  ftbase : DWord               -- FTBASE at issue (27 R371)
  lcore : Option (Nat × Nat × Nat)   -- loupe core, slot and transfer of the warp at issue, if it was on one (20 R306)
  deriving DecidableEq, Repr

/-- What a splice request asks for (15 R249 to R252). -/
inductive SpliceWork where
  | unite (d : Nat) (args : List (Nat × Word × Word))
  | find (d : Nat) (args : List (Nat × Word))
  | csize (d : Nat) (args : List (Nat × Word))
  | snap (d : Nat)
  | undo (m : Word)
  deriving DecidableEq, Repr

/-- A splice operation on its way to the engine of its die (15 R249): its instruction's PC, marker and length, its
Active lanes, those whose operand holds a soft error, the forest bound at its issue, and the loupe core, slot and
transfer of the warp then, if it was on one (20 R306). -/
structure SpliceReq where
  id : Nat
  ref : WarpRef
  slot : Bool
  pc : Word
  mark : Bool
  len : Nat
  active : LaneMask
  soft : LaneMask
  forest : Option Forest
  lcore : Option (Nat × Nat × Nat)
  work : SpliceWork
  deriving DecidableEq, Repr

/-- A filled stationary slot (14 R226, R245): the MLOADB word, BTYPE, RED, tile bytes in the layout of
14 R227, whether it came sealed, the filling warp and the batch of its MLOADB. -/
structure Slot where
  word : Word
  btype : Nat
  red : Bool
  tile : List Byte
  second : Bool        -- the second slot of a 16-bit tile
  sealed : Bool
  filler : WarpRef
  fillClose : Nat
  fillStage : Nat      -- tripod (14 R244): 0 filled, 1 waited, 2 arrived, 3 open to other warps
  barKeys : List (BarUnit × Nat)   -- the generations at which the filler has arrived since the WAITB
  deriving DecidableEq, Repr

/-- A strip (14 R223, R237, R242): words by 128 row + column, the shadow words, the format slot's ACC of
its last MMA, the first slot of the last pass into each row. -/
structure Strip where
  words : Regs
  shadow : Regs
  lastAcc : Option Bool
  lastSlot : Table Nat
  deriving DecidableEq, Repr

/-- A request of the MRT (14 R231), posted at clock since. -/
structure Quarter where
  op : Nat
  q : Nat
  rows : LaneMask
  prio : Nat
  since : DWord
  deriving DecidableEq, Repr

/-- A granted pass (14 R232). -/
structure Pass where
  id : Nat
  quarters : List Quarter
  deriving DecidableEq, Repr

/-- A cached filter slice, tagged as 14 R241 gives. -/
structure CacheEntry where
  world : Nat
  id : Nat
  layer : Nat
  kb : Nat
  nb : Nat
  half : Nat
  gen : Nat
  bytes : List Byte
  deriving DecidableEq, Repr

/-- A row whose filter term waits for slices (14 R241): the slices it lacks and those it has. -/
structure Replay where
  op : Nat
  row : Nat
  latch : Latch
  missing : List (Nat × Nat × Nat)   -- k-block, n-block, half
  got : List CacheEntry
  deriving DecidableEq, Repr

/-- A cluster's matrix engine (14 R223). owner: the launch cluster that holds it. banks: the bank and the
mirror bank bound to a slot (14 R224, R242). mrt: the waiting requests in the order of posting. -/
structure MatrixEngine where
  owner : Option (Nat × Nat)
  slots : Table Slot
  banks : Table (Nat × Option Nat)
  fenced : List Nat
  strips : Table Strip
  scale : Memory
  cache : List CacheEntry
  mrt : List Quarter
  passes : List Pass
  replays : List Replay
  lastCheck : DWord      -- clock of the last periodic check (14 R243)
  soft : List Nat        -- strips n and slots 16 + n with an uncorrectable error (19 R283)
  deriving DecidableEq, Repr

/-! ### Collectives -/

/-- A collective group (25 R356, 27 R382). routes: port and DEVID of every rank. -/
structure Group where
  n : Nat
  rank : Nat
  timeoutUs : Nat
  routes : List (Nat × DWord)
  deriving DecidableEq, Repr

/-- A chain (25 R358, R359): who runs it, its steps so far, the F32 words it holds. started: it has its
place in the collective buffer; begun: its next step has read its input and sent its data; count: the COUNT
of step 0. -/
structure Chain where
  id : Nat
  iface : Nat
  group : Nat
  tag : Word
  ref : WarpRef
  kind : Nat
  itype : Nat
  otype : Nat
  count : Nat
  nextStep : Nat      -- position of the next step to be issued
  doneSteps : Nat     -- steps that have finished
  lastSeen : Bool
  started : Bool
  begun : Bool
  data : List Word
  error : Option FaultKind
  since : DWord       -- when the running step became ready
  arrived : List Nat  -- TREE and ARRIVE: the ranks whose values it has combined, in that order
  heads : List Segment  -- the headers of the steps issued to it
  deriving DecidableEq, Repr

/-- A segment held for a step that has not used it, with its arrival clock (26 R366). -/
structure HeldSegment where
  seg : Segment
  clk : DWord
  deriving DecidableEq, Repr

/-! ### Dies -/

/-- The loupe control record (20 R296). -/
structure LoupeControl where
  scode : Nat
  scount : Nat
  pace : Nat
  wdog : Nat
  deriving DecidableEq, Repr

/-- A watchpoint hit event waiting for predicates (20 R303, R304): the warp's path, the watchpoints hit
with the lanes of each, the hit word and address of each lane, what has been found so far. -/
structure Hit where
  seq : Nat
  ref : WarpRef
  slot : Bool
  pc : Word
  lcore : Nat
  lslot : Nat
  engine : Bool
  todo : List (Nat × LaneMask)
  lowest : Nat
  all : LaneMask
  lanes : List (Nat × Word × Word)
  anyTrue : Bool
  noPred : Bool
  overrun : Bool
  running : Bool
  logs : Nat
  last : Option DWord   -- loupe clock of the warp's last record, for a hit whose warp is gone
  tseq : Nat            -- its warp's transfer number
  deriving DecidableEq, Repr

/-- The darkroom core (01 R10, 27 R381): an RV32IMC core's registers x1 to x31 and PC, the instructions it has
executed in this call, and the device time at which the call began. -/
structure DarkCore where
  regs : Regs
  pc : Word
  count : Nat
  start : DWord
  deriving DecidableEq, Repr

/-- A tracked register of a film-strip slot: DEST code and its last images with their writers' PCs
(20 R309), newest first. -/
structure FilmReg where
  dest : Nat
  images : List (Word × List Word)
  deriving DecidableEq, Repr

/-- The loupe cluster of a die (20 R294 to R309, 27 R381). -/
structure LoupeCluster where
  wps : Table (BitVec 128)          -- 64 core + index
  ctl : LoupeControl
  sheet : Table (BitVec 128)
  sheetIx : Nat
  wraps : Nat
  film : Table (List FilmReg)       -- by slot 0 to 31
  sram : Memory
  dark : DarkCore
  hits : List Hit
  hitSeq : Nat
  tseq : Nat
  skipped : Nat
  sampleCount : Nat
  deriving DecidableEq, Repr

/-- Whether a die runs, is being reset, or has come back and waits for its recovery (24 R352). -/
inductive DieState where
  | running
  | recovering (launch : Nat)
  deriving DecidableEq, Repr

/-- A message with its stamp, as a sender's reel holds it (24 R351). -/
structure ReelEntry where
  msg : DieMessage
  stamp : Nat
  deriving DecidableEq, Repr

/-- A sealed slot as a save holds it (14 R245): its launch cluster and slot, the IV of its first sector, the 16-byte
tags of its sectors. -/
structure SealedTile where
  cluster : Nat
  slot : Nat
  iv : Nat
  tags : List Byte
  deriving DecidableEq, Repr

/-- What a negative or a save holds of a launch's blocks (19 R292, 24 R350); unit is the launch cluster, span or
grid that a save covers, and the die of a negative. The tiles of sealed slots are ciphertext there. -/
structure Snapshot where
  launch : Nat
  unit : Nat
  blocks : List Block
  warps : List Warp
  clusters : List LaunchCluster
  spans : List Span
  engines : List (Nat × MatrixEngine)   -- by launch cluster
  seals : List SealedTile
  ops : List EngineOp
  splices : List SpliceReq
  gen : Nat           -- the package generation that a negative follows
  deriving DecidableEq, Repr

/-- A negative slot of a die's negative region (24 R349, R350). -/
structure Negative where
  host : Nat
  snap : Snapshot
  deriving DecidableEq, Repr

/-- A cached leaf of a die's translation cache (09 R170). -/
structure TlbEntry where
  iface : Nat
  page : Nat
  leaf : DWord
  big : Bool
  deriving DecidableEq, Repr

/-- An intermediate entry in a walker's cache (09 R170): its interface, level, the bits of the VA down to its level's
index, the table it stands in, and the entry. -/
structure WalkerEntry where
  iface : Nat
  level : Nat
  pre : Nat
  table : Nat
  entry : Nat
  deriving DecidableEq, Repr

/-- A step that has completed in error since its die's negative (24 R352 step 5, 25 R359): which one, and its error. -/
structure StepError where
  ref : WarpRef
  group : Nat
  tag : Word
  step : Nat
  kind : FaultKind
  addr : Nat
  deriving DecidableEq, Repr

/-- A compute die (24 R339 to R354). -/
structure Die where
  world : Nat
  fenced : Bool
  st : DieState
  stamp : Nat
  reels : List (Nat × List ReelEntry)   -- by sender 0 to 8: messages sent to this die
  reelOff : List Nat                    -- senders whose reel has stopped logging
  accepted : List (Nat × Nat)           -- receivers and messages accepted from this die since the negative
  discard : List (Nat × Nat)            -- messages to discard after recovery
  negative : Option Negative            -- the newest complete one, which the die host holds
  held : List DieMessage
  replayed : List (Nat × List Byte)     -- responses replayed after a recovery: address and bytes
  stepErrors : List StepError           -- errors of steps since the negative
  tlb : List TlbEntry
  drainLimit : Nat
  loupe : LoupeCluster
  deriving DecidableEq, Repr

/-- A core's admission and profile state (07 R128, 20 R313, 21 R324). -/
structure CoreState where
  budget : Nat
  sset : Option (Nat × Nat)   -- value and the launch that set it
  bins : List Nat             -- scheduler 0's seven bins, then scheduler 1's; bin 0 is kept as `since` says
  since : DWord               -- its own clock when they were cleared: bin 0 holds what is left of the clocks since
  issued : Table (DWord × WarpRef)   -- its own clock when each scheduler last issued, and for which warp (07 R134)
  classes : List Nat          -- eight class counters of each scheduler
  deriving DecidableEq, Repr

/-! ### Host interface -/

/-- Where a command stands: it has its status, or it waits: a WAIT (VA, value, cmp, timeout in µs), an INVAL
(first page number and the one after the last), a TRANSFER or RELEASE of a warp (27 R378, R380). -/
inductive CmdState where
  | ended (st : Status) (kind : Option FaultKind)
  | waiting (va value cmp timeout : Nat)
  | invalidating (first last : Nat)
  | moving (ref : WarpRef) (home : Bool)
  deriving DecidableEq, Repr

/-- A command at the head of a queue that has started (27 R374, R378), with the PTROOT then in force (R371). -/
structure Running where
  n : Nat
  start : DWord
  root : DWord
  st : CmdState
  deriving DecidableEq, Repr

/-- A queue (27 R372 to R374). head: entries that have left the queue stage. ended: entries that have completed.
done: completion records written. -/
structure Queue where
  cmplPa : Nat
  ringPa : Nat
  test : Bool
  log2n : Nat
  weight : Nat
  tail : Nat
  head : Nat
  ended : Nat
  done : Nat
  err : Bool
  headClk : DWord
  aged : Nat
  running : Option Running
  earlyDone : List Nat      -- SUMMARY entries completed out of ring order (27 R379)
  deriving DecidableEq, Repr

/-- A publication window (10 R190, 27 R378). -/
structure Window where
  va : Nat
  bytes : Nat
  counterPa : Nat
  ack : Bool
  world : Nat
  image : Memory
  version : Nat
  acked : Nat
  deriving DecidableEq, Repr

/-- A secured session (24 R345). -/
structure Session where
  world : Nat
  heartbeatMs : Nat
  debug : Bool
  lastSeq : Option DWord
  deadline : DWord
  dataKey : BitVec 512   -- AES-256-XTS: the key of the blocks, then that of the tweak
  weightKey : BitVec 256
  saveKey : BitVec 256
  groupKey : BitVec 256
  deriving DecidableEq, Repr

/-- An interface (27 R370, R371). -/
structure Iface where
  enabled : Bool
  dieMask : BitVec 8
  qcount : Nat
  ptroot : DWord
  ftbase : DWord
  queues : Table Queue
  windows : Table Window
  groups : Table Group
  session : Option Session
  sessionLost : Bool
  deriving DecidableEq, Repr

/-- An entry of the control die's event log (24 R339). -/
inductive LogEvent where
  | worldRefused (src dst world : Nat)
  | portDown (port : Nat)
  | flitDropped (port : Nat)
  | bankFenced (die site bank : Nat)
  | reelFull (src dst : Nat)
  | noNegativeHost (launch : Nat)
  | dieFatal (die : Nat)
  deriving DecidableEq, Repr

/-- A completion record of a protected world that waits for its grain window's end (24 R348). -/
structure HeldRecord where
  iface : Nat
  queue : Nat
  bytes : List Byte
  deriving DecidableEq, Repr

/-- The dispatcher's place in a level's round (07 R131). -/
structure Cursor where
  iface : Nat
  queue : Nat
  taken : Nat
  deriving DecidableEq, Repr

/-- A compute-die record of the defect map (28 R388). -/
structure DieFuses where
  sites : BitVec 13
  dstate : Nat
  loupe : Nat
  gdMap : BitVec 8
  fences : List (Nat × Nat)
  deriving DecidableEq, Repr

/-- The fused defect map (28 R387). -/
structure DefectMap where
  serial : DWord
  cxlMap : BitVec 16
  peerMap : BitVec 48
  lpdMap : BitVec 16
  dieMask : BitVec 8
  dies : List DieFuses
  deriving DecidableEq, Repr

/-- Where the module stands between power removal and the end of bring-up (28 R386). -/
inductive Power where
  | off
  | stuck       -- step 1 or 2 has failed: retry status for ever
  | up
  deriving DecidableEq, Repr

/-- A peer port (25 R355). -/
structure Port where
  up : Bool
  resends : Nat
  deriving DecidableEq, Repr

/-- What carries the two signatures of 27 R385 over its SHA-384 digest: its bytes and the signatures. -/
structure Certificate where
  bytes : List Byte
  ed25519 : Nat
  mlDsa : Nat
  deriving DecidableEq, Repr

/-- A MEASUREMENTS response (27 R385): what it covers, the fused map by its bytes, and the two signatures over its
digest. -/
structure Report where
  iface : Nat
  nonce : BitVec 256
  firmware : BitVec 384
  map : List Byte
  fuses : List Byte
  ed25519 : Nat
  mlDsa : Nat
  deriving DecidableEq, Repr

/-- The control die's registers and services (24 R339, 27, 28). -/
structure Control where
  power : Power
  firmware : BitVec 384
  map : DefectMap
  fuses : List Byte               -- the fused map's bytes (28 R387): they outlast every reset and power removal
  identity : Certificate          -- the device identity certificate (27 R385)
  numbered : BitVec 8             -- the dies that bring-up has numbered (28 R386 step 6)
  ifaces : Table Iface
  islands : Table DWord
  loupeBase : Table (DWord × Nat)   -- by die: device time and loupe clock at its last change of FMHZ (01 R14)
  margin : DWord
  marginBusy : Bool
  cursors : Table Cursor          -- by level 0 to 3
  log : List LogEvent
  heldRecords : List HeldRecord
  coarse : Table CoreState        -- counters of protected dies at the window's start (24 R347)
  clearAtBoundary : List Nat      -- coarsened counters to clear at the next boundary
  ports : Table Port
  chains : List Chain
  walkers : List WalkerEntry      -- the walkers' caches (09 R170)
  held : List HeldSegment
  saves : List Snapshot
  saveIv : Nat
  worldKey : Table Nat            -- world to the number of its current data key (24 R343)
  keys : Nat                      -- data keys made so far
  dataKeys : Table (BitVec 512)   -- the data keys by number, as given
  key0 : BitVec 512               -- the world-0 data key (24 R343)
  outbox : List (Nat × Flit)      -- flits forwarded or sent, with the port by which each leaves (27 R382)
  reports : List Report           -- MEASUREMENTS responses (27 R385)
  window : Nat                    -- grain windows that have ended (24 R347)
  hostReads : List (List Byte)    -- lines returned to CXL.mem reads (10 R191)
  deriving DecidableEq, Repr

/-! ### The whole device -/

/-- Which live path an instruction row acts for: a warp and one of its two slots. -/
structure Issuer where
  ref : WarpRef
  slot : Bool
  deriving DecidableEq, Repr

/-- What happens next, as the agenda lists it: a path issues, while the paths of its scheduler that late names have no
fetched word or no free pipe (07 R134), or an event row happens. -/
inductive Act where
  | issue (who : Issuer) (late : List Issuer)
  | event (i : Instr)
  deriving DecidableEq, Repr

/-- An agenda entry: the device clocks that pass first, and what happens then. -/
structure Slated where
  clocks : Nat
  act : Act
  deriving DecidableEq, Repr

/-- The execution side: launches and what they hold on the dies. -/
structure Exec where
  launches : List Launch
  code : List CodeImage
  blocks : List Block
  warps : List Warp
  clusters : List LaunchCluster
  spans : List Span
  ops : List EngineOp
  splices : List SpliceReq
  engines : Table MatrixEngine      -- by 16 die + site
  dies : Table Die
  cores : Table CoreState           -- by 64 die + 4 site + core
  deriving DecidableEq, Repr

/-- The state of the device. -/
structure State where
  time : DWord
  mem : Memory                      -- by device physical address, host memory included (09 R167)
  memKeys : Table Nat               -- 64-byte unit of DRAM to the key it was written under (24 R343)
  x : Exec
  ctl : Control
  issuer : Option Issuer
  agenda : List Slated
  free : Nat
  nextOp : Nat
  nextUid : Nat
  deriving DecidableEq, Repr

/-! ### Right after reset -/

/-- A die's fuses on the full X40 (01 R9, 28 R388): twelve sites enabled, one of them the loupe cluster.
DESIGN CHOICE (notes/assumptions/4.md): site 12 is the fused-off one and site 11 the loupe cluster. -/
def DieFuses.full : DieFuses := ⟨0x0FFF, 0, 11, 0xFF, []⟩

/-- The defect map of the full X40 (28 R387). DESIGN CHOICE: SERIAL 0. -/
def DefectMap.full : DefectMap :=
  ⟨0, 0xFFFF, 0xFFFFFFFFFFFF, 0xFFFF, 0xFF, List.replicate 8 DieFuses.full⟩

/-- The fused map of the full X40 as bytes (28 R387, R388): the header, then eight alike die records. -/
def fullFuses : List Byte :=
  ([0x30, 0x34, 0x58, 0x5A, 1, 0xFF] ++ List.replicate 10 0xFF ++ List.replicate 14 0 ++ [0xF8, 0x11]) ++
  (List.replicate 8 ([0xFF, 0x0F, 0, 0xB0, 0xFF] ++ List.replicate 57 0 ++ [0x58, 0x56])).flatten

/-- The control die right after a reset: no queue enabled, no session, islands at nominal (28 R390). -/
def Control.reset : Control where
  power := .up
  firmware := 0
  map := DefectMap.full
  fuses := fullFuses
  identity := ⟨Config.identityBytes, Config.identityEd25519, Config.identityMlDsa⟩
  numbered := 0xFF
  ifaces := []
  islands := []
  loupeBase := []
  margin := 0
  marginBusy := false
  cursors := []
  log := []
  heldRecords := []
  coarse := []
  clearAtBoundary := []
  ports := []
  chains := []
  walkers := []
  held := []
  saves := []
  saveIv := 0
  worldKey := []
  keys := 1
  dataKeys := []
  key0 := Config.dataKey 0
  outbox := []
  reports := []
  window := 0
  hostReads := []

/-- The execution side right after a reset: nothing is resident (24 R339, 28 R386). -/
def Exec.reset : Exec where
  launches := []
  code := []
  blocks := []
  warps := []
  clusters := []
  spans := []
  ops := []
  splices := []
  engines := []
  dies := []
  cores := []

/-- The device right after reset, with bring-up done (28 R386). No launch is there: a host submits one
(notes/assumptions/5.md). -/
def State.reset : State where
  time := 0
  mem := []
  memKeys := []
  x := Exec.reset
  ctl := Control.reset
  issuer := none
  agenda := []
  free := 0
  nextOp := 0
  nextUid := 0

end Sys2Proof.Machine
end

