-- ==== Sys2Proof/Machine/Table.lean ====
section
/-! DEFINITION. The operations over the plain lists that hold memory, register files and keyed records:
one canonical form, one read, one write each. -/

namespace Sys2Proof.Machine

/-- The record at key k. -/
def tget {α : Type} : Table α → Nat → Option α
  | [], _ => none
  | (a, v) :: r, k => if a = k then some v else tget r k

/-- Put a record at key k, keys kept rising. -/
def tput {α : Type} : Table α → Nat → α → Table α
  | [], k, v => [(k, v)]
  | (a, x) :: r, k, v =>
    if k < a then (k, v) :: (a, x) :: r
    else if a = k then (k, v) :: r
    else (a, x) :: tput r k v

/-- Remove the record at key k. -/
def tdel {α : Type} : Table α → Nat → Table α
  | [], _ => []
  | (a, x) :: r, k => if a = k then r else (a, x) :: tdel r k

/-- The value at key k of a canonical list; an unlisted key reads 0. -/
def get0 {w : Nat} : List (Nat × BitVec w) → Nat → BitVec w
  | [], _ => 0
  | (a, v) :: r, k => if a = k then v else get0 r k

/-- Write v at key k: keys kept rising, no zero listed. -/
def put0 {w : Nat} : List (Nat × BitVec w) → Nat → BitVec w → List (Nat × BitVec w)
  | [], k, v => if v = 0 then [] else [(k, v)]
  | (a, x) :: r, k, v =>
    if k < a then (if v = 0 then (a, x) :: r else (k, v) :: (a, x) :: r)
    else if a = k then (if v = 0 then r else (k, v) :: r)
    else (a, x) :: put0 r k v

/-- Keys strictly rising from a bound on, no value zero. -/
def wfFrom {w : Nat} : Nat → List (Nat × BitVec w) → Bool
  | _, [] => true
  | lo, (a, v) :: r => decide (lo ≤ a) && decide (v ≠ 0) && wfFrom (a + 1) r

/-- The canonical form of a memory or register file. -/
def wf0 {w : Nat} (t : List (Nat × BitVec w)) : Bool := wfFrom 0 t

/-- The canonical form of a memory. -/
def Memory.wf (m : Memory) : Bool := wf0 m

/-- n bytes from address a. -/
def readBytes (m : Memory) (a : Nat) : Nat → List Byte
  | 0 => []
  | n + 1 => get0 m a :: readBytes m (a + 1) n

/-- Write bytes from address a on. -/
def writeBytes (m : Memory) : Nat → List Byte → Memory
  | _, [] => m
  | a, b :: bs => writeBytes (put0 m a b) (a + 1) bs

/-- Little-endian value of bytes (00 R3). -/
def leNat : List Byte → Nat
  | [] => 0
  | b :: bs => b.toNat + 256 * leNat bs

/-- The n low bytes of a number, lowest first (00 R3). -/
def leBytes : Nat → Nat → List Byte
  | 0, _ => []
  | n + 1, x => BitVec.ofNat 8 x :: leBytes n (x / 256)

/-- The 32-bit word at an address. -/
def readWord (m : Memory) (a : Nat) : Word := BitVec.ofNat 32 (leNat (readBytes m a 4))

/-- Write a 32-bit word. -/
def writeWord (m : Memory) (a : Nat) (v : Word) : Memory := writeBytes m a (leBytes 4 v.toNat)

/-- Replace the elements of a list that have x's key by x. -/
def setBy {α β : Type} [DecidableEq β] (key : α → β) (x : α) (l : List α) : List α :=
  l.map fun y => if key y = key x then x else y

/-- The first element with a given key. -/
def findBy {α β : Type} [DecidableEq β] (key : α → β) (k : β) : List α → Option α
  | [] => none
  | y :: r => if key y = k then some y else findBy key k r

/-- Bits [hi:lo] of a number, as the spec's x[hi:lo] (00 R6). -/
def bits (x hi lo : Nat) : Nat := x / 2 ^ lo % 2 ^ (hi + 1 - lo)

/-- Bit i of a number. -/
def bitAt (x i : Nat) : Bool := x / 2 ^ i % 2 = 1

/-- A Bool as 0 or 1. -/
def b2n (b : Bool) : Nat := if b then 1 else 0

/-- The lanes of a mask in ascending order. -/
def lanesFrom (m : LaneMask) : Nat → Nat → List Nat
  | _, 0 => []
  | l, n + 1 => if m.getLsbD l then l :: lanesFrom m (l + 1) n else lanesFrom m (l + 1) n

/-- The lanes of a mask in ascending order. -/
def lanesOf (m : LaneMask) : List Nat := lanesFrom m 0 32

/-- The mask of one lane. -/
def laneBit (l : Nat) : LaneMask := if l < 32 then BitVec.ofNat 32 (2 ^ l) else 0

/-- The mask of a list of lanes. -/
def maskOf : List Nat → LaneMask
  | [] => 0
  | l :: r => laneBit l ||| maskOf r

/-- The lowest lane of a mask; 32 when it is empty. -/
def lowestLane (m : LaneMask) : Nat := (lanesOf m).headD 32

/-- Take from a list the elements that fail a test, keeping order. -/
def dropWhere {α : Type} (p : α → Bool) (l : List α) : List α := l.filter fun x => !p x

/-- Whether byte ranges [a, a + n) and [b, b + k) share a byte. -/
def overlaps (a n b k : Nat) : Bool := decide (a < b + k) && decide (b < a + n) && decide (0 < n) && decide (0 < k)

end Sys2Proof.Machine
end

