-- ==== Sys2Proof/Machine/Access.lean ====
section
/-! DEFINITION. Where a warp, block, launch, die, engine, core or interface stands in the state, and how
one is replaced. Everything else reads and writes the state's lists through these. -/

namespace Sys2Proof.Machine

/-! ### Records as they are before anything has touched them -/

/-- A loupe cluster after a die's reset (20 R296, R302): every register zero, nothing recorded. -/
def LoupeCluster.fresh : LoupeCluster where
  wps := []
  ctl := ⟨0, 0, 0, 0⟩
  sheet := []
  sheetIx := 0
  wraps := 0
  film := []
  sram := []
  dark := ⟨[], 0, 0, 0⟩
  hits := []
  hitSeq := 0
  tseq := 0
  skipped := 0
  sampleCount := 0

/-- A die after reset; world 0 (DESIGN CHOICE, notes/assumptions/3.md). -/
def Die.fresh : Die where
  world := 0
  fenced := false
  st := .running
  stamp := 0
  reels := []
  reelOff := []
  accepted := []
  discard := []
  negative := none
  held := []
  replayed := []
  stepErrors := []
  tlb := []
  drainLimit := Config.drainLimit
  loupe := LoupeCluster.fresh

/-- A core after reset (07 R128, 20 R313). -/
def CoreState.fresh : CoreState where
  budget := Config.defaultEnergy
  sset := none
  bins := List.replicate 14 0
  since := 0
  issued := []
  classes := List.replicate 16 0

/-- A matrix engine that nothing has used (14 R223). -/
def MatrixEngine.fresh : MatrixEngine where
  owner := none
  slots := []
  banks := []
  fenced := []
  strips := []
  scale := []
  cache := []
  mrt := []
  passes := []
  replays := []
  lastCheck := 0
  soft := []

/-- A strip whose words are zero. -/
def Strip.fresh : Strip := ⟨[], [], none, []⟩

/-- A barrier before any arrival (08 R157). -/
def Barrier.fresh : Barrier := ⟨0, [], []⟩

/-- An interface before any grant (27 R370, R371). -/
def Iface.fresh : Iface where
  enabled := false
  dieMask := 0
  qcount := 0
  ptroot := 0
  ftbase := 0
  queues := []
  windows := []
  groups := []
  session := none
  sessionLost := false

/-- Interface 0, the physical function, before any session: every die and all 8,192 queues are its own
until it grants them away (27 R370). -/
def Iface.physical : Iface := { Iface.fresh with enabled := true, dieMask := 0xFF, qcount := 8192 }

/-- A queue whose descriptor is zero (27 R372). -/
def Queue.fresh : Queue where
  cmplPa := 0
  ringPa := 0
  test := false
  log2n := 0
  weight := 0
  tail := 0
  head := 0
  ended := 0
  done := 0
  err := false
  headClk := 0
  aged := 0
  running := none
  earlyDone := []

/-! ### Lookup and replacement -/

namespace State

/-- The warp a reference names, while its block is resident. -/
def warp? (s : State) (r : WarpRef) : Option Warp := findBy Warp.ref r s.x.warps

/-- Replace a warp. -/
def setWarp (s : State) (w : Warp) : State := { s with x := { s.x with warps := setBy Warp.ref w s.x.warps } }

/-- Change a warp, if it is there. -/
def updWarp (s : State) (r : WarpRef) (f : Warp → Warp) : State :=
  { s with x := { s.x with warps := s.x.warps.map fun w => if w.ref = r then f w else w } }

/-- The warps of a block. -/
def warpsOf (s : State) (launch block : Nat) : List Warp :=
  s.x.warps.filter fun w => w.ref.launch = launch ∧ w.ref.block = block

/-- A resident block. -/
def block? (s : State) (launch block : Nat) : Option Block :=
  findBy (fun b : Block => (b.launch, b.id)) (launch, block) s.x.blocks

/-- Change a block. -/
def updBlock (s : State) (launch block : Nat) (f : Block → Block) : State :=
  { s with x := { s.x with blocks := s.x.blocks.map fun b => if b.launch = launch ∧ b.id = block then f b else b } }

/-- The resident blocks of a launch. -/
def blocksOf (s : State) (launch : Nat) : List Block := s.x.blocks.filter fun b => b.launch = launch

/-- A launch. -/
def launch? (s : State) (uid : Nat) : Option Launch := findBy Launch.uid uid s.x.launches

/-- Change a launch. -/
def updLaunch (s : State) (uid : Nat) (f : Launch → Launch) : State :=
  { s with x := { s.x with launches := s.x.launches.map fun l => if l.uid = uid then f l else l } }

/-- A resident launch cluster (07 R123). -/
def cluster? (s : State) (launch num : Nat) : Option LaunchCluster :=
  findBy (fun c : LaunchCluster => (c.launch, c.num)) (launch, num) s.x.clusters

/-- Change a launch cluster. -/
def updCluster (s : State) (launch num : Nat) (f : LaunchCluster → LaunchCluster) : State :=
  { s with x := { s.x with
    clusters := s.x.clusters.map fun c => if c.launch = launch ∧ c.num = num then f c else c } }

/-- An open span (07 R124). -/
def span? (s : State) (launch num : Nat) : Option Span :=
  findBy (fun c : Span => (c.launch, c.num)) (launch, num) s.x.spans

/-- Change a span. -/
def updSpan (s : State) (launch num : Nat) (f : Span → Span) : State :=
  { s with x := { s.x with spans := s.x.spans.map fun c => if c.launch = launch ∧ c.num = num then f c else c } }

/-- An engine operation that has not been dropped. -/
def op? (s : State) (id : Nat) : Option EngineOp := findBy EngineOp.id id s.x.ops

/-- Change an engine operation. -/
def updOp (s : State) (id : Nat) (f : EngineOp → EngineOp) : State :=
  { s with x := { s.x with ops := s.x.ops.map fun o => if o.id = id then f o else o } }

/-- The engine operations of a warp. -/
def opsOf (s : State) (r : WarpRef) : List EngineOp := s.x.ops.filter fun o => o.ref = r

/-- A compute die. -/
def die (s : State) (d : Nat) : Die := (tget s.x.dies d).getD Die.fresh

/-- Change a compute die. -/
def updDie (s : State) (d : Nat) (f : Die → Die) : State :=
  { s with x := { s.x with dies := tput s.x.dies d (f (s.die d)) } }

/-- Change a die's loupe cluster. -/
def updLoupe (s : State) (d : Nat) (f : LoupeCluster → LoupeCluster) : State :=
  s.updDie d fun x => { x with loupe := f x.loupe }

/-- The matrix engine of a cluster site. -/
def engine (s : State) (die site : Nat) : MatrixEngine := (tget s.x.engines (16 * die + site)).getD MatrixEngine.fresh

/-- Change a matrix engine. -/
def updEngine (s : State) (die site : Nat) (f : MatrixEngine → MatrixEngine) : State :=
  { s with x := { s.x with engines := tput s.x.engines (16 * die + site) (f (s.engine die site)) } }

/-- Key of a core: die, site, core of the site. -/
def coreKey (die site core : Nat) : Nat := 64 * die + 4 * site + core

/-- A core's admission and profile state. -/
def core (s : State) (k : Nat) : CoreState := (tget s.x.cores k).getD CoreState.fresh

/-- Change a core. -/
def updCore (s : State) (k : Nat) (f : CoreState → CoreState) : State :=
  { s with x := { s.x with cores := tput s.x.cores k (f (s.core k)) } }

/-- Interface i (27 R370). -/
def iface (s : State) (i : Nat) : Iface :=
  (tget s.ctl.ifaces i).getD (if i = 0 then Iface.physical else Iface.fresh)

/-- Change an interface. -/
def updIface (s : State) (i : Nat) (f : Iface → Iface) : State :=
  { s with ctl := { s.ctl with ifaces := tput s.ctl.ifaces i (f (s.iface i)) } }

/-- An interface with its present PTROOT. -/
def mmu (s : State) (i : Nat) : Mmu := ⟨i, (s.iface i).ptroot⟩

/-- Queue q of an interface. -/
def queue (s : State) (i q : Nat) : Queue := (tget (s.iface i).queues q).getD Queue.fresh

/-- Change a queue. -/
def updQueue (s : State) (i q : Nat) (f : Queue → Queue) : State :=
  s.updIface i fun x => { x with queues := tput x.queues q (f (s.queue i q)) }

/-- Change the control die. -/
def updCtl (s : State) (f : Control → Control) : State := { s with ctl := f s.ctl }

/-- Append to the control die's event log (24 R339). -/
def logEvent (s : State) (e : LogEvent) : State := s.updCtl fun c => { c with log := c.log ++ [e] }

/-- A die in use: DSTATE 0 and not fenced (24 R349). -/
def dieInUse (s : State) (d : Nat) : Bool :=
  decide (d < 8) && decide ((s.ctl.map.dies[d]?.map DieFuses.dstate).getD 1 = 0) && !(s.die d).fenced

/-- The physical dies behind an interface's logical dies, in logical order (24 R340): the enabled dies it may
use, as bring-up has numbered them. A die fenced later keeps its number. -/
def logicalDies (s : State) (i : Nat) : List Nat :=
  (List.range 8).filter fun d => (s.iface i).dieMask.getLsbD d && s.ctl.numbered.getLsbD d

/-- The site of a die's loupe cluster, when it has one whose site is enabled (28 R388: codes 13 and up name
none). -/
def loupeSite? (s : State) (d : Nat) : Option Nat :=
  match s.ctl.map.dies[d]? with
  | some f => if f.loupe < 13 && f.sites.getLsbD f.loupe then some f.loupe else none
  | none => none

/-- The clock of a die's ordinary clusters in MHz: FMHZ of island 3 d, 2,100 when it is 0 (01 R14, 28 R390). -/
def clusterMhz (s : State) (d : Nat) : Nat :=
  let f := ((tget s.ctl.islands (3 * d)).getD 0).toNat % 2 ^ 12
  if f = 0 then 2100 else f

/-- The clocks that a die's loupe cluster has run: half of its ordinary clusters' clock, device time counting
at 2,100 MHz (01 R14). -/
def loupeClk (s : State) (d : Nat) : Nat :=
  let b := (tget s.ctl.loupeBase d).getD (0, 0)
  b.2 + (s.time - b.1).toNat * s.clusterMhz d / 4200

/-- The next fresh value of the free-value counter. -/
def bump (s : State) : State := { s with free := s.free + 1 }

end State

/-! ### A warp's two slots -/

/-- The path in a slot (07 R136): false names the first slot, true the second. -/
def Warp.path? (w : Warp) (slot : Bool) : Option Path := if slot then w.p1 else w.p0

/-- Put a path, or nothing, into a slot. -/
def Warp.setPath (w : Warp) (slot : Bool) (p : Option Path) : Warp :=
  if slot then { w with p1 := p } else { w with p0 := p }

/-- Change the path in a slot. -/
def Warp.updPath (w : Warp) (slot : Bool) (f : Path → Path) : Warp := w.setPath slot ((w.path? slot).map f)

/-- The live paths with their slots. -/
def Warp.live (w : Warp) : List (Bool × Path) :=
  (match w.p0 with | some p => [(false, p)] | none => []) ++
  (match w.p1 with | some p => [(true, p)] | none => [])

/-- The live and the frozen paths (19 R288). -/
def Warp.allPaths (w : Warp) : List Path :=
  w.live.map Prod.snd ++ (match w.frozen with | some f => f.p0.toList ++ f.p1.toList | none => [])

/-- A SELFTEST that a path issued runs (21 R326). -/
def Path.testing (p : Path) : Bool := match p.park with | .selftest _ _ _ => true | _ => false

/-- A SELFTEST of a warp runs. -/
def Warp.testing (w : Warp) : Bool := w.allPaths.any Path.testing

/-- A fresh path at a PC over lanes (04 R58). -/
def Path.start (pc : Word) (lanes : LaneMask) : Path where
  pc := pc
  mode := 0
  ix := 0
  lanes := lanes
  writes := []
  pending := []
  late := []
  uncovered := []
  stack := []
  park := .none
  only := none
  carry := none
  waitStart := none
  waitOn := none
  passed := false
  drawn := none
  frameServed := false
  back := none
  starve := 0
  starved := false

/-- Change a path of a warp in the state. -/
def State.updPath (s : State) (r : WarpRef) (slot : Bool) (f : Path → Path) : State :=
  s.updWarp r fun w => w.updPath slot f

/-- The path of a warp in a slot. -/
def State.path? (s : State) (r : WarpRef) (slot : Bool) : Option Path :=
  match s.warp? r with
  | some w => w.path? slot
  | none => none

end Sys2Proof.Machine
end

