-- ==== Sys2Proof/Machine/Float.lean ====
section
/-! DEFINITION. Number formats and rounding (05): the types' bits and values, and Round(x, t, rnd, sat)
with the status bits it sets. An exact real is an integer times a power of two, with a flag that says
that the real lies strictly above it and below the next integer multiple. -/

namespace Sys2Proof.Machine

/-! ### Element types (05 R74, R75; 03 R54) -/

/-- A floating-point type: exponent bits, mantissa bits, bias, the code of max-finite, whether it has
infinities, the canonical NaN where it has NaNs (05 R75). -/
structure FloatFmt where
  ex : Nat
  man : Nat
  bias : Nat
  maxCode : Nat
  hasInf : Bool
  canon : Option Nat
  deriving DecidableEq, Repr

/-- The floating-point types by ETYPE code (05 R75). -/
def floatFmt : Nat → Option FloatFmt
  | 6 => some ⟨8, 23, 127, 0x7F7FFFFF, true, some 0x7FC00000⟩
  | 7 => some ⟨5, 10, 15, 0x7BFF, true, some 0x7E00⟩
  | 8 => some ⟨8, 7, 127, 0x7F7F, true, some 0x7FC0⟩
  | 9 => some ⟨4, 3, 7, 0x7E, false, some 0x7F⟩
  | 10 => some ⟨5, 2, 15, 0x7B, true, some 0x7E⟩
  | 11 => some ⟨3, 2, 3, 0x1F, false, none⟩
  | 12 => some ⟨2, 3, 1, 0x1F, false, none⟩
  | 13 => some ⟨2, 1, 1, 0x7, false, none⟩
  | _ => none

/-- F32 (05 R75). -/
def f32 : FloatFmt := ⟨8, 23, 127, 0x7F7FFFFF, true, some 0x7FC00000⟩

/-- Width and signedness of an integer type (05 R74). -/
def intFmt : Nat → Option (Nat × Bool)
  | 0 => some (32, true)
  | 1 => some (32, false)
  | 2 => some (16, true)
  | 3 => some (16, false)
  | 4 => some (8, true)
  | 5 => some (8, false)
  | 14 => some (4, true)
  | _ => none

/-- Bits an element takes in a lane word or in memory (04 R60, 05 R76): the 6-bit types take a byte. -/
def elemWidth : Nat → Nat
  | 0 | 1 | 6 => 32
  | 2 | 3 | 7 | 8 => 16
  | 13 | 14 => 4
  | _ => 8

/-- Element k of a lane word x of width w (04 R60). -/
def elemAt (x w k : Nat) : Nat := x / 2 ^ (w * k) % 2 ^ w

/-- A lane word with element k of width w replaced by v. -/
def setElem (x w k v : Nat) : Nat :=
  x - elemAt x w k * 2 ^ (w * k) + v % 2 ^ w * 2 ^ (w * k)

/-- The lane word of a list of elements of width w, lowest first. -/
def packElems (w : Nat) : List Nat → Nat
  | [] => 0
  | v :: r => v % 2 ^ w + 2 ^ w * packElems w r

/-- The w-bit field x as a signed integer (04 R73). -/
def sext (x w : Nat) : Int := if x % 2 ^ w < 2 ^ (w - 1) then (x % 2 ^ w : Nat) else ((x % 2 ^ w : Nat) : Int) - 2 ^ w

/-- x read as signed or unsigned (04 R73). -/
def asInt (x w : Nat) (signed : Bool) : Int := if signed then sext x w else (x % 2 ^ w : Nat)

/-- An integer modulo 2^w (00 R6: Wrap32 for w = 32). -/
def wrapN (w : Nat) (x : Int) : Nat := (x % (2 ^ w : Int)).toNat

/-! ### Status bits (04 R71) -/

def stNX : Nat := 1
def stUF : Nat := 2
def stOF : Nat := 4
def stDZ : Nat := 8
def stNV : Nat := 16
def stOV : Nat := 32

/-! ### Values -/

/-- The value of a floating-point element: a NaN, signalling or not, an infinity, or
(-1)^neg * m * 2^e. -/
inductive FVal where
  | nan (signalling : Bool)
  | inf (neg : Bool)
  | fin (neg : Bool) (m : Nat) (e : Int)
  deriving DecidableEq, Repr

/-- An exact result to be rounded: as `FVal`, and with sticky the real's magnitude lies strictly between
m * 2^e and (m + 1) * 2^e. -/
inductive Exact where
  | nan (signalling : Bool)
  | inf (neg : Bool)
  | fin (neg : Bool) (m : Nat) (e : Int) (sticky : Bool)
  deriving DecidableEq, Repr

/-- The exponent of a subnormal's unit. -/
def FloatFmt.emin (f : FloatFmt) : Int := 1 - (f.bias : Int) - (f.man : Int)

/-- The value of an element's bits (05 R75, R77). -/
def fdecode (f : FloatFmt) (x : Nat) : FVal :=
  let neg := bitAt x (f.ex + f.man)
  let e := x / 2 ^ f.man % 2 ^ f.ex
  let m := x % 2 ^ f.man
  if f.hasInf && e = 2 ^ f.ex - 1 then
    if m = 0 then .inf neg else .nan (m < 2 ^ (f.man - 1))
  else if f.canon = some 0x7F && e = 2 ^ f.ex - 1 && m = 2 ^ f.man - 1 then .nan false
  else if e = 0 then .fin neg m f.emin
  else .fin neg (2 ^ f.man + m) (f.emin + (e : Int) - 1)

/-- A value as an exact real. -/
def FVal.exact : FVal → Exact
  | .nan s => .nan s
  | .inf n => .inf n
  | .fin n m e => .fin n m e false

/-- Bits of a positive number: 0 for 0. -/
def bitLen (m : Nat) : Nat := if m = 0 then 0 else Nat.log2 m + 1

/-- m * 2^e (plus a fraction of a unit when sticky) divided by 2^q and rounded to an integer under rnd
(05 R78); also whether that is inexact. -/
def roundAt (neg : Bool) (m : Nat) (e : Int) (sticky : Bool) (rnd : Nat) (q : Int) : Nat × Bool :=
  let s := q - e
  let up := s.toNat
  let n := if 0 ≤ s then m / 2 ^ up else m * 2 ^ (-s).toNat
  let rem := if 0 ≤ s then m % 2 ^ up else 0
  let inexact := decide (rem ≠ 0) || sticky
  let twice := 2 * rem
  let unit := if 0 ≤ s then 2 ^ up else 1
  let above := decide (unit < twice) || (decide (twice = unit) && sticky)
  let tie := decide (twice = unit) && !sticky
  let inc :=
    if rnd = 0 then above || (tie && n % 2 = 1)
    else if rnd = 2 then inexact && !neg
    else if rnd = 3 then inexact && neg
    else if rnd = 4 then above || tie
    else false
  (n + b2n inc, inexact)

/-- Whether n * 2^q exceeds k * 2^p. -/
def gtScaled (n : Nat) (q : Int) (k : Nat) (p : Int) : Bool :=
  if p ≤ q then decide (k < n * 2 ^ (q - p).toNat) else decide (k * 2 ^ (p - q).toNat < n)

/-- The bits of a signed magnitude code. -/
def FloatFmt.signed (f : FloatFmt) (neg : Bool) (code : Nat) : Nat := b2n neg * 2 ^ (f.ex + f.man) + code

/-- Infinity's code. -/
def FloatFmt.infCode (f : FloatFmt) : Nat := (2 ^ f.ex - 1) * 2 ^ f.man

/-- NoInfOverflow (05 R79). -/
def FloatFmt.noInfOverflow (f : FloatFmt) (neg sat : Bool) : Nat :=
  match f.canon with
  | some c => if sat then f.signed neg f.maxCode else c
  | none => f.signed neg f.maxCode

/-- InfOverflow (05 R79). -/
def FloatFmt.infOverflow (f : FloatFmt) (neg : Bool) (rnd : Nat) : Nat :=
  if rnd = 0 || rnd = 4 || (rnd = 2 && !neg) || (rnd = 3 && neg) then f.signed neg f.infCode
  else f.signed neg f.maxCode

/-- Round(x, t, rnd, sat) for a floating-point t (05 R79): the element and the status bits set. -/
def roundF (f : FloatFmt) (rnd : Nat) (sat : Bool) : Exact → Nat × Nat
  | .nan s =>
    match f.canon with
    | some c => (c, if s then stNV else 0)
    | none => (0, stNV)
  | .inf neg => if f.hasInf then (f.signed neg f.infCode, 0) else (f.noInfOverflow neg sat, stOF)
  | .fin neg m e sticky =>
    if m = 0 then (f.signed neg 0, 0)
    else
      let top := e + (bitLen m : Int) - 1
      let q := top - (f.man : Int)
      let y := (roundAt neg m e sticky rnd q).1
      let tooBig := match fdecode f f.maxCode with
        | .fin _ k p => gtScaled y q k p
        | _ => false
      if tooBig then
        (if f.hasInf then f.infOverflow neg rnd else f.noInfOverflow neg sat, stOF + stNX)
      else
        let q' := max q f.emin
        let (n, inexact) := roundAt neg m e sticky rnd q'
        let tiny := decide (top < 1 - (f.bias : Int))
        (f.signed neg ((q' - f.emin).toNat * 2 ^ f.man + n),
          (if inexact then stNX else 0) + (if inexact && tiny then stUF else 0))

/-- Round(x, t, rnd, sat) for an integer type of w bits (05 R80). -/
def roundI (w : Nat) (signed : Bool) (rnd : Nat) : Exact → Nat × Nat
  | .nan _ => (0, stNV)
  | .inf neg => (wrapN w (if neg then (if signed then -(2 ^ (w - 1) : Int) else 0)
                          else (if signed then 2 ^ (w - 1) - 1 else 2 ^ w - 1)), stNV)
  | .fin neg m e sticky =>
    let (n, inexact) := roundAt neg m e sticky rnd 0
    let y : Int := if neg then -(n : Int) else n
    let lo : Int := if signed then -(2 ^ (w - 1) : Int) else 0
    let hi : Int := if signed then 2 ^ (w - 1) - 1 else 2 ^ w - 1
    let nx := if inexact then stNX else 0
    if y < lo then (wrapN w lo, nx + stOF)
    else if hi < y then (wrapN w hi, nx + stOF)
    else (wrapN w y, nx)

/-- Round to the type with ETYPE code t (05 R79, R80); T5 rounds to nothing. -/
def roundTo (t rnd : Nat) (sat : Bool) (x : Exact) : Nat × Nat :=
  match floatFmt t with
  | some f => roundF f rnd sat x
  | none => match intFmt t with
    | some (w, signed) => roundI w signed rnd x
    | none => (0, 0)

/-- The value of an element of type t as an exact real (05 R74, R75). -/
def elemExact (t x : Nat) : Exact :=
  match floatFmt t with
  | some f => (fdecode f x).exact
  | none => match intFmt t with
    | some (w, signed) => let v := asInt x w signed; .fin (v < 0) v.natAbs 0 false
    | none => .fin false 0 0 false

/-- The value of an element of type t: a floating-point value or an integer's. -/
def elemVal (t x : Nat) : FVal :=
  match floatFmt t with
  | some f => fdecode f x
  | none => match intFmt t with
    | some (w, signed) => let v := asInt x w signed; .fin (v < 0) v.natAbs 0
    | none => .fin false 0 0

/-! ### Exact arithmetic -/

/-- (-1)^neg * m at exponent e, scaled down to exponent lo ≤ e. -/
def scaledInt (neg : Bool) (m : Nat) (e lo : Int) : Int :=
  let v : Int := (m * 2 ^ (e - lo).toNat : Nat)
  if neg then -v else v

/-- The sign of an exact zero sum: of like-signed zeros that sign, otherwise + except under RDN
(06 R110). -/
def zeroSign (rnd : Nat) (allNeg allPos : Bool) : Bool :=
  if allNeg then true else if allPos then false else rnd = 3

/-- The exact sum of finite terms (sign, m, e); its zero sign by `zeroSign` over all terms
(06 R110, R118). -/
def sumFin (rnd : Nat) (ts : List (Bool × Nat × Int)) : Exact :=
  let lo := ts.foldl (fun a t => min a t.2.2) 0
  let s := ts.foldl (fun a t => a + scaledInt t.1 t.2.1 t.2.2 lo) 0
  if s = 0 then
    .fin (zeroSign rnd (ts.all fun t => t.1 && t.2.1 = 0) (ts.all fun t => !t.1 && t.2.1 = 0)) 0 0 false
  else .fin (s < 0) s.natAbs lo false

/-- Whether some term is a NaN, a signalling NaN, +infinity, -infinity. -/
def anyNaN (ts : List FVal) : Bool := ts.any fun | .nan _ => true | _ => false
def anySNaN (ts : List FVal) : Bool := ts.any fun | .nan s => s | _ => false
def anyInf (neg : Bool) (ts : List FVal) : Bool := ts.any fun | .inf n => n == neg | _ => false

/-- The finite terms. -/
def finTerms : List FVal → List (Bool × Nat × Int)
  | [] => []
  | .fin n m e :: r => (n, m, e) :: finTerms r
  | _ :: r => finTerms r

/-- An exact result with the invalid flag: NV is set besides what Round sets (06 R109). -/
abbrev Res := Exact × Nat

/-- The exact sum of values (06 R110, R118): NaN operands give NaN, opposite infinities NaN with NV. -/
def sumVals (rnd : Nat) (ts : List FVal) : Res :=
  if anyNaN ts then (.nan false, 0)
  else if anyInf true ts && anyInf false ts then (.nan false, stNV)
  else if anyInf true ts then (.inf true, 0)
  else if anyInf false ts then (.inf false, 0)
  else (sumFin rnd (finTerms ts), 0)

/-- The exact product (06 R110): 0 times infinity is NaN, with NV in the second component. -/
def mulVal : FVal → FVal → FVal × Nat
  | .nan _, _ => (.nan false, 0)
  | _, .nan _ => (.nan false, 0)
  | .inf a, .inf b => (.inf (a != b), 0)
  | .inf a, .fin b m _ => if m = 0 then (.nan false, stNV) else (.inf (a != b), 0)
  | .fin a m _, .inf b => if m = 0 then (.nan false, stNV) else (.inf (a != b), 0)
  | .fin a m e, .fin b n f => (.fin (a != b) (m * n) (e + f), 0)

/-- -x. -/
def negVal : FVal → FVal
  | .nan s => .nan s
  | .inf n => .inf (!n)
  | .fin n m e => .fin (!n) m e

/-- A signalling NaN operand sets NV (05 R77, 06 R109). -/
def snanFlag (xs : List FVal) : Nat := if anySNaN xs then stNV else 0

/-- x + y (06 R110). -/
def addF (rnd : Nat) (x y : FVal) : Res :=
  let (e, f) := sumVals rnd [x, y]
  (e, f ||| snanFlag [x, y])

/-- x * y (06 R110). -/
def mulF (x y : FVal) : Res :=
  let (p, f) := mulVal x y
  (p.exact, f ||| snanFlag [x, y])

/-- x * y + z with one rounding (06 R110): 0 times infinity is invalid even when z is a quiet NaN. -/
def fmaF (rnd : Nat) (x y z : FVal) : Res :=
  let (p, f) := mulVal x y
  let (e, g) := sumVals rnd [p, z]
  (e, f ||| g ||| snanFlag [x, y, z])

/-- x / y (06 R110). -/
def divF (x y : FVal) : Res :=
  let s := snanFlag [x, y]
  match x, y with
  | .nan _, _ => (.nan false, s)
  | _, .nan _ => (.nan false, s)
  | .inf _, .inf _ => (.nan false, stNV)
  | .inf a, .fin b _ _ => (.inf (a != b), 0)
  | .fin a _ _, .inf b => (.fin (a != b) 0 0 false, 0)
  | .fin a m e, .fin b n f =>
    if n = 0 then (if m = 0 then (.nan false, stNV) else (.inf (a != b), stDZ))
    else if m = 0 then (.fin (a != b) 0 0 false, 0)
    else
      let k := 64 + bitLen n
      let q := m * 2 ^ k / n
      (.fin (a != b) q (e - f - (k : Int)) (decide (m * 2 ^ k % n ≠ 0)), 0)

/-- The integer square root of n below 2^(2k), bit by bit from bit k - 1 down. -/
def isqrtBits (n : Nat) : Nat → Nat → Nat
  | 0, r => r
  | k + 1, r =>
    let t := r + 2 ^ k
    if t * t ≤ n then isqrtBits n k t else isqrtBits n k r

/-- The integer square root. -/
def isqrt (n : Nat) : Nat := isqrtBits n (bitLen n / 2 + 1) 0

/-- The square root of a positive m * 2^e, to more than 60 bits and a sticky flag. -/
def sqrtPos (m : Nat) (e : Int) : Exact :=
  let e' := e - 128
  let odd := decide (e' % 2 ≠ 0)
  let e2 := if odd then e' - 1 else e'
  let n := m * 2 ^ (128 + b2n odd)
  let r := isqrt n
  .fin false r (e2 / 2) (decide (r * r ≠ n))

/-- The square root (06 R110). -/
def sqrtF (x : FVal) : Res :=
  match x with
  | .nan s => (.nan false, if s then stNV else 0)
  | .inf n => if n then (.nan false, stNV) else (.inf false, 0)
  | .fin n m e => if m = 0 then (.fin n 0 0 false, 0) else if n then (.nan false, stNV) else (sqrtPos m e, 0)

/-- Comparison of finite or infinite values: negative, zero or positive as x is below, equal to or above
y; zeros are equal. -/
def cmpVal : FVal → FVal → Int
  | .inf a, .inf b => (if a then -1 else 1) - (if b then -1 else 1)
  | .inf a, _ => if a then -1 else 1
  | _, .inf b => if b then 1 else -1
  | .fin a m e, .fin b n f =>
    let lo := min e f
    scaledInt a m e lo - scaledInt b n f lo
  | _, _ => 0

/-- Whether a value is a NaN. -/
def FVal.isNaN : FVal → Bool
  | .nan _ => true
  | _ => false

/-- Whether a value carries a minus sign. -/
def FVal.negative : FVal → Bool
  | .inf n => n
  | .fin n _ _ => n
  | .nan _ => false

/-- VFMIN and VFMAX (06 R112): -0 is below +0; one NaN gives the other operand; two give the canonical NaN. -/
def minmaxF (takeMax : Bool) (x y : FVal) : Res :=
  let s := snanFlag [x, y]
  if x.isNaN && y.isNaN then (.nan false, s)
  else if x.isNaN then (y.exact, s)
  else if y.isNaN then (x.exact, s)
  else
    let c := cmpVal x y
    let xLow := decide (c < 0) || (decide (c = 0) && x.negative)
    (if xLow == takeMax then y.exact else x.exact, s)

/-- Rounding a value to an integral value of the same format (06 R114): exact integer, whether it
differs, a zero keeping the sign of x. -/
def rintF (rnd : Nat) : FVal → Res
  | .nan s => (.nan false, if s then stNV else 0)
  | .inf n => (.inf n, 0)
  | .fin n m e =>
    let (k, inexact) := roundAt n m e false rnd 0
    (.fin n k 0 false, if inexact then stNX else 0)

/-- The class bit of an element (06 R113). -/
def fclass (f : FloatFmt) (x : Nat) : Nat :=
  match fdecode f x with
  | .nan s => if s then 2 ^ 8 else 2 ^ 9
  | .inf n => if n then 1 else 2 ^ 7
  | .fin n m _ =>
    if m = 0 then (if n then 2 ^ 3 else 2 ^ 4)
    else if m < 2 ^ f.man then (if n then 2 ^ 2 else 2 ^ 5)
    else (if n then 2 else 2 ^ 6)

/-- An exact real rounded once to F32 under rnd (00 R6). -/
def roundF32 (rnd : Nat) (x : Exact) : Word := BitVec.ofNat 32 (roundF f32 rnd false x).1

/-- The value of an F32 word. -/
def f32Val (x : Word) : FVal := fdecode f32 x.toNat

/-- The F32 sum of two F32 words, rounded (25 R360, 14 R236). -/
def addF32 (rnd : Nat) (x y : Word) : Word := roundF32 rnd (addF rnd (f32Val x) (f32Val y)).1

/-- The decoded trits of a ternary byte (05 R83), and whether the code is legal. -/
def trits (b : Nat) : List Int × Bool :=
  if 242 < b then ([0, 0, 0, 0, 0], false)
  else
    let q0 : Nat := b
    let q1 : Nat := b * 171 / 2 ^ 9
    let q2 : Nat := b * 57 / 2 ^ 9
    let q3 : Nat := b * 19 / 2 ^ 9
    let q4 : Nat := b * 203 / 2 ^ 14
    ([(q0 : Int) - 3 * q1 - 1, (q1 : Int) - 3 * q2 - 1, (q2 : Int) - 3 * q3 - 1,
      (q3 : Int) - 3 * q4 - 1, (q4 : Int) - 1], true)

end Sys2Proof.Machine
end

