-- ==== Sys2Proof/Machine/Flags.lean ====
section
/-! DEFINITION. The MODE register (03 R53 to R55) and the lane status word (04 R71, R72). -/

namespace Sys2Proof.Machine

/-! ### MODE -/

/-- [5:0] GUARD. -/
def modeGuard (m : Word) : Nat := bits m.toNat 5 0
/-- [6] GEN. -/
def modeGen (m : Word) : Bool := m.getLsbD 6
/-- [7] GNEG. -/
def modeGneg (m : Word) : Bool := m.getLsbD 7
/-- [13:8] MEMB. -/
def modeMemb (m : Word) : Nat := bits m.toNat 13 8
/-- [14] MEN. -/
def modeMen (m : Word) : Bool := m.getLsbD 14
/-- [18:15] ETYPE. -/
def modeEtype (m : Word) : Nat := bits m.toNat 18 15
/-- [21:19] RND. -/
def modeRnd (m : Word) : Nat := bits m.toNat 21 19
/-- [22] SAT. -/
def modeSat (m : Word) : Bool := m.getLsbD 22
/-- [23] TRAPDIV. -/
def modeTrapDiv (m : Word) : Bool := m.getLsbD 23
/-- [26:24] SCOPE. -/
def modeScope (m : Word) : Nat := bits m.toNat 26 24
/-- [27] TRAPNV. -/
def modeTrapNv (m : Word) : Bool := m.getLsbD 27

/-- The values that SETMODE accepts (03 R55). -/
def modeLegal (m : Word) : Bool :=
  decide (modeRnd m ≤ 4) && decide (modeScope m ≤ 5) && decide (bits m.toNat 31 28 = 0) &&
  (!modeGen m || decide (modeGuard m + Config.maskRegs - 1 ≤ 63)) &&
  (!modeMen m || decide (modeMemb m + Config.maskRegs - 1 ≤ 63))

/-- The integer element types of 06 R101. -/
def isIntType (t : Nat) : Bool := decide (t ≤ 5) || decide (t = 14)

/-- The floating-point element types of 06 R109. -/
def isFpType (t : Nat) : Bool := decide (t = 6) || decide (t = 7) || decide (t = 8)

/-- The signed integer types (05 R74). -/
def isSigned (t : Nat) : Bool := decide (t = 0) || decide (t = 2) || decide (t = 4) || decide (t = 14)

/-! ### Lane status -/

/-- The status word of a lane after bits are set (04 R72): only bits [5:0] exist. -/
def stickySet (st : Word) (b : Nat) : Word := st ||| BitVec.ofNat 32 (b % 64)

/-- The status word of a lane after bits are cleared (06 R108). -/
def stickyClr (st : Word) (b : Word) : Word := st &&& ~~~(b &&& 0x3F)

/-- Whether a set of status bits holds DZ, OV or NV. -/
def hasBit (f b : Nat) : Bool := decide (f / b % 2 = 1)

/-! ### Fault kinds (19 R282, R283) -/

/-- The code of a fault kind. -/
def FaultKind.code : FaultKind → Nat
  | .illegalOpcode => 0x01
  | .reservedField => 0x02
  | .illegalMode => 0x03
  | .regBounds => 0x04
  | .hazard => 0x05
  | .divergeDepth => 0x06
  | .misaligned => 0x08
  | .outOfRange => 0x09
  | .rangeLocked => 0x0A
  | .spillOverflow => 0x0B
  | .spillUnderflow => 0x0C
  | .memberMismatch => 0x10
  | .joinCycle => 0x11
  | .batchAhead => 0x12
  | .waitTimeout => 0x13
  | .barrierBroken => 0x14
  | .translation => 0x18
  | .permission => 0x19
  | .sealTag => 0x1A
  | .worldRefused => 0x1B
  | .badCommand => 0x1C
  | .sparseMeta => 0x1D
  | .redundancyMismatch => 0x20
  | .filterInvalid => 0x21
  | .slotInvalid => 0x22
  | .spliceLogFull => 0x28
  | .spliceIndex => 0x29
  | .tripodScope => 0x30
  | .divide => 0x31
  | .invalidOp => 0x32
  | .softError => 0x38
  | .trap => 0x3F

/-- The code of a fault class (19 R283). -/
def FaultClass.code : FaultClass → Nat
  | .lane => 0
  | .path => 1
  | .batch => 2

end Sys2Proof.Machine
end

