-- ==== Sys2Proof/Machine/Operands.lean ====
section
/-! DEFINITION. What an issuing instruction reads: the path it acts for, registers and lane status with
writes outstanding (04 R64 to R68), the guard (03 R56), the B operand (03 R42), and what the core checks
and traces of a word at issue (03 R50, 20 R308). -/

namespace Sys2Proof

/-- Distance to the word's successor (04 R62). -/
def Src.len : Src → Nat
  | .reg _ => 4
  | .lit _ => 8

/-- The vector register of a v/# operand. -/
def Src.vregs : Src → List Nat
  | .reg r => [r.toNat]
  | .lit _ => []

/-- The scalar register of an s/# operand, in the code of `Shape.reads`. -/
def Src.sregs : Src → List Nat
  | .reg r => [256 + r.toNat]
  | .lit _ => []

end Sys2Proof

namespace Sys2Proof.Machine

/-! ### The issuing path -/

/-- The state at issue and the path that issues, with its warp, block and launch. -/
structure Ctx where
  s : State
  ref : WarpRef
  slot : Bool
  l : Launch
  b : Block
  w : Warp
  p : Path
  deriving DecidableEq, Repr

/-- A path with its surroundings. -/
def State.ctxAt? (s : State) (ref : WarpRef) (slot : Bool) : Option Ctx :=
  match s.warp? ref, s.block? ref.launch ref.block, s.launch? ref.launch with
  | some w, some b, some l =>
    match w.path? slot with
    | some p => some ⟨s, ref, slot, l, b, w, p⟩
    | none => none
  | _, _, _ => none

/-- The path that the issuer names. -/
def State.ctx? (s : State) : Option Ctx :=
  match s.issuer with
  | some i => s.ctxAt? i.ref i.slot
  | none => none

/-- The outstanding writes of both live paths (08 R153: VREADL and helper lanes read across paths). -/
def Ctx.outs (c : Ctx) : List PendingWrite :=
  c.p.writes ++ (match c.w.path? (!c.slot) with | some q => q.writes | none => [])

/-- The values outstanding for a target, oldest first. -/
def outValues (t : WTarget) : List PendingWrite → List Word
  | [] => []
  | x :: r => if x.target = t then x.value :: outValues t r else outValues t r

/-- A read that may be early (04 R66): the value before, or one of the values outstanding; free. -/
def earlyChoice (free code : Nat) (old : Word) : List Word → Word
  | [] => old
  | x :: r =>
    let cs := old :: x :: r
    cs.getD (Config.freeIndex free code % cs.length) old

/-- Scalar register n as this issue reads it. -/
def Ctx.sr (c : Ctx) (n : Nat) : Word :=
  earlyChoice c.s.free (100000 + n) (get0 c.w.sregs n) (outValues (.s n) c.outs)

/-- The lane word V(n, lane) as this issue reads it. -/
def Ctx.v (c : Ctx) (n lane : Nat) : Word :=
  earlyChoice c.s.free (32 * n + lane) (get0 c.w.vregs (32 * n + lane)) (outValues (.v n lane) c.outs)

/-- S2(n) (04 R59, R73). -/
def Ctx.sr2 (c : Ctx) (n : Nat) : Nat := (c.sr n).toNat + 2 ^ 32 * (c.sr (n + 1)).toNat

/-- One outstanding status write applied or not, freely (04 R64, R66). -/
def statusRead (free code : Nat) (lane : Nat) (st : Word) : List PendingWrite → Word
  | [] => st
  | x :: r =>
    match x.target with
    | .stSet l =>
      let st' := if l = lane then (if Config.freeBit free code then st ||| x.value else st) else st
      statusRead free (code + 1) lane st' r
    | .stClr l =>
      let st' := if l = lane then (if Config.freeBit free code then stickyClr st x.value else st) else st
      statusRead free (code + 1) lane st' r
    | _ => statusRead free (code + 1) lane st r

/-- A lane's status word as this issue reads it. -/
def Ctx.status (c : Ctx) (lane : Nat) : Word :=
  statusRead c.s.free (200000 + 1000 * lane) lane (get0 c.w.status lane) c.p.writes

/-! ### Guard and Active (03 R56, 04 R73) -/

/-- The lanes that MODE's guard lets through (03 R56). -/
def Ctx.guardMask (c : Ctx) : LaneMask :=
  if modeGen c.p.mode then (c.sr (modeGuard c.p.mode)) ^^^ (if modeGneg c.p.mode then BitVec.allOnes 32 else 0)
  else BitVec.allOnes 32

/-- The lanes in which a RETRY re-executes; all otherwise (19 R290). -/
def Ctx.onlyMask (c : Ctx) : LaneMask := c.p.only.getD (BitVec.allOnes 32)

/-- Active: the path's non-exited, unguarded lanes. -/
def Ctx.active (c : Ctx) : LaneMask := c.p.lanes &&& c.guardMask &&& c.onlyMask

/-- The s-register of the guard, when it is read. -/
def Ctx.guardReads (c : Ctx) : List Nat := if modeGen c.p.mode then [256 + modeGuard c.p.mode] else []

/-- The element type in force. -/
def Ctx.etype (c : Ctx) : Nat := modeEtype c.p.mode

/-- The rounding mode in force. -/
def Ctx.rnd (c : Ctx) : Nat := modeRnd c.p.mode

/-- SAT in force. -/
def Ctx.sat (c : Ctx) : Bool := modeSat c.p.mode

/-! ### The B operand (03 R42) -/

/-- OpB(lane) of a vector operand. -/
def Ctx.vb (c : Ctx) (b : Src) (lane : Nat) : Word :=
  match b with
  | .reg r => c.v r.toNat lane
  | .lit w => w

/-- OpB of a scalar operand. -/
def Ctx.sb (c : Ctx) (b : Src) : Word :=
  match b with
  | .reg r => c.sr r.toNat
  | .lit w => w

/-! ### What the core checks and traces of a word -/

/-- A word at issue: the marker, the distance to its successor, the vector registers its fields name (for
03 R50), and every register it reads, vN as N and sN as 256 + N (for 20 R308, 21 R324). -/
structure Shape where
  m : Bool
  len : Nat
  vregs : List Nat
  reads : List Nat
  deriving DecidableEq, Repr

/-- A field as the code of a scalar register. -/
def sRd (f : Field) : Nat := 256 + f.toNat

/-- op vD, vA, vB: D is read too when rd. -/
def Shape.vvv (m rd : Bool) (d a : Field) (b : Src) : Shape :=
  ⟨m, b.len, d.toNat :: a.toNat :: b.vregs, a.toNat :: (b.vregs ++ if rd then [d.toNat] else [])⟩

/-- op vD, vA. -/
def Shape.vv (m : Bool) (d a : Field) : Shape := ⟨m, 4, [d.toNat, a.toNat], [a.toNat]⟩

/-- op vD, vA, #e: D is read too when rd. -/
def Shape.vvl (m rd : Bool) (d a : Field) : Shape :=
  ⟨m, 8, [d.toNat, a.toNat], a.toNat :: if rd then [d.toNat] else []⟩

/-- op sD, vA, vB. -/
def Shape.svv (m : Bool) (a : Field) (b : Src) : Shape := ⟨m, b.len, a.toNat :: b.vregs, a.toNat :: b.vregs⟩

/-- op sD, sA, sB: D is read too when rd. -/
def Shape.sss (m rd : Bool) (d a : Field) (b : Src) : Shape :=
  ⟨m, b.len, [], sRd a :: (b.sregs ++ if rd then [sRd d] else [])⟩

/-- op sD, sA. -/
def Shape.ss (m : Bool) (a : Field) : Shape := ⟨m, 4, [], [sRd a]⟩

/-- Whether every vector register that a field names lies within the allotment (03 R50). -/
def Shape.inBounds (sh : Shape) (allot : Nat) : Bool := sh.vregs.all fun n => decide (n < allot)

/-- The DEST code of a traced register (20 R307): 0xFF for a register above v127. -/
def destCode (r : Nat) : Nat := if r < 128 then r else if 256 ≤ r then 128 + (r - 256) else 255

/-! ### Results of a lane instruction -/

/-- Register writes by target and lane faults. -/
structure LaneOut where
  writes : List (WTarget × Word)
  faults : List LaneEntry
  deriving DecidableEq, Repr

/-- The traced register of a write target. -/
def WTarget.reg? : WTarget → Option Nat
  | .v n _ => some n
  | .s n => some (256 + n)
  | _ => none

/-- The result of one lane: the words written to registers n, n + 1, …, the status bits set. -/
inductive LaneRes where
  | ok (words : List Word) (status : Nat)
  | fault (k : FaultKind) (detail : Nat) (addr : Word)
  deriving DecidableEq, Repr

/-- The writes of consecutive registers in a lane. -/
def laneWrites (lane : Nat) : Nat → List Word → List (WTarget × Word)
  | _, [] => []
  | n, x :: r => (.v n lane, x) :: laneWrites lane (n + 1) r

/-- What one lane adds: its writes and its status, or its fault (06 R90). -/
def LaneRes.out (d lane : Nat) : LaneRes → LaneOut
  | .ok ws st => ⟨laneWrites lane d ws ++ (if st = 0 then [] else [(.stSet lane, BitVec.ofNat 32 st)]), []⟩
  | .fault k det addr => ⟨[], [⟨lane, k, det, addr⟩]⟩

/-- Run a lane function over lanes in ascending order. -/
def overLanes (d : Nat) (f : Nat → LaneRes) : List Nat → LaneOut
  | [] => ⟨[], []⟩
  | l :: r =>
    let a := (f l).out d l
    let z := overLanes d f r
    ⟨a.writes ++ z.writes, a.faults ++ z.faults⟩

/-- The lanes that a list of entries names. -/
def faultMask (es : List LaneEntry) : LaneMask := maskOf (es.map LaneEntry.lane)

/-! ### Elements of a lane word (04 R60) -/

/-- The elements of a word under width w, lowest first, from element k on. -/
def elemsFrom (x w : Nat) : Nat → Nat → List Nat
  | _, 0 => []
  | k, n + 1 => elemAt x w k :: elemsFrom x w (k + 1) n

/-- The 32 / w elements of a word. -/
def elemsOf (x w : Nat) : List Nat := elemsFrom x w 0 (32 / w)

/-- Map a one-element operation over a word. -/
def mapElems (w : Nat) (f : Nat → Nat) (x : Word) : Word := BitVec.ofNat 32 (packElems w ((elemsOf x.toNat w).map f))

/-- Map a two-element operation over two words. -/
def zipElems (w : Nat) (f : Nat → Nat → Nat) (x y : Word) : Word :=
  BitVec.ofNat 32 (packElems w (List.zipWith f (elemsOf x.toNat w) (elemsOf y.toNat w)))

/-- Map a three-element operation over three words. -/
def zip3Elems (w : Nat) (f : Nat → Nat → Nat → Nat) (x y z : Word) : Word :=
  BitVec.ofNat 32 (packElems w (List.zipWith (fun g e => g e)
    (List.zipWith (fun a b => f a b) (elemsOf x.toNat w) (elemsOf y.toNat w)) (elemsOf z.toNat w)))

/-- Operations that also give status bits: the packed word and the union of the bits. -/
def packRes (w : Nat) (rs : List (Nat × Nat)) : Word × Nat :=
  (BitVec.ofNat 32 (packElems w (rs.map Prod.fst)), rs.foldl (fun a r => a ||| r.2) 0)

end Sys2Proof.Machine
end

