-- ==== Sys2Proof/Machine/Paths.lean ====
section
/-! DEFINITION. What happens inside one warp to its paths: outstanding writes land (04 R64 to R69), paths
split (07 R137), enter groups and leave them (07 R138, R141; 08 R155), lanes exit (06 R99), and a cycle of
waiting groups is found (07 R139). -/

namespace Sys2Proof.Machine

/-! ### Landing -/

/-- Whether a target is a register. -/
def WTarget.isReg : WTarget → Bool
  | .v _ _ => true
  | .s _ => true
  | _ => false

/-- The lane of a status target. -/
def WTarget.stLane : WTarget → Nat
  | .stSet l => l
  | .stClr l => l
  | _ => 0

/-- A value written into the register file or a status word. -/
def Warp.commit (w : Warp) (t : WTarget) (x : Word) : Warp :=
  match t with
  | .v n l => { w with vregs := put0 w.vregs (32 * n + l) x, soft := w.soft.filter fun e => decide (e ≠ (n, l)) }
  | .s n => { w with sregs := put0 w.sregs n x, soft := w.soft.filter fun e => decide (e ≠ (256 + n, 0)) }
  | .stSet l => { w with status := put0 w.status l (get0 w.status l ||| (x &&& 0x3F)) }
  | .stClr l => { w with status := put0 w.status l (stickyClr (get0 w.status l) x) }

/-- Commit writes in order. -/
def Warp.commitAll (w : Warp) : List (WTarget × Word) → Warp
  | [] => w
  | (t, x) :: r => (w.commit t x).commitAll r

/-- Land register writes: of several to one target one remains, freely (04 R67). The first number bounds
the writes left. -/
def Warp.landRegs (free : Nat) : Nat → Nat → Warp → List PendingWrite → Warp
  | 0, _, w, _ => w
  | _, _, w, [] => w
  | n + 1, code, w, x :: r =>
    match outValues x.target r with
    | [] => landRegs free n (code + 1) (w.commit x.target x.value) r
    | v :: vs =>
      let y := (x.value :: v :: vs).getD (Config.freeIndex free (500000 + code) % (vs.length + 2)) x.value
      landRegs free n (code + 1) (w.commit x.target y) (r.filter fun z => decide (z.target ≠ x.target))

/-- The status writes of a path in the order in which they land: a lane that has both a set and a clear
outstanding lands them in either order (04 R67, 06 R108). -/
def statusOrder (free : Nat) (ws : List PendingWrite) : List PendingWrite :=
  let mixed (l : Nat) : Bool :=
    (ws.any fun x => decide (x.target = .stSet l)) && (ws.any fun x => decide (x.target = .stClr l))
  let flip (x : PendingWrite) : Bool := mixed x.target.stLane && Config.freeBit free (400000 + x.target.stLane)
  (ws.filter fun x => !flip x) ++ (ws.filter flip).reverse

/-- Land every outstanding write of a path (04 R65, R69). -/
def Warp.landPath (free : Nat) (w : Warp) (slot : Bool) : Warp :=
  match w.path? slot with
  | none => w
  | some p =>
    let regs := p.writes.filter fun x => x.target.isReg
    let sts := p.writes.filter fun x => !x.target.isReg
    let w := Warp.landRegs free regs.length 0 w regs
    let w := w.commitAll ((statusOrder free sts).map fun x => (x.target, x.value))
    w.setPath slot (some { p with
      writes := [], uncovered := [], park := if p.park = .marker ∧ p.pending = [] then .none else p.park })

/-- Whether a write belongs to the same result as the one listed before it: a further word of a lane's result, or
the status bits that come with it (04 R64). -/
def PendingWrite.follows (a b : PendingWrite) : Bool :=
  decide (a.no = b.no) &&
  (match a.target, b.target with
    | .v _ l, .v _ m => decide (l = m)
    | .v _ l, .stSet m => decide (l = m)
    | .s _, .stSet _ => true
    | .stSet _, .stSet _ => true
    | _, _ => false)

/-- The first result of a list of writes, after the write a, and the writes behind it. -/
def resultFrom (a : PendingWrite) : List PendingWrite → List PendingWrite × List PendingWrite
  | [] => ([a], [])
  | b :: r => if a.follows b then (a :: (resultFrom b r).1, (resultFrom b r).2) else ([a], b :: r)

/-- The writes that land when write k lands, and those left: write k alone, or with its whole result when status
bits belong to it, for those are written together with it (04 R64). The first number bounds the writes. -/
def landingOf : Nat → Nat → List PendingWrite → List PendingWrite × List PendingWrite
  | 0, _, ws => ([], ws)
  | _, _, [] => ([], [])
  | n + 1, k, a :: r =>
    let x := resultFrom a r
    if k < x.1.length then
      if x.1.any fun y => !y.target.isReg then x
      else ((x.1[k]?).toList, x.1.eraseIdx k ++ x.2)
    else
      let y := landingOf n (k - x.1.length) x.2
      (y.1, x.1 ++ y.2)

/-- Land one outstanding result (95: WRITE_LANDING), the one that write k belongs to; the marker's park ends when
the set empties (04 R65). -/
def Warp.landOne (w : Warp) (slot : Bool) (k : Nat) : Warp :=
  match w.path? slot with
  | none => w
  | some p =>
    let x := landingOf p.writes.length k p.writes
    (w.commitAll (x.1.map fun y => (y.target, y.value))).setPath slot
      (some { p with writes := x.2, park := if x.2 = [] ∧ p.pending = [] ∧ p.park = .marker then .none else p.park })

/-! ### Places of lanes -/

/-- A path made of a pending entry, with the stack below it. -/
def PendEntry.path (e : PendEntry) (stack : List PendEntry) : Path :=
  { Path.start e.pc e.lanes with mode := e.mode, ix := e.ix, carry := e.carry, stack := stack }

/-- The slot's path gives up its lanes: the top entry of its stack continues there, else the slot is free
(07 R138 step 4). -/
def Path.popped (p : Path) : Option Path :=
  match p.stack with
  | [] => none
  | e :: r => some (e.path r)

/-- The lanes of a list of arrivals. -/
def arrivalLanes : List Arrival → LaneMask
  | [] => 0
  | a :: r => a.lanes ||| arrivalLanes r

/-- The Active lanes that a list of arrivals brought. -/
def arrivalActive : List Arrival → LaneMask
  | [] => 0
  | a :: r => (a.active &&& a.lanes) ||| arrivalActive r

/-- The lanes that a group's key waits for. -/
def GroupKey.mask (w : Warp) : GroupKey → LaneMask
  | .join _ m => m
  | .barrier _ => ~~~w.exited
  | .wide _ u => u

/-- The PC of a group. -/
def GroupKey.pc : GroupKey → Word
  | .join pc _ => pc
  | .barrier pc => pc
  | .wide pc _ => pc

/-- The wanted set of a group (07 R138), with the lanes that a JOIN_CYCLE took out of it (07 R139). -/
def JoinGroup.wanted (w : Warp) (g : JoinGroup) : LaneMask :=
  (g.key.mask w ||| arrivalLanes g.arrivals ||| g.left) &&& ~~~w.exited

/-- Whether a group holds its wanted set. -/
def JoinGroup.complete (w : Warp) (g : JoinGroup) : Bool :=
  decide (g.wanted w &&& ~~~(arrivalLanes g.arrivals) = 0)

/-- The arrival that brought a lane. -/
def arrivalOf (lane : Nat) (as : List Arrival) : Option Arrival := as.find? fun a => a.lanes.getLsbD lane

/-- The path that a completed group becomes (07 R138 step 3, R141; 08 R155): MODE and ix of the path that
brought the lowest lane, of P for a warp-wide operation (08 R146). -/
def JoinGroup.toPath (g : JoinGroup) : Path :=
  let lanes := arrivalLanes g.arrivals
  let from' (m : LaneMask) : Option Arrival := arrivalOf (lowestLane m) g.arrivals
  match g.key with
  | .join pc _ =>
    let a := from' lanes
    { Path.start (pc + 4) lanes with mode := (a.map Arrival.mode).getD 0, ix := (a.map Arrival.ix).getD 0 }
  | .barrier pc =>
    let a := from' lanes
    { Path.start pc lanes with mode := (a.map Arrival.mode).getD 0, ix := (a.map Arrival.ix).getD 0 }
  | .wide pc u =>
    let p := u &&& lanes
    let a := if p = 0 then from' lanes else from' p
    { Path.start pc lanes with
      mode := (a.map Arrival.mode).getD 0
      ix := (a.map Arrival.ix).getD 0
      carry := some (p, p &&& arrivalActive g.arrivals) }

/-- A completed group as a pending entry (07 R138). -/
def JoinGroup.toEntry (g : JoinGroup) : PendEntry :=
  let p := g.toPath
  ⟨p.pc, p.lanes, p.mode, p.ix, p.carry⟩

/-- Put an arrival into the group of its key. -/
def joinGroup (k : GroupKey) (a : Arrival) : List JoinGroup → List JoinGroup
  | [] => [⟨k, [a], none, 0⟩]
  | g :: r => if g.key = k then { g with arrivals := g.arrivals ++ [a] } :: r else g :: joinGroup k a r

/-- The group of a key. -/
def Warp.group? (w : Warp) (k : GroupKey) : Option JoinGroup := findBy JoinGroup.key k w.groups

/-- Remove the group of a key. -/
def dropGroup (k : GroupKey) (gs : List JoinGroup) : List JoinGroup := gs.filter fun g => decide (g.key ≠ k)

/-- A path's lanes enter a group (07 R138 steps 2 to 4): when the group then holds its wanted set it
becomes one path in this slot, over this path's stack; else the slot's stack pops. The Bool says that it
completed. -/
def Warp.enter (w : Warp) (slot : Bool) (k : GroupKey) (active : LaneMask) : Warp × Bool :=
  match w.path? slot with
  | none => (w, false)
  | some p =>
    let a : Arrival := ⟨p.lanes, active, p.mode, p.ix, w.arrivals⟩
    let w := { w with groups := joinGroup k a w.groups, arrivals := w.arrivals + 1 }
    match w.group? k with
    | none => (w, false)
    | some g =>
      if g.complete w then
        ({ w with groups := dropGroup k w.groups }.setPath slot (some { g.toPath with stack := p.stack }), true)
      else (w.setPath slot p.popped, false)

/-- Place a completed group: a free slot, else an entry on the actor's stack while it is below 16
(07 R138). -/
def Warp.place? (w : Warp) (g : JoinGroup) (actor : Bool) : Option Warp :=
  match w.p0, w.p1, w.path? actor with
  | none, _, _ => some (w.setPath false (some g.toPath))
  | _, none, _ => some (w.setPath true (some g.toPath))
  | _, _, some p =>
    if p.stack.length < 16 then some (w.setPath actor (some { p with stack := g.toEntry :: p.stack })) else none
  | _, _, none => none

/-- Complete every group that now holds its wanted set; one that finds no place is held for the actor. DESIGN CHOICE
(notes/assumptions/47.md): of groups that one exit or arrival completes, the one made first takes a free slot, and the next is
pushed on the stack of the path that then stands in the actor's slot, which is that first one where the actor has gone. -/
def Warp.placeGroups (actor : Bool) : Warp → List JoinGroup → Warp
  | w, [] => w
  | w, g :: r =>
    if g.complete w then
      let who := g.held.getD actor
      match ({ w with groups := dropGroup g.key w.groups } : Warp).place? g who with
      | some w' => placeGroups actor w' r
      | none =>
        placeGroups actor
          { w with groups := w.groups.map fun h => if h.key = g.key then { h with held := some who } else h } r
    else placeGroups actor w r

/-- Complete groups after lanes have moved or exited (07 R138). -/
def Warp.settle (w : Warp) (actor : Bool) : Warp := Warp.placeGroups actor w w.groups

/-! ### Exit -/

/-- Remove lanes from pending entries. -/
def stripEntries (x : LaneMask) (es : List PendEntry) : List PendEntry :=
  (es.map fun e => { e with lanes := e.lanes &&& ~~~x }).filter fun e => decide (e.lanes ≠ 0)

/-- Remove lanes from a path; an empty path pops its stack. -/
def Path.strip (x : LaneMask) (p : Path) : Option Path :=
  let p := { p with lanes := p.lanes &&& ~~~x, stack := stripEntries x p.stack }
  if p.lanes = 0 then p.popped else some p

/-- Remove lanes from groups. -/
def stripGroups (x : LaneMask) (gs : List JoinGroup) : List JoinGroup :=
  (gs.map fun g =>
    { g with arrivals := (g.arrivals.map fun a => { a with lanes := a.lanes &&& ~~~x }).filter fun a => decide (a.lanes ≠ 0) }
  ).filter fun g => decide (g.arrivals ≠ [])

/-- Lanes exit (06 R99): they leave every place and every wanted set. -/
def Warp.exitLanes (w : Warp) (x : LaneMask) : Warp :=
  { w with
    exited := w.exited ||| x
    p0 := w.p0.bind (Path.strip x)
    p1 := w.p1.bind (Path.strip x)
    groups := stripGroups x w.groups }

/-- Every lane of the warp has exited. -/
def Warp.allExited (w : Warp) : Bool := decide (w.exited = BitVec.allOnes 32)

/-! ### Split (07 R137) -/

/-- Steps 5 and 6: T continues at the label, N at PC + 8, in the free slot or on the stack; none when the
stack is full. -/
def Warp.split (w : Warp) (slot : Bool) (p : Path) (t n : LaneMask) (target next : Word) : Option Warp :=
  let taken (stack : List PendEntry) : Path :=
    { Path.start target t with mode := p.mode, ix := p.ix, stack := stack }
  match w.path? (!slot) with
  | none =>
    let side : Path := { Path.start next n with mode := p.mode, ix := p.ix }
    some ((w.setPath slot (some (taken p.stack))).setPath (!slot) (some side))
  | some _ =>
    if p.stack.length < 16 then
      some (w.setPath slot (some (taken (⟨next, n, p.mode, p.ix, none⟩ :: p.stack))))
    else none

/-! ### JOIN_CYCLE (07 R139) -/

/-- No lane of the warp can go on: every non-exited lane stands in a group that lacks lanes. -/
def Warp.stuck (w : Warp) : Bool :=
  w.p0.isNone && w.p1.isNone && decide (w.groups ≠ []) && w.groups.all fun g => !g.complete w

/-- The earliest arrival of the warp's groups, with its group's key. -/
def firstArrival : List JoinGroup → Option (GroupKey × Arrival)
  | [] => none
  | g :: r =>
    let best := g.arrivals.foldl (fun (b : Option (GroupKey × Arrival)) a =>
      match b with
      | none => some (g.key, a)
      | some (k, x) => if a.seq < x.seq then some (g.key, a) else some (k, x)) none
    match best, firstArrival r with
    | none, o => o
    | some b, none => some b
    | some (k, a), some (k', a') => if a'.seq < a.seq then some (k', a') else some (k, a)

/-- The path that parked first leaves its group and stands again as a live path at its PC. -/
def Warp.unstick (w : Warp) : Option Warp :=
  match firstArrival w.groups with
  | none => none
  | some (k, a) =>
    let gs := w.groups.map fun g =>
      if g.key = k then { g with
        arrivals := g.arrivals.filter fun b => decide (b.seq ≠ a.seq), left := g.left ||| a.lanes } else g
    some { w with
      groups := gs.filter fun g => decide (g.arrivals ≠ [])
      p0 := some { Path.start k.pc a.lanes with mode := a.mode, ix := a.ix } }

/-! ### Where lanes stand (19 R289) -/

/-- The lanes held in a path's pending entries. -/
def entryLanes : List PendEntry → LaneMask
  | [] => 0
  | e :: r => e.lanes ||| entryLanes r

/-- The lanes of an optional path. -/
def pathLanes (p : Option Path) : LaneMask := (p.map Path.lanes).getD 0

/-- The lanes held in pending entries or groups (JMASK). -/
def Warp.heldLanes (w : Warp) : LaneMask :=
  ((w.p0.map fun p => entryLanes p.stack).getD 0) ||| ((w.p1.map fun p => entryLanes p.stack).getD 0) |||
  w.groups.foldl (fun m g => m ||| arrivalLanes g.arrivals) 0

/-- PATH of a fault record (19 R286): whether the other live path holds a lower lane. -/
def Warp.pathBit (w : Warp) (slot : Bool) : Bool :=
  decide (lowestLane (pathLanes (w.path? (!slot))) < lowestLane (pathLanes (w.path? slot)))

/-- The group that holds the warp's lowest lane in any group. -/
def Warp.lowestGroup (w : Warp) : Option JoinGroup :=
  let m := w.groups.foldl (fun m g => m ||| arrivalLanes g.arrivals) 0
  w.groups.find? fun g => (arrivalLanes g.arrivals).getLsbD (lowestLane m)

end Sys2Proof.Machine
end

