-- ==== Sys2Proof/Machine/Crypto.lean ====
section
/-! DEFINITION. AES-256-GCM as sealed weights use it (14 R228): the block cipher, its counter mode and the
authentication tag; and AES-256-XTS as device DRAM uses it (24 R343). Words and blocks are big-endian bit vectors, as the cipher's standard numbers them. -/

namespace Sys2Proof.Machine

/-! ### The field of AES -/

/-- Multiply by x in the field of 2^8. -/
def xtime (a : Byte) : Byte := (a <<< 1) ^^^ (if a.getLsbD 7 then 0x1B else 0)

/-- Product in the field of 2^8, over the low n bits of b. -/
def gmulN : Nat → Byte → Byte → Byte
  | 0, _, _ => 0
  | n + 1, a, b => (if b.getLsbD 0 then a else 0) ^^^ gmulN n (xtime a) (b >>> 1)

/-- Product in the field of 2^8. -/
def gmul (a b : Byte) : Byte := gmulN 8 a b

/-- a^254, the inverse of a, and 0 for 0. -/
def ginv (a : Byte) : Byte :=
  let a2 := gmul a a
  let a4 := gmul a2 a2
  let a8 := gmul a4 a4
  let a16 := gmul a8 a8
  let a32 := gmul a16 a16
  let a64 := gmul a32 a32
  gmul (gmul (gmul a2 a4) (gmul a8 a16)) (gmul (gmul a32 a64) (gmul a64 a64))

/-- The substitution of AES: the inverse, then its affine map. -/
def aesSub (x : Byte) : Byte :=
  let b := ginv x
  b ^^^ b.rotateLeft 1 ^^^ b.rotateLeft 2 ^^^ b.rotateLeft 3 ^^^ b.rotateLeft 4 ^^^ 0x63

/-- The bytes of a big-endian value, n of them. -/
def beBytes (n x : Nat) : List Byte := (leBytes n x).reverse

/-- The value of big-endian bytes. -/
def beNat (bs : List Byte) : Nat := leNat bs.reverse

/-- Bytewise exclusive or. -/
def xorBytes (a b : List Byte) : List Byte := List.zipWith (fun x y => x ^^^ y) a b

/-! ### AES-256 -/

/-- The words of the key schedule, newest first; the first number counts the words still to be made. -/
def aesExpand : Nat → Nat → Byte → List (List Byte) → List (List Byte)
  | 0, _, _, ws => ws
  | n + 1, i, rc, ws =>
    let t := ws.headD []
    let t' :=
      if i % 8 = 0 then
        match t.map aesSub with
        | a :: r => List.zipWith (fun x y => x ^^^ y) (r ++ [a]) [rc, 0, 0, 0]
        | [] => []
      else if i % 8 = 4 then t.map aesSub else t
    aesExpand n (i + 1) (if i % 8 = 0 then xtime rc else rc) (xorBytes (ws.getD 7 []) t' :: ws)

/-- A list cut into pieces of n; the first number bounds the pieces. -/
def chunks {α : Type} (n : Nat) : Nat → List α → List (List α)
  | 0, _ => []
  | k + 1, l => if l.isEmpty then [] else l.take n :: chunks n k (l.drop n)

/-- The fifteen round keys. -/
def aesKeys (key : BitVec 256) : List (List Byte) :=
  let w0 := (chunks 4 8 (beBytes 32 key.toNat)).reverse
  ((chunks 4 15 (aesExpand 52 8 1 w0).reverse).map List.flatten)

/-- The row shift: byte r of column c comes from column c + r. -/
def aesShift (s : List Byte) : List Byte := (List.range 16).map fun i => s.getD ((i + 4 * (i % 4)) % 16) 0

/-- The column mix. -/
def aesMix (s : List Byte) : List Byte :=
  (List.range 16).map fun i =>
    let c := i / 4 * 4
    let b (k : Nat) : Byte := s.getD (c + (i + k) % 4) 0
    xtime (b 0) ^^^ (xtime (b 1) ^^^ b 1) ^^^ b 2 ^^^ b 3

/-- The middle rounds. -/
def aesRounds : List (List Byte) → List Byte → List Byte
  | [], s => s
  | [k], s => xorBytes (aesShift (s.map aesSub)) k
  | k :: ks, s => aesRounds ks (xorBytes (aesMix (aesShift (s.map aesSub))) k)

/-- Encrypt a block of 16 bytes under round keys. -/
def aesBlock (ks : List (List Byte)) (b : List Byte) : List Byte :=
  match ks with
  | [] => b
  | k :: r => aesRounds r (xorBytes b k)

/-! ### Decryption -/

/-- The inverse substitution: the inverse affine map, then the inverse. -/
def aesUnsub (x : Byte) : Byte := ginv (x.rotateLeft 1 ^^^ x.rotateLeft 3 ^^^ x.rotateLeft 6 ^^^ 0x05)

/-- The inverse row shift. -/
def aesUnshift (s : List Byte) : List Byte := (List.range 16).map fun i => s.getD ((i + 16 - 4 * (i % 4)) % 16) 0

/-- The inverse column mix. -/
def aesUnmix (s : List Byte) : List Byte :=
  (List.range 16).map fun i =>
    let c := i / 4 * 4
    let b (k : Nat) : Byte := s.getD (c + (i + k) % 4) 0
    gmul (b 0) 14 ^^^ gmul (b 1) 11 ^^^ gmul (b 2) 13 ^^^ gmul (b 3) 9

/-- The rounds undone, under the round keys newest first. -/
def aesUnrounds : List (List Byte) → List Byte → List Byte
  | [], s => s
  | [k], s => xorBytes ((aesUnshift s).map aesUnsub) k
  | k :: ks, s => aesUnrounds ks (aesUnmix (xorBytes ((aesUnshift s).map aesUnsub) k))

/-- Decrypt a block of 16 bytes under round keys. -/
def aesUnblock (ks : List (List Byte)) (b : List Byte) : List Byte :=
  match ks.reverse with
  | [] => b
  | k :: r => aesUnrounds r (xorBytes b k)

/-! ### XTS -/

/-- Multiply a tweak, a little-endian number, by x in the field of 2^128. -/
def xtsDouble (t : Nat) : Nat := if t < 2 ^ 127 then 2 * t else (2 * t - 2 ^ 128) ^^^ 0x87

/-- The blocks of a data unit, each passed through a cipher between two additions of its tweak. -/
def xtsBlocks (f : List Byte → List Byte) : Nat → List (List Byte) → List (List Byte)
  | _, [] => []
  | t, b :: r => xorBytes (f (xorBytes b (leBytes 16 t))) (leBytes 16 t) :: xtsBlocks f (xtsDouble t) r

/-- AES-256-XTS over a data unit of whole blocks with a number: its first key is the upper half of the 512 bits. -/
def xtsUnit (f : List (List Byte) → List Byte → List Byte) (key : BitVec 512) (unit : Nat) (bs : List Byte) : List Byte :=
  let tweak := leNat (aesBlock (aesKeys (key.setWidth 256)) (leBytes 16 unit))
  (xtsBlocks (f (aesKeys ((key >>> 256).setWidth 256))) tweak (chunks 16 (bs.length / 16 + 1) bs)).flatten

/-- Encrypt a data unit. -/
def xtsEncrypt (key : BitVec 512) (unit : Nat) (bs : List Byte) : List Byte := xtsUnit aesBlock key unit bs

/-- Decrypt a data unit. -/
def xtsDecrypt (key : BitVec 512) (unit : Nat) (bs : List Byte) : List Byte := xtsUnit aesUnblock key unit bs

/-! ### GCM -/

/-- Product in the field of 2^128 with GCM's bit order; the number counts the bits of x left. -/
def ghMul : Nat → BitVec 128 → BitVec 128 → BitVec 128 → BitVec 128
  | 0, _, _, z => z
  | n + 1, x, v, z =>
    ghMul n (x <<< 1) ((v >>> 1) ^^^ (if v.getLsbD 0 then (0xE1 : BitVec 128) <<< 120 else 0))
      (if x.getLsbD 127 then z ^^^ v else z)

/-- GHASH of blocks. -/
def ghash (h : BitVec 128) : BitVec 128 → List (List Byte) → BitVec 128
  | y, [] => y
  | y, b :: r => ghash h (ghMul 128 (y ^^^ BitVec.ofNat 128 (beNat b)) h 0) r

/-- Counter-mode output over blocks from a counter on. -/
def ctrBlocks (ks : List (List Byte)) (iv : Nat) : Nat → List (List Byte) → List (List Byte)
  | _, [] => []
  | n, b :: r => xorBytes b (aesBlock ks (beBytes 12 iv ++ beBytes 4 n)) :: ctrBlocks ks iv (n + 1) r

/-- AES-256-GCM over whole blocks without additional data: the tag of a ciphertext. -/
def gcmTag (key : BitVec 256) (iv : Nat) (ct : List Byte) : List Byte :=
  let ks := aesKeys key
  let h := BitVec.ofNat 128 (beNat (aesBlock ks (List.replicate 16 0)))
  let y := ghash h 0 (chunks 16 (ct.length / 16 + 1) ct ++ [beBytes 16 (8 * ct.length)])
  xorBytes (beBytes 16 y.toNat) (aesBlock ks (beBytes 12 iv ++ beBytes 4 1))

/-- Decrypt a ciphertext; encryption is the same. -/
def gcmCrypt (key : BitVec 256) (iv : Nat) (ct : List Byte) : List Byte :=
  (ctrBlocks (aesKeys key) iv 2 (chunks 16 (ct.length / 16 + 1) ct)).flatten

/-- Decrypt and verify; none when the tag fails. -/
def gcmOpen (key : BitVec 256) (iv : Nat) (ct tag : List Byte) : Option (List Byte) :=
  if gcmTag key iv ct = tag then some (gcmCrypt key iv ct) else none

end Sys2Proof.Machine
end

