-- ==== Sys2Proof/Machine/Translate.lean ====
section
/-! DEFINITION. Main memory: the physical map (09 R167), data keys (24 R343), the page-table walk (09 R168,
R169), the translation cache (R170), and reads and writes by virtual address. -/

namespace Sys2Proof.Machine

/-! ### Physical memory -/

/-- Base of the LPDDR-6 range, stride of the GDDR-7 ranges, base of host memory (09 R167). -/
def lpddrBase : Nat := 0x020000000000
def gddrStride : Nat := 2 ^ 36
def hostBase : Nat := 2 ^ 48

/-- How many bits of a unit map are set. -/
def onesOf {w : Nat} (v : BitVec w) : Nat := ((List.range w).filter fun i => v.getLsbD i).length

/-- The LPDDR-6 of a part: 96 GB for each usable channel (01 R17, R19, 28 R387; decimal units, 00 R5). A range
shrinks from its top (notes/assumptions/46.md). -/
def DefectMap.lpddrSize (m : DefectMap) : Nat := 96 * 10 ^ 9 * onesOf m.lpdMap

/-- The GDDR-7 of a die: 6 GB for each usable device (01 R17, R19, 28 R388). -/
def DefectMap.gddrSize (m : DefectMap) (d : Nat) : Nat := 6 * 10 ^ 9 * onesOf ((m.dies[d]?.map DieFuses.gdMap).getD 0)

/-- The die whose GDDR-7 holds an address. -/
def State.gddrDie (s : State) (pa : Nat) : Option Nat :=
  if pa / gddrStride < 8 ∧ pa % gddrStride < s.ctl.map.gddrSize (pa / gddrStride) then some (pa / gddrStride) else none

/-- LPDDR-6. -/
def State.isLpddr (s : State) (pa : Nat) : Bool := decide (lpddrBase ≤ pa) && decide (pa < lpddrBase + s.ctl.map.lpddrSize)

/-- Device DRAM: GDDR-7 or LPDDR-6. -/
def State.isDram (s : State) (pa : Nat) : Bool := (s.gddrDie pa).isSome || s.isLpddr pa

/-- Host memory. -/
def isHostPa (pa : Nat) : Bool := decide (hostBase ≤ pa) && decide (pa < 2 ^ 52)

/-- Whether every byte of [pa, pa + n) is populated (09 R167), for n at least 1: its ends lie in one region. -/
def State.populatedRange (s : State) (pa n : Nat) : Bool :=
  let last := pa + n - 1
  (match s.gddrDie pa, s.gddrDie last with
    | some a, some b => decide (a = b)
    | _, _ => false) ||
  (s.isLpddr pa && s.isLpddr last) || (isHostPa pa && isHostPa last)

/-- The code store: the top 16 GiB of the LPDDR-6 range (04 R62). -/
def DefectMap.codeStoreBase (m : DefectMap) : Nat := lpddrBase + m.lpddrSize - 16 * 2 ^ 30

/-- The control reel region: the 2 GiB directly below (24 R349). -/
def DefectMap.controlReelBase (m : DefectMap) : Nat := m.codeStoreBase - 2 * 2 ^ 30

/-- The negative region of a die's GDDR-7 and the reel region below it (24 R349). -/
def DefectMap.negativeBase (m : DefectMap) (d : Nat) : Nat := d * gddrStride + m.gddrSize d - 2 * 2 ^ 30
def DefectMap.reelBase (m : DefectMap) (d : Nat) : Nat := m.negativeBase d - 256 * 2 ^ 20

/-- Whether [pa, pa + n) meets a region that only the control die's own paths reach (09 R169). -/
def State.forbiddenRange (s : State) (pa n : Nat) : Bool :=
  overlaps pa n s.ctl.map.controlReelBase (18 * 2 ^ 30) ||
  (List.range 8).any fun d => overlaps pa n (s.ctl.map.reelBase d) (2 * 2 ^ 30 + 256 * 2 ^ 20)

/-- The number of a world's current data key (24 R343); 0 is world 0's first key. -/
def State.keyOf (s : State) (world : Nat) : Nat := (tget s.ctl.worldKey world).getD 0

/-- The key under which a 64-byte unit of DRAM was last written. -/
def State.unitKey (s : State) (pa : Nat) : Nat := (tget s.memKeys (pa / 64)).getD 0

/-- The data key of a number (24 R343). -/
def State.dataKey (s : State) (n : Nat) : BitVec 512 := (tget s.ctl.dataKeys n).getD (Config.dataKey n)

/-- A unit of 64 bytes of device DRAM as a world reads it that was written under another key: what stands there is its
ciphertext under that key, and it is decrypted under the world's own; its tweak is the physical address's bits 51 to 6
(24 R343, R346; notes/assumptions/9.md). -/
def State.foreignUnit (s : State) (world unit : Nat) : List Byte :=
  xtsDecrypt (s.dataKey (s.keyOf world)) unit
    (xtsEncrypt (s.dataKey (s.unitKey (64 * unit))) unit (readBytes s.mem (64 * unit) 64))

/-- Read one byte of physical memory for a world: of a unit under the world's own key, the byte; of one under another, a
byte of what decryption gives (24 R343). -/
def State.readByte (s : State) (world pa : Nat) : Byte :=
  if decide (s.unitKey pa ≠ s.keyOf world) && s.isDram pa then (s.foreignUnit world (pa / 64)).getD (pa % 64) 0
  else get0 s.mem pa

/-- Read n bytes of physical memory for a world. -/
def State.readPhys (s : State) (world : Nat) : Nat → Nat → List Byte
  | _, 0 => []
  | pa, n + 1 => s.readByte world pa :: s.readPhys world (pa + 1) n

/-- Write one byte of physical memory for a world. A unit held under another key is first read back
under the new one (24 R343). -/
def State.writeByte (s : State) (world pa : Nat) (b : Byte) : State :=
  if decide (s.unitKey pa ≠ s.keyOf world) && s.isDram pa then
    let base := pa / 64 * 64
    { s with
      mem := put0 (writeBytes s.mem base (s.readPhys world base 64)) pa b
      memKeys := if s.keyOf world = 0 then tdel s.memKeys (pa / 64) else tput s.memKeys (pa / 64) (s.keyOf world) }
  else { s with mem := put0 s.mem pa b }

/-- Write bytes of physical memory for a world. -/
def State.writePhys (s : State) (world : Nat) : Nat → List Byte → State
  | _, [] => s
  | pa, b :: bs => (s.writeByte world pa b).writePhys world (pa + 1) bs

/-- Write a 64-bit word of host memory, which carries no data key (24 R343). -/
def State.writeHost (s : State) (hostPa : Nat) (bs : List Byte) : State :=
  { s with mem := writeBytes s.mem (hostBase + hostPa) bs }

/-! ### Page tables -/

/-- The physical address behind a device physical address of an interface, whose GDDR-7 ranges carry its
logical die numbers (09 R167, 24 R340); an absent logical die has none. -/
def State.physOf (s : State) (i : Mmu) (pa : Nat) : Nat :=
  if pa / gddrStride < 8 then
    match (s.logicalDies i.iface)[pa / gddrStride]? with
    | some d => d * gddrStride + pa % gddrStride
    | none => 2 ^ 60
  else pa

/-- What an access needs of a leaf (09 R169). -/
inductive Need where
  | rd | w | atom
  deriving DecidableEq, Repr

/-- A walk's result: a leaf entry with whether it maps 256 MiB, a fault, or the die that refused the walker's
request for a table (24 R342). -/
inductive Walk where
  | leaf (e : Nat) (big : Bool)
  | fault (k : FaultKind)
  | refused (die : Nat)
  deriving DecidableEq, Repr

/-- A table entry as the control die's walkers read it, under world 0's data key (notes/assumptions/10.md). -/
def State.tableEntry (s : State) (i : Mmu) (table ix : Nat) : Nat := leNat (s.readPhys 0 (s.physOf i table + 8 * ix) 8)

/-- A table of 4,096 entries of 8 bytes lies in GDDR-7 or LPDDR-6 (09 R168, R169). One that lies in the code store,
a negative region or a reel region is walked like any other (notes/assumptions/10.md). -/
def State.tableOk (s : State) (i : Mmu) (t : Nat) : Bool := s.isDram (s.physOf i t) && s.populatedRange (s.physOf i t) 32768

/-- The level-0 table of a port; a table is 64 KiB aligned (09 R168). Of a PTROOT that is not, the low bits are
dropped (notes/assumptions/10.md). -/
def Mmu.table (i : Mmu) : Nat := i.root.toNat / 65536 * 65536

/-- Reserved bits zero and WORLD at most 8 (09 R169). -/
def entryOk (e : Nat) : Bool :=
  decide (bits e 63 52 = 0) && decide (bits e 15 12 = 0) && decide (bits e 7 5 = 0) && decide (bits e 11 8 ≤ 8)

/-- A valid table entry: VALID, no LEAF, WORLD, ATOM, W and RD zero (09 R168, R169). -/
def isTableEntry (e : Nat) : Bool :=
  bitAt e 0 && !bitAt e 1 && entryOk e && decide (bits e 11 8 = 0) && decide (bits e 4 2 = 0)

/-- PADDR as an address. -/
def entryPa (e : Nat) : Nat := bits e 51 16 * 65536

/-- The bits of a VA that name the entry of a level: 51 to 40, 39 to 28, 27 to 16. -/
def levelShift (level : Nat) : Nat := if level = 0 then 40 else if level = 1 then 28 else 16

/-- The entries that the walkers have read of a table for a VA and that no invalidation has dropped since (09 R170). -/
def State.readBefore (s : State) (i level va table : Nat) : List Nat :=
  (s.ctl.walkers.filter fun e => decide (e.iface = i) && decide (e.level = level) &&
    decide (e.pre = va / 2 ^ levelShift level) && decide (e.table = table)).map WalkerEntry.entry

/-- The entry of a level that a walk uses: until an invalidation completes, one that was read before or the present one,
freely for each page (09 R170). A table outside DRAM, or on a die of another world than the access, is not read. -/
def State.tableAt (s : State) (i : Mmu) (world level va table : Nat) : Except Walk Nat :=
  if !s.tableOk i table then .error (.fault .translation)
  else
    match s.gddrDie (s.physOf i table) with
    | some o => if (s.die o).world ≠ world then .error (.refused o) else .ok (entry ())
    | none => .ok (entry ())
where
  /-- The earlier or the present entry. -/
  entry (_ : Unit) : Nat :=
    let new := s.tableEntry i table (va / 2 ^ levelShift level % 4096)
    match (s.readBefore i.iface level va table).filter fun e => decide (e ≠ new) with
    | [] => new
    | old => (new :: old).getD (Config.freeIndex s.free (va / 65536 + 2 ^ (40 + level)) % (old.length + 1)) new

/-- A leaf entry as it stands in a table of its level: 256 MiB at level 1, 64 KiB at level 2 (09 R168, R169). -/
def State.leafOf (s : State) (i : Mmu) (big : Bool) (e : Nat) : Walk :=
  if !bitAt e 0 || !bitAt e 1 || !entryOk e || (big && decide (bits e 27 16 ≠ 0)) ||
      !s.populatedRange (s.physOf i (entryPa e)) (if big then 2 ^ 28 else 65536) then .fault .translation
  else .leaf e big

/-- The three-level walk (09 R168, R169), before permissions. -/
def State.walk (s : State) (i : Mmu) (world va : Nat) : Walk :=
  match s.tableAt i world 0 va i.table with
  | .error f => f
  | .ok e0 =>
    if !isTableEntry e0 then .fault .translation
    else
      match s.tableAt i world 1 va (entryPa e0) with
      | .error f => f
      | .ok e1 =>
        if !isTableEntry e1 then s.leafOf i true e1
        else
          match s.tableAt i world 2 va (entryPa e1) with
          | .error f => f
          | .ok e2 => s.leafOf i false e2

/-- The table entries that a walk reads; a table whose request a port refuses is not among them. -/
def State.walkReads (s : State) (i : Mmu) (world va : Nat) : List WalkerEntry :=
  let at' (level table e : Nat) : WalkerEntry := ⟨i.iface, level, va / 2 ^ levelShift level, table, e⟩
  match s.tableAt i world 0 va i.table with
  | .error _ => []
  | .ok e0 => at' 0 i.table e0 ::
    if !isTableEntry e0 then []
    else
      match s.tableAt i world 1 va (entryPa e0) with
      | .error _ => []
      | .ok e1 => at' 1 (entryPa e0) e1 ::
        if !isTableEntry e1 then []
        else
          match s.tableAt i world 2 va (entryPa e1) with
          | .error _ => []
          | .ok e2 => [at' 2 (entryPa e1) e2]

/-- Permissions of a valid leaf (09 R169): the bits needed, the world, the regions. -/
def State.leafPermits (s : State) (i : Mmu) (e : Nat) (big : Bool) (need : Need) (world : Nat) : Bool :=
  (match need with
    | .rd => bitAt e 2
    | .w => bitAt e 3
    | .atom => bitAt e 2 && bitAt e 3 && bitAt e 4) &&
  decide (bits e 11 8 = world) && !s.forbiddenRange (s.physOf i (entryPa e)) (if big then 2 ^ 28 else 65536)

/-- The physical address a leaf gives a VA. -/
def State.leafAddr (s : State) (i : Mmu) (e : Nat) (big : Bool) (va : Nat) : Nat :=
  s.physOf i (entryPa e) + (if big then va % 2 ^ 28 else va % 65536)

/-- A translation's result. -/
inductive Trans where
  | ok (pa : Nat)
  | fault (k : FaultKind)
  deriving DecidableEq, Repr

/-- Judge a leaf for an access. -/
def State.judge (s : State) (i : Mmu) (w : Walk) (va : Nat) (need : Need) (world : Nat) : Trans :=
  match w with
  | .fault k => .fault k
  | .refused _ => .fault .permission
  | .leaf e big => if s.leafPermits i e big need world then .ok (s.leafAddr i e big va) else .fault .permission

/-- Translation by the control die: a walk. -/
def State.translate (s : State) (i : Mmu) (va : Nat) (need : Need) (world : Nat) : Trans :=
  s.judge i (s.walk i world va) va need world

/-- The cached leaf of a die for a VA (09 R170). -/
def State.cachedLeaf (s : State) (d i va : Nat) : Option TlbEntry :=
  (s.die d).tlb.find? fun e =>
    decide (e.iface = i) && (if e.big then decide (e.page / 4096 = va / 2 ^ 28) else decide (e.page = va / 65536))

/-- The walk a die's engine uses: until an invalidation completes, the cached or the new mapping, freely
for each page (09 R170). -/
def State.dieWalk (s : State) (d : Nat) (i : Mmu) (world va : Nat) : Walk :=
  let fresh := s.walk i world va
  match s.cachedLeaf d i.iface va with
  | none => fresh
  | some e =>
    let old := Walk.leaf e.leaf.toNat e.big
    if old = fresh then fresh
    else if Config.freeBit s.free (va / 65536) then old else fresh

/-- Remember the leaf that a die has used, at most 4,096 of them; a leaf of 256 MiB takes one entry, under its first
page (09 R170). -/
def State.cacheLeaf (s : State) (d : Nat) (i : Mmu) (va : Nat) (w : Walk) : State :=
  match w with
  | .leaf e big =>
    let page := if big then va / 2 ^ 28 * 4096 else va / 65536
    s.updDie d fun x =>
      let rest := x.tlb.filter fun t => !(decide (t.iface = i.iface) && decide (t.page = page) && decide (t.big = big))
      let new : TlbEntry := ⟨i.iface, page, BitVec.ofNat 64 e, big⟩
      { x with tlb := (rest ++ [new]).drop (rest.length + 1 - 4096) }
  | _ => s

/-! ### Access by virtual address -/

/-- The bytes moved by one access and the fault that stopped it. -/
structure VaRead where
  bytes : List Byte
  fault : Option (FaultKind × Nat)
  s : State
  deriving DecidableEq, Repr

/-- Who translates: the control die, or a die's engine. -/
abbrev Via := Option Nat

/-- The owning die refuses a message of another world (24 R342); the control die is sender 8. -/
def State.portRefuses (s : State) (via : Via) (world pa : Nat) : Option Nat :=
  match s.gddrDie pa with
  | some o => if o ≠ via.getD 8 ∧ (s.die o).world ≠ world then some o else none
  | none => none

/-- The number by which an interface knows a physical die (24 R340); the control die is 8. -/
def State.logicalOf (s : State) (i d : Nat) : Nat := ((s.logicalDies i).findIdx? fun x => decide (x = d)).getD 8

/-- WORLD_REFUSED in the event log, with the sending and receiving logical dies and the world (24 R342). -/
def State.logRefused (s : State) (i : Nat) (via : Via) (o world : Nat) : State :=
  s.logEvent (.worldRefused (s.logicalOf i (via.getD 8)) (s.logicalOf i o) world)

/-- Split [va, va + n) into its pieces by 64 KiB page. -/
def pageSplit : Nat → Nat → Nat → List (Nat × Nat)
  | 0, _, _ => []
  | f + 1, va, n =>
    if n = 0 then []
    else
      let k := min n (65536 - va % 65536)
      (va, k) :: pageSplit f (va + k) (n - k)

/-- The pieces of a range by page. -/
def pieces (va n : Nat) : List (Nat × Nat) := pageSplit (n / 65536 + 2) va n

/-- A VA beyond 52 bits wraps in no rule; such a range faults TRANSLATION (09 R168). -/
def vaOk (va n : Nat) : Bool := decide (va + n ≤ 2 ^ 52)

/-- Bytes a reel holds (24 R349): 256 MiB, counted by the data of its messages. -/
def reelBytes : Nat := 256 * 2 ^ 20

/-- The data bytes of a reel. -/
def reelUsed (r : List ReelEntry) : Nat := r.foldl (fun a e => a + e.msg.bytes.length) 0

/-- Who owns a physical address: the die whose GDDR-7 holds it, else the control die, 8. -/
def State.ownerOf (s : State) (pa : Nat) : Nat := (s.gddrDie pa).getD 8

/-- The bytes of the reel region that a message of a sender fills: a compute die's one region holds the reels of all
its receivers, the control die has a region for each (24 R349). -/
def State.regionUsed (s : State) (src dst : Nat) : Nat :=
  let used (d : Nat) : Nat := reelUsed ((tget (s.die d).reels src).getD [])
  if src < 8 then ((List.range 8).map used).foldl (· + ·) 0 else used dst

/-- A message arrives at a compute die's port: it is stamped, and its sender reels it until the reel is full
(24 R351). -/
def State.stampMessage (s : State) (m : DieMessage) : State :=
  if 8 ≤ m.dst then s
  else
    let x := s.die m.dst
    let n := x.stamp
    let reel := (tget x.reels m.src).getD []
    if m.src ∈ x.reelOff then s.updDie m.dst fun x => { x with stamp := n + 1 }
    else if reelBytes < s.regionUsed m.src m.dst + m.bytes.length then
      (s.updDie m.dst fun x => { x with stamp := n + 1, reelOff := x.reelOff ++ [m.src] }).logEvent (.reelFull m.src m.dst)
    else s.updDie m.dst fun x => { x with stamp := n + 1, reels := tput x.reels m.src (reel ++ [⟨m, n⟩]) }

/-- A message of the control die that carries no memory data: a request, a barrier or step command, a translation's
answer (24 R351). -/
def State.notify (s : State) (dst world addr : Nat) : State := s.stampMessage ⟨8, dst, world, none, addr, [], false⟩

/-- A block starts, or starts again, on a die: the message that brings it its arguments (24 R351). It has an address that no
memory has. -/
def State.sendStart (s : State) (dst world : Nat) (args : List Byte) : State :=
  s.stampMessage ⟨8, dst, world, none, 2 ^ 60, args, false⟩

/-- The walkers' requests for what a walk reads anew (24 R351), and what they keep of it until an invalidation drops it:
intermediate entries, and the leaf, the mapping that a command may still use then (09 R170; notes/assumptions/10.md). -/
def State.afterWalk (s : State) (i : Mmu) (world va : Nat) : State :=
  let new := (s.walkReads i world va).filter fun e => !s.ctl.walkers.contains e
  let s := new.foldl (fun s e =>
    let o := s.ownerOf (s.physOf i e.table)
    if o < 8 then s.notify o world (s.physOf i e.table) else s) s
  let leaf := match s.walk i world va with | .leaf e _ => some e | _ => none
  let kept := new.filter fun e => isTableEntry e.entry || (match leaf with | some k => decide (k = e.entry) | none => false)
  s.updCtl fun c => { c with walkers := c.walkers ++ kept }

/-- Translate for one access through a die's cache or the control die's walkers. A refused table request is logged
(24 R342). -/
def State.transVia (s : State) (via : Via) (i : Mmu) (va : Nat) (need : Need) (world : Nat) : Trans × State :=
  let logged (w : Walk) (s : State) : State :=
    match w with
    | .refused o => s.logRefused i.iface none o world
    | _ => s
  match via with
  | none =>
    let w := s.walk i world va
    (s.judge i w va need world, logged w (s.afterWalk i world va))
  | some d =>
    let w := s.dieWalk d i world va
    let t := if (s.cachedLeaf d i.iface va).isSome then s else (s.afterWalk i world va).notify d world va
    (s.judge i w va need world, logged w (t.cacheLeaf d i va w))

/-- The response, replayed after a recovery, to a read that a die makes again, and the responses left
(24 R352 step 4). -/
def takeReplayed (pa n : Nat) : List (Nat × List Byte) → Option (List Byte × List (Nat × List Byte))
  | [] => none
  | x :: r =>
    if x.1 = pa ∧ x.2.length = n then some (x.2, r)
    else (takeReplayed pa n r).map fun y => (y.1, x :: y.2)

/-- Bytes from an address on as they will be when the messages that a port holds have been delivered. -/
def underHeld (pa : Nat) (bs : List Byte) : List DieMessage → List Byte
  | [] => bs
  | m :: r => underHeld pa (m.bytes.zipIdx.foldl (fun bs x =>
      if pa ≤ m.addr + x.2 then bs.set (m.addr + x.2 - pa) x.1 else bs) bs) r

/-- Read bytes that lie in one page, as a die or the control die. A read of what another die owns is a request
on that die's port and a response on the reader's (24 R351); one that the port of a recovering die holds sees what was
held before it (R352, notes/assumptions/38.md). -/
def State.readPage (s : State) (via : Via) (world pa n : Nat) : List Byte × State :=
  let me := via.getD 8
  let o := s.ownerOf pa
  if me = o then (s.readPhys world pa n, s)
  else
    match takeReplayed pa n (s.die me).replayed with
    | some (bs, rest) => (bs, s.updDie me fun x => { x with replayed := rest })
    | none =>
      let bs := underHeld pa (s.readPhys world pa n) (if o < 8 then (s.die o).held else [])
      (bs, (s.stampMessage ⟨me, o, world, none, pa, [], false⟩).stampMessage ⟨o, me, world, none, pa, bs, true⟩)

/-- Read the pieces in order; stop at the first fault, with its VA. -/
def State.readPieces (s : State) (via : Via) (i : Mmu) (world : Nat) : List (Nat × Nat) → VaRead
  | [] => ⟨[], none, s⟩
  | (va, n) :: r =>
    if !vaOk va n then ⟨[], some (.translation, va), s⟩ else
    match s.transVia via i va .rd world with
    | (.fault k, s) => ⟨[], some (k, va), s⟩
    | (.ok pa, s) =>
      match s.portRefuses via world pa with
      | some o => ⟨[], some (.permission, va), s.logRefused i.iface via o world⟩
      | none =>
        let (bs, s) := s.readPage via world pa n
        let rest := s.readPieces via i world r
        ⟨bs ++ rest.bytes, rest.fault, rest.s⟩

/-- Read n bytes at a VA. -/
def State.readVa (s : State) (via : Via) (i : Mmu) (world va n : Nat) : VaRead := s.readPieces via i world (pieces va n)

/-- Count a message with data that a receiver has accepted from a die (24 R352 step 5). -/
def State.countAccepted (s : State) (src dst : Nat) : State :=
  if src < 8 then s.updDie src fun x => { x with accepted := tput x.accepted dst ((tget x.accepted dst).getD 0 + 1) }
  else s

/-- A message with data from a die to the control die: one of the first that a recovered die sends again is discarded, any
other counts as accepted (24 R352 step 5). The Bool says that the control die takes it. -/
def State.toControl (s : State) (d : Nat) : Bool × State :=
  match (tget (s.die d).discard 8).getD 0 with
  | k + 1 => (false, s.updDie d fun x => { x with discard := tput x.discard 8 k })
  | 0 => (true, s.countAccepted d 8)

/-- A compute die is recovering: its ports hold what its peers send (24 R352). -/
def State.recovering (s : State) : Bool := s.x.dies.any fun d => decide (d.2.st ≠ .running)

/-- A write reaches its owner: a compute die that recovers holds it (24 R352 step 1). -/
def State.deliverWrite (s : State) (m : DieMessage) : State :=
  if m.dst < 8 ∧ (s.die m.dst).st ≠ .running then s.updDie m.dst fun x => { x with held := x.held ++ [m] }
  else ((s.stampMessage m).countAccepted m.src m.dst).writePhys m.world m.addr m.bytes

/-- Write bytes that lie in one page, as a die or the control die. A die that runs again after a recovery has
its first messages to a receiver discarded (24 R352 step 5). -/
def State.writePage (s : State) (via : Via) (world : Nat) (op : Option Nat) (pa : Nat) (bs : List Byte) : State :=
  let me := via.getD 8
  let o := s.ownerOf pa
  if me = o then s.writePhys world pa bs
  else
    match (tget (s.die me).discard o).getD 0 with
    | k + 1 => s.updDie me fun x => { x with discard := tput x.discard o k }
    | 0 => s.deliverWrite ⟨me, o, world, op, pa, bs, false⟩

/-- Write bytes at a VA page by page; stop at the first fault, with its VA. -/
def State.writePieces (s : State) (via : Via) (i : Mmu) (world : Nat) (op : Option Nat) :
    List (Nat × Nat) → List Byte → Option (FaultKind × Nat) × State
  | [], _ => (none, s)
  | (va, n) :: r, bs =>
    if !vaOk va n then (some (.translation, va), s) else
    match s.transVia via i va .w world with
    | (.fault k, s) => (some (k, va), s)
    | (.ok pa, s) =>
      match s.portRefuses via world pa with
      | some o => (some (.permission, va), s.logRefused i.iface via o world)
      | none => (s.writePage via world op pa (bs.take n)).writePieces via i world op r (bs.drop n)

/-- Write bytes at a VA. -/
def State.writeVa (s : State) (via : Via) (i : Mmu) (world : Nat) (op : Option Nat) (va : Nat) (bs : List Byte) :
    Option (FaultKind × Nat) × State :=
  s.writePieces via i world op (pieces va bs.length) bs

end Sys2Proof.Machine
end

