-- ==== Sys2Proof/Machine/Trace.lean ====
section
/-! DEFINITION. What is recorded beside a warp's run: contact sheet and film strip of a loupe cluster
(20 R307 to R309), profile sets and their records (20 R310, R312), and landing writes with the film strip
that watches them. -/

namespace Sys2Proof.Machine

/-! ### Contact sheet (20 R307) -/

/-- A contact-sheet record from its fields. -/
def sheetRecord (mask pc : Word) (dclk dest flags ty slot tseq : Nat) : BitVec 128 :=
  BitVec.ofNat 128 (mask.toNat * 2 ^ 96 + pc.toNat * 2 ^ 64 + dclk % 2 ^ 16 * 2 ^ 48 + dest % 256 * 2 ^ 40 +
    flags % 256 * 2 ^ 32 + ty % 256 * 2 ^ 24 + slot % 256 * 2 ^ 16 + tseq % 2 ^ 16)

/-- Append a record to the ring of 65,536; a full ring overwrites the oldest and counts a wrap. -/
def LoupeCluster.append (x : LoupeCluster) (r : BitVec 128) : LoupeCluster :=
  { x with
    sheet := tput x.sheet (x.sheetIx % 65536) r
    sheetIx := x.sheetIx + 1
    wraps := if 65536 ≤ x.sheetIx then x.wraps + 1 else x.wraps }

/-- The loupe core and slot of a warp that runs on one. -/
def Warp.onLoupe? (w : Warp) : Option (Nat × Nat) :=
  match w.loupe.place with
  | .loupe c k => some (c, k)
  | _ => none

/-- The SLOT byte of a record: [4:3] loupe core, [2:0] slot. -/
def slotByte (c k : Nat) : Nat := c % 4 * 8 + k % 8

/-- The die of a warp's block. -/
def State.dieOf (s : State) (r : WarpRef) : Nat := ((s.block? r.launch r.block).map Block.die).getD 0

/-- Loupe clocks since the warp's previous record, saturating (20 R307); for its first record the spec gives no
value, and it is free (notes/assumptions/1.md). -/
def dclkOf (free clk : Nat) : Option DWord → Nat
  | some last => min (BitVec.ofNat 64 clk - last).toNat 0xFFFF
  | none => (Config.freeWord free 700000).toNat % 65536

/-- Append a record for a warp that is on a loupe core; nothing otherwise. dclk none measures it. -/
def State.sheet (s : State) (r : WarpRef) (mask pc : Word) (dclk : Option Nat) (dest flags ty : Nat) : State :=
  match s.warp? r with
  | none => s
  | some w =>
    match w.onLoupe? with
    | none => s
    | some (c, k) =>
      let clk := s.loupeClk (s.dieOf r)
      let rec' := sheetRecord mask pc (dclk.getD (dclkOf s.free clk w.loupe.lastClk)) dest flags ty (slotByte c k) w.loupe.tseq
      (s.updLoupe (s.dieOf r) fun x => x.append rec').updWarp r fun w =>
        { w with loupe := { w.loupe with lastClk := some (BitVec.ofNat 64 clk) } }

/-- HAZARD records for registers read or overwritten while no park has covered them (20 R308): reads first,
then overwrites, each in the order of the list. -/
def State.hazards (s : State) (r : WarpRef) (active pc : Word) (path : Bool) (flags : Nat) :
    List Nat → List Uncovered → State
  | [], _ => s
  | x :: xs, us =>
    let s := match us.find? fun u => decide (u.dest = x) with
      | some u => s.sheet r active pc (some (u.pc.toNat % 2 ^ 16)) (destCode x) (flags + 32 * b2n path) 1
      | none => s
    s.hazards r active pc path flags xs us

/-! ### Film strip (20 R309) -/

/-- The 32 lane words of a vector register, or a scalar register as lane 0 of an image. -/
def Warp.image (w : Warp) (dest : Nat) : List Word :=
  if dest < 256 then (List.range 32).map fun l => get0 w.vregs (32 * dest + l) else [get0 w.sregs (dest - 256)]

/-- An image to be stored: a register, its writer's PC, the words. -/
structure Landed where
  reg : Nat
  pc : Word
  words : List Word
  deriving DecidableEq, Repr

/-- The register of a write and the instruction that made it. -/
def PendingWrite.key (x : PendingWrite) : Option (Nat × Word × Nat) := x.target.reg?.map fun n => (n, x.pc, x.no)

/-- The word of lane l when a write of a register by instruction no has landed and another of those outstanding is still
to land: a lane that it writes holds one of the values written there, another lane one of those or the word before, freely
(04 R67). -/
def earlierWord (free : Nat) (ws : List PendingWrite) (no code : Nat) (t : WTarget) (old : Word) : Word :=
  let vs := outValues t ws
  if ws.any fun x => decide (x.target = t) && decide (x.no = no) then vs.getD (Config.freeIndex free code % vs.length) old
  else earlyChoice free code old vs

/-- The image of a register in between. -/
def Warp.earlierImage (free : Nat) (w : Warp) (ws : List PendingWrite) (no n : Nat) : List Word :=
  if n < 256 then (List.range 32).map fun l =>
    earlierWord free ws no (1100000 + 32 * n + l) (.v n l) (get0 w.vregs (32 * n + l))
  else [earlierWord free ws no (1100000 + 32 * n) (.s (n - 256)) (get0 w.sregs (n - 256))]

/-- The images of one register whose writes by some instructions land together, in a free order: the last of them is what
the register then holds. -/
def imagesOf (free : Nat) (w w' : Warp) (ws : List PendingWrite) (n : Nat) : List (Word × Nat) → List Landed
  | [] => []
  | [x] => [⟨n, x.1, w'.image n⟩]
  | x :: r => ⟨n, x.1, Warp.earlierImage free w ws x.2 n⟩ :: imagesOf free w w' ws n r

/-- The registers whose writes of one instruction have landed whole, each landing with its image (20 R309): done has
landed and took the warp from w to w', left has not. -/
def landedImages (free : Nat) (w w' : Warp) (done left : List PendingWrite) : List Landed :=
  let ks := ((done.filterMap PendingWrite.key).eraseDups).filter fun k => !(left.any fun x => decide (x.key = some k))
  let order (ks : List (Word × Nat)) : List (Word × Nat) :=
    if ks.length ≤ 1 then ks
    else ks.mergeSort fun a b => decide (Config.freeRank free 1200000 a.2 ≤ Config.freeRank free 1200000 b.2)
  (((ks.map Prod.fst).eraseDups).map fun n =>
    imagesOf free w w' done n (order ((ks.filter fun k => decide (k.1 = n)).map Prod.snd))).flatten

/-- Store images of the named registers; the last 8 are kept. -/
def filmPush (ks : List Landed) (regs : List FilmReg) : List FilmReg :=
  regs.map fun f =>
    (ks.filter fun k => decide (destCode k.reg = f.dest)).foldl
      (fun f k => { f with images := ((k.pc, k.words) :: f.images).take 8 }) f

/-- Record landed registers in the film strip of the warp's slot, if it is on a loupe core. -/
def State.film (s : State) (w : Warp) (ks : List Landed) : State :=
  match w.onLoupe? with
  | none => s
  | some (c, k) =>
    if ks = [] then s
    else s.updLoupe (s.dieOf w.ref) fun x =>
      match tget x.film (slotByte c k) with
      | none => x
      | some regs => { x with film := tput x.film (slotByte c k) (filmPush ks regs) }

/-- Record in the film strip registers that a warp has just written whole: (register, writer's PC). -/
def State.filmed (s : State) (r : WarpRef) (ks : List (Nat × Word)) : State :=
  match s.warp? r with
  | none => s
  | some w => s.film w (ks.map fun k => ⟨k.1, k.2, w.image k.1⟩)

/-! ### Landing in the state -/

/-- Land every outstanding write of a path. -/
def State.land (s : State) (r : WarpRef) (slot : Bool) : State :=
  match s.warp? r with
  | none => s
  | some w =>
    match w.path? slot with
    | none => s
    | some p =>
      let w' := w.landPath s.free slot
      (s.setWarp w').film w' (landedImages s.free w w' p.writes [])

/-- Land every outstanding write of both live paths (04 R69). -/
def State.landBoth (s : State) (r : WarpRef) : State := (s.land r false).land r true

/-- Land the outstanding result that write k of a path belongs to. -/
def State.landOne (s : State) (r : WarpRef) (slot : Bool) (k : Nat) : State :=
  match s.warp? r with
  | none => s
  | some w =>
    match w.path? slot with
    | none => s
    | some p =>
      let x := landingOf p.writes.length k p.writes
      let w' := w.landOne slot k
      (s.setWarp w').film w' (landedImages s.free w w' x.1 x.2)

/-! ### Record buffers (19 R285, 20 R312) -/

/-- Add to one 64-bit word of a buffer header: the word's bytes after adding n. -/
def addWord (bs : List Byte) (n : Nat) : List Byte := leBytes 8 ((leNat bs + n) % 2 ^ 64)

/-! ### Profile sets (20 R310 to R312) -/

/-- A profile record of 64 bytes (20 R312). -/
def profRecord (p : ProfSet) (endClk : DWord) (ref : WarpRef) (depth : Nat) (trunc : Bool) : List Byte :=
  leBytes 64 ((p.stalls.zipIdx.foldl (fun a x => a + x.1 % 2 ^ 32 * 2 ^ (256 + 32 * x.2)) 0) +
    min p.retired (2 ^ 32 - 1) * 2 ^ 224 + endClk.toNat * 2 ^ 160 + p.startClk.toNat * 2 ^ 96 +
    ref.block % 2 ^ 40 * 2 ^ 56 + ref.warp % 32 * 2 ^ 51 + depth % 4 * 2 ^ 49 + b2n trunc * 2 ^ 48 + p.id % 128)

/-- Write a profile record: reserve by USED in the buffer's header, then write. The buffer has no stated
size; a record whose bytes do not translate counts as one that does not fit (notes/assumptions/12.md). A record that a
recovered die sends again is discarded (24 R352 step 5). -/
def State.profWrite (s : State) (ref : WarpRef) (p : ProfSet) (depth : Nat) (trunc : Bool) : State :=
  match s.launch? ref.launch with
  | none => s
  | some l =>
    let va := l.record.profVa
    let x := match s.block? ref.launch ref.block with
      | some b => if va = 0 then (false, s) else s.toControl b.die
      | none => (decide (va ≠ 0), s)
    let s := x.2
    if !x.1 then s
    else
      let hdr := (s.readVa none (s.mmu l.iface) l.record.world va 16).bytes
      let used := leNat (hdr.take 8)
      match s.writeVa none (s.mmu l.iface) l.record.world none (va + 16 + used) (profRecord p s.time ref depth trunc) with
      | (none, s') => (s'.writeVa none (s.mmu l.iface) l.record.world none va (addWord (hdr.take 8) 64)).2
      | (some _, _) => (s.writeVa none (s.mmu l.iface) l.record.world none (va + 8) (addWord (hdr.drop 8) 1)).2

/-- A new counter set (20 R310). -/
def ProfSet.start (id : Nat) (clk : DWord) : ProfSet := ⟨id, clk, 0, List.replicate 8 0⟩

/-- Count a retired instruction in every set of the stack (20 R310). -/
def profRetire (ps : List ProfSet) : List ProfSet := ps.map fun p => { p with retired := min (p.retired + 1) (2 ^ 32 - 1) }

/-- Charge clocks to a stall class in every set, saturating at 32 bits (20 R310, R311). -/
def profCharge (cls clocks : Nat) (ps : List ProfSet) : List ProfSet :=
  ps.map fun p => { p with stalls := p.stalls.modify cls fun n => min (n + clocks) (2 ^ 32 - 1) }

/-- Pop every set that is left at warp exit, from the top, with TRUNC (20 R312). The list has the top
first. -/
def State.profFlush (s : State) (ref : WarpRef) : List ProfSet → State
  | [] => s.updWarp ref fun w => { w with prof := [], profOver := 0 }
  | p :: r => (s.profWrite ref p r.length true).profFlush ref r

end Sys2Proof.Machine
end

