-- ==== Sys2Proof/Machine/Layers.lean ====
section
/-! DEFINITION. Local memory by place (09 R161 to R166), the reductions of the RED forms (11 R202), and the
layers of a tripod launch: a warp's frame buffer, block overlay, cluster overlay, scratchpad
(10 R185 to R187). -/

namespace Sys2Proof.Machine

/-! ### Places -/

/-- Read bytes of a place; nothing is there once it is gone. -/
def State.readPlace (s : State) (pl : Place) (a n : Nat) : List Byte :=
  match pl with
  | .bsm l b => readBytes ((s.block? l b).map Block.bsm |>.getD []) a n
  | .spad l k => readBytes ((s.span? l k).map Span.spad |>.getD []) a n

/-- Whether [a, a + n) of a place holds a word with an uncorrectable soft error (19 R283). -/
def State.softAt (s : State) (pl : Place) (a n : Nat) : Bool :=
  match pl with
  | .bsm l b => ((s.block? l b).map fun x => x.soft.any fun w => overlaps a n (4 * w) 4).getD false
  | .spad _ _ => false

/-- The bytes of BSM a block's own addresses reach (09 R162). -/
def LaunchRecord.bsmLimit (r : LaunchRecord) : Nat := r.bsmSize + if r.policy = 2 then 256 * r.warps else 0

/-- The span number of a block (07 R124); 0 when there is no span. -/
def LaunchRecord.spanOf (r : LaunchRecord) (block : Nat) : Nat := if r.span = 0 then 0 else block / r.span

/-- The launch cluster of a block (07 R123). -/
def LaunchRecord.clusterOf (r : LaunchRecord) (block : Nat) : Nat := block / max r.cluster 1

/-- Where the bytes [x, x + n) of a local address lie (09 R161, R162, R165, R166); none for OUT_OF_RANGE. -/
def localPlace (l : Launch) (block : Nat) (x : Word) (n : Nat) : Option (Place × Nat) :=
  let v := x.toNat
  let r := l.record
  let o := bits v 17 0
  match bits v 31 28 with
  | 0 => if bits v 27 18 = 0 ∧ o + n ≤ r.bsmLimit then some (.bsm l.uid block, o) else none
  | 1 =>
    let k := bits v 25 24
    if bits v 27 26 = 0 ∧ bits v 23 18 = 0 ∧ k < max r.cluster 1 ∧ o + n ≤ r.bsmSize then
      some (.bsm l.uid (r.clusterOf block * max r.cluster 1 + k), o)
    else none
  | 2 =>
    let o := bits v 24 0
    if bits v 27 25 = 0 ∧ r.span ≠ 0 ∧ o + n ≤ r.spadSize then some (.spad l.uid (r.spanOf block), o) else none
  | _ => none

/-- The parked WAITFs whose word [a, a + n) of a place meets (11 R205). -/
def State.awaited (s : State) (pl : Place) (a n : Nat) : List (WarpRef × Bool) :=
  (s.x.warps.map fun w => w.live.filterMap fun x =>
    match x.2.park, s.launch? w.ref.launch with
    | .waitf y _, some l =>
      match localPlace l w.ref.block y 4 with
      | some (q, o) => if q = pl ∧ overlaps o 4 a n then some (w.ref, x.1) else none
      | none => none
    | _, _ => none).flatten

/-- How often the word that a path's WAITF waits for has been written. -/
def wokenOf (ws : List (WarpRef × Bool × Nat)) (r : WarpRef) (slot : Bool) : Nat :=
  ((ws.find? fun x => decide (x.1 = r) && decide (x.2.1 = slot)).map fun x => x.2.2).getD 0

/-- The words of such WAITFs have been written once more. -/
def wakeAll (ws : List (WarpRef × Bool × Nat)) : List (WarpRef × Bool) → List (WarpRef × Bool × Nat)
  | [] => ws
  | x :: r =>
    wakeAll ((ws.filter fun y => !(decide (y.1 = x.1) && decide (y.2.1 = x.2))) ++ [(x.1, x.2, wokenOf ws x.1 x.2 + 1)]) r

/-- The same, at the place of the word. -/
def State.wokenAt (s : State) (pl : Place) (r : WarpRef) (slot : Bool) : Nat :=
  match pl with
  | .bsm l b => wokenOf ((s.block? l b).map Block.woken |>.getD []) r slot
  | .spad l k => wokenOf ((s.span? l k).map Span.woken |>.getD []) r slot

/-- Write bytes of a place: a BSM word that is written whole is sound again, and a WAITF whose word is written takes
note of it. -/
def State.writePlace (s : State) (pl : Place) (a : Nat) (bs : List Byte) : State :=
  let ws := s.awaited pl a bs.length
  match pl with
  | .bsm l b => s.updBlock l b fun x => { x with
      bsm := writeBytes x.bsm a bs
      soft := x.soft.filter fun w => !(decide (a ≤ 4 * w) && decide (4 * w + 4 ≤ a + bs.length))
      woken := wakeAll x.woken ws }
  | .spad l k => s.updSpan l k fun x => { x with spad := writeBytes x.spad a bs, woken := wakeAll x.woken ws }

/-! ### Reductions (11 R201, R202) -/

/-- Element by element floating-point result of two words, rounded to the type under RNE with SAT 0, no
status (11 R201). -/
def fpAtomic (et : Nat) (f : FVal → FVal → Res) (a b : Word) : Word :=
  let w := elemWidth et
  zipElems w (fun x y => (roundTo et 0 false (f (elemVal et x) (elemVal et y)).1).1) a b

/-- AFADD and REDFADD (11 R201). -/
def fpAtomicAdd (et : Nat) (a b : Word) : Word := fpAtomic et (addF 0) a b

/-- Signed minimum and maximum of two words. -/
def minS (a b : Word) : Word := if a.toInt ≤ b.toInt then a else b
def maxS (a b : Word) : Word := if a.toInt ≤ b.toInt then b else a

/-- Unsigned minimum and maximum of two words. -/
def minU (a b : Word) : Word := if a.toNat ≤ b.toNat then a else b
def maxU (a b : Word) : Word := if a.toNat ≤ b.toNat then b else a

/-- New(old, b) of a RED form (11 R202): the type gives signedness of minimum and maximum and the
elements of the floating-point add. -/
def RedOp.combine (o : RedOp) (et : Nat) (a b : Word) : Word :=
  match o with
  | .add => a + b
  | .and => a &&& b
  | .or => a ||| b
  | .xor => a ^^^ b
  | .min => if et = 1 then minU a b else minS a b
  | .max => if et = 1 then maxU a b else maxS a b
  | .fadd => fpAtomicAdd et a b

/-! ### A window of bytes -/

/-- Replace bytes from address a on in a window that begins at lo; bytes outside it are ignored. -/
def applyStore (lo : Nat) (win : List Byte) (a : Nat) : List Byte → List Byte
  | [] => win
  | b :: bs => applyStore lo (if lo ≤ a then win.set (a - lo) b else win) (a + 1) bs

/-- The word at address a of a window. -/
def windowWord (lo : Nat) (win : List Byte) (a : Nat) : Word := BitVec.ofNat 32 (leNat ((win.drop (a - lo)).take 4))

/-- Combine a reduction into the word at address a of a window that holds it whole. -/
def applyRed (lo : Nat) (win : List Byte) (a : Nat) (o : RedOp) (et : Nat) (b : Word) : List Byte :=
  if lo ≤ a ∧ a + 4 ≤ lo + win.length then
    applyStore lo win a (leBytes 4 (o.combine et (windowWord lo win a) b).toNat)
  else win

/-- Apply a layer to a window. -/
def applyLayer (lo : Nat) : List Byte → List LayerCell → List Byte
  | win, [] => win
  | win, .byte a b :: r => applyLayer lo (applyStore lo win a [b]) r
  | win, .red a o et b :: r => applyLayer lo (applyRed lo win a o et b) r

/-- Apply a warp's own buffered writes to one place, in program order (10 R186). -/
def applyBuf (pl : Place) (lo : Nat) : List Byte → List BufEntry → List Byte
  | win, [] => win
  | win, .store p a bs :: r => applyBuf pl lo (if p = pl then applyStore lo win a bs else win) r
  | win, .red p a o et b :: r => applyBuf pl lo (if p = pl then applyRed lo win a o et b else win) r

/-! ### Layers (10 R187) -/

/-- Whether a cell lies in the word at address a. -/
def LayerCell.inWord (a : Nat) : LayerCell → Bool
  | .byte x _ => decide (x / 4 = a / 4)
  | .red x _ _ _ => decide (x / 4 = a / 4)

/-- The pending reduction at a word. -/
def pendingRed (a : Nat) : List LayerCell → Option (RedOp × Nat × Word)
  | [] => none
  | .red x o et b :: r => if x / 4 = a / 4 then some (o, et, b) else pendingRed a r
  | _ :: r => pendingRed a r

/-- The stored byte at an address. -/
def storedByte (a : Nat) : List LayerCell → Option Byte
  | [] => none
  | .byte x b :: r => if x = a then some b else storedByte a r
  | _ :: r => storedByte a r

/-- The stored word at an address, when all four of its bytes are stored. -/
def storedWord (a : Nat) (ly : List LayerCell) : Option Word :=
  match storedByte a ly, storedByte (a + 1) ly, storedByte (a + 2) ly, storedByte (a + 3) ly with
  | some b0, some b1, some b2, some b3 => some (BitVec.ofNat 32 (leNat [b0, b1, b2, b3]))
  | _, _, _, _ => none

/-- Cells of stored bytes from an address on. -/
def byteCells (a : Nat) : List Byte → List LayerCell
  | [] => []
  | b :: bs => .byte a b :: byteCells (a + 1) bs

/-- Set stored bytes of a word, dropping whatever the layer held for it. -/
def setWordCells (a : Nat) (v : Word) (ly : List LayerCell) : List LayerCell :=
  (ly.filter fun c => !c.inWord a) ++ byteCells (a / 4 * 4) (leBytes 4 v.toNat)

/-- A free word for a value the spec calls undefined (11 R202) or does not state. -/
def freeWordAt (free a : Nat) : Word := Config.freeWord free a

/-- Store a byte into a layer. Into a word with a pending reduction it leaves the word's other bytes free
(notes/assumptions/11.md). -/
def layerByte (free a : Nat) (b : Byte) (ly : List LayerCell) : List LayerCell :=
  match pendingRed a ly with
  | some _ =>
    let ly := setWordCells a (freeWordAt free a) ly
    (ly.filter fun c => decide (c ≠ .byte a ((storedByte a ly).getD 0))) ++ [.byte a b]
  | none => (ly.filter fun c => match c with | .byte x _ => decide (x ≠ a) | _ => true) ++ [.byte a b]

/-- Store bytes into a layer; a store of a whole word replaces its reduction. -/
def layerStore (free : Nat) (a : Nat) (bs : List Byte) (ly : List LayerCell) : List LayerCell :=
  match bs with
  | [] => ly
  | b :: r =>
    if a % 4 = 0 ∧ 4 ≤ bs.length then
      layerStoreWord free a bs ly bs.length
    else layerStore free (a + 1) r (layerByte free a b ly)
where
  /-- Store whole words while four bytes are left, then single bytes. -/
  layerStoreWord (free a : Nat) (bs : List Byte) (ly : List LayerCell) : Nat → List LayerCell
    | 0 => ly
    | n + 1 =>
      match bs with
      | b0 :: b1 :: b2 :: b3 :: r =>
        layerStoreWord free (a + 4) r (setWordCells a (BitVec.ofNat 32 (leNat [b0, b1, b2, b3])) ly) n
      | b :: r => layerStoreWord free (a + 1) r (layerByte free a b ly) n
      | [] => ly

/-- A reduction into a layer (10 R187): into a stored value, with a pending one of the same operation and
type, or a new pending one; any other meeting leaves the word free (11 R202). -/
def layerRed (free a : Nat) (o : RedOp) (et : Nat) (b : Word) (ly : List LayerCell) : List LayerCell :=
  match pendingRed a ly with
  | some (o', et', x) =>
    if o' = o ∧ et' = et then
      (ly.filter fun c => !c.inWord a) ++ [.red a o et (o.combine et x b)]
    else setWordCells a (freeWordAt free a) ly
  | none =>
    match storedWord a ly with
    | some x => setWordCells a (o.combine et x b) ly
    | none =>
      if ly.any fun c => c.inWord a then setWordCells a (freeWordAt free a) ly
      else ly ++ [.red a o et b]

/-- Merge a layer into the layer below. -/
def mergeLayer (free : Nat) : List LayerCell → List LayerCell → List LayerCell
  | [], below => below
  | .byte a b :: r, below => mergeLayer free r (layerByte free a b below)
  | .red a o et b :: r, below => mergeLayer free r (layerRed free a o et b below)

/-- Merge a layer into memory. -/
def mergeMem : List LayerCell → Memory → Memory
  | [], m => m
  | .byte a b :: r, m => mergeMem r (put0 m a b)
  | .red a o et b :: r, m => mergeMem r (writeWord m a (o.combine et (readWord m a) b))

/-! ### Views (10 R186, R187) -/

/-- The committed bytes of a place as a block sees them: memory, for the scratchpad overlaid by cluster and
block overlay (10 R187). -/
def State.blockView (s : State) (l : Launch) (block : Nat) (pl : Place) (lo n : Nat) : List Byte :=
  let base := s.readPlace pl lo n
  match pl with
  | .bsm _ _ => base
  | .spad _ _ =>
    if !l.record.tripod then base
    else
      let cl := ((s.cluster? l.uid (l.record.clusterOf block)).map LaunchCluster.overlay).getD []
      let bl := ((s.block? l.uid block).map Block.overlay).getD []
      applyLayer lo (applyLayer lo base cl) bl

/-- What a warp's load sees: outside tripod mode memory itself, in tripod mode the block's view overlaid by
the warp's own buffer (10 R186). The window is widened to whole words for reductions. -/
def State.warpView (s : State) (l : Launch) (w : Warp) (pl : Place) (a n : Nat) : List Byte :=
  if !l.record.tripod then s.readPlace pl a n
  else
    let lo := a / 4 * 4
    let k := (a + n + 3) / 4 * 4 - lo
    ((applyBuf pl lo (s.blockView l w.ref.block pl lo k) w.frame.buf).drop (a - lo)).take n

/-- Apply one buffered write at a commit (10 R186, R187). -/
def State.applyEntry (s : State) (launch block : Nat) (e : BufEntry) : State :=
  match e with
  | .store (.bsm l b) a bs => s.writePlace (.bsm l b) a bs
  | .red (.bsm l b) a o et x =>
    let old : Word := BitVec.ofNat 32 (leNat (s.readPlace (.bsm l b) a 4))
    s.writePlace (.bsm l b) a (leBytes 4 (o.combine et old x).toNat)
  | .store (.spad _ _) a bs =>
    s.updBlock launch block fun b => { b with overlay := layerStore s.free a bs b.overlay }
  | .red (.spad _ _) a o et x =>
    s.updBlock launch block fun b => { b with overlay := layerRed s.free a o et x b.overlay }

/-- Apply buffered writes in order. -/
def State.applyEntries (s : State) (launch block : Nat) : List BufEntry → State
  | [] => s
  | e :: r => (s.applyEntry launch block e).applyEntries launch block r

/-- Blocks of a launch cluster in ascending ID. -/
def State.clusterBlocks (s : State) (l : Launch) (num : Nat) : List Nat :=
  let c := max l.record.cluster 1
  ((List.range c).map fun i => num * c + i).filter fun b => (s.block? l.uid b).isSome

/-- Completion of a BARC generation: block overlays merge into the cluster overlay, in ascending block ID
(10 R187). A block that has been released keeps its overlay until then. -/
def State.mergeBlocks (s : State) (l : Launch) (num : Nat) : List Nat → State
  | [] => s
  | b :: r =>
    let ov := ((s.block? l.uid b).map Block.overlay).getD []
    let s := s.updCluster l.uid num fun c => { c with overlay := mergeLayer s.free ov c.overlay }
    (s.updBlock l.uid b fun x => { x with overlay := [] }).mergeBlocks l num r

/-- The cluster overlay of a launch cluster, which outlives the cluster until a BARP generation (10 R187). -/
def State.clusterOverlay (s : State) (l : Launch) (num : Nat) : List LayerCell :=
  match s.cluster? l.uid num with
  | some c => c.overlay
  | none => ((s.launch? l.uid).bind fun l => (tget l.overlays num).map Prod.snd).getD []

/-- Completion of a BARP generation for one cluster: its overlay merges into the scratchpad (10 R187). -/
def State.mergeClusterOverlay (s : State) (l : Launch) (num : Nat) : State :=
  let ov := s.clusterOverlay l num
  let k := l.record.spanOf (num * max l.record.cluster 1)
  let s := (s.updSpan l.uid k fun x => { x with spad := mergeMem ov x.spad }).updCluster l.uid num fun c => { c with overlay := [] }
  s.updLaunch l.uid fun x => { x with overlays := tdel x.overlays num }

/-- Completion of a BARP generation: cluster overlays merge into the scratchpad in ascending cluster
number (10 R187). -/
def State.mergeClusters (s : State) (l : Launch) : List Nat → State
  | [] => s
  | c :: r => (s.mergeClusterOverlay l c).mergeClusters l r

end Sys2Proof.Machine
end

