-- ==== Sys2Proof/Machine/Ops.lean ====
section
/-! DEFINITION. The shared operations of the instruction meanings: retiring and moving on, barriers and the
end of a warp, fault records, and TAKING A FAULT: one operation (`State.deliver`) for every fault of every
instruction, with the four policies and the continuation's entry, and RESUME's return beside it (chapter 19). -/

namespace Sys2Proof.Machine

/-! ### Code (04 R62) -/

/-- The code image of a launch. -/
def State.imageOf (s : State) (l : Launch) : List Byte := (s.x.code[l.image]?.map CodeImage.bytes).getD []

/-- What stands at a PC of a launch's image (03 R52). -/
def State.decodeAt (s : State) (l : Launch) (pc : Word) : Decoded := decode (((s.imageOf l).drop pc.toNat).take 8)

/-- The distance from a word to its successor. -/
def decodedLen : Decoded → Nat
  | .instr _ n => n
  | .illegalOpcode n => n
  | .reservedField n => n

/-! ### Retiring -/

/-- The end of a warp's tripod frame (10 R185): the warp stalls until the commit. -/
def Frame.finish (f : Frame) : Frame := { f with ended := true }

/-- Count a retired instruction in the frame; the F-th ends it (10 R185). -/
def Frame.retire (f : Frame) (len : Nat) : Frame :=
  { f with count := f.count + 1, ended := f.ended || decide (f.count + 1 = len) }

/-- A warp after one retired instruction (20 R294, R310; 10 R185). -/
def Warp.retire (w : Warp) (l : Launch) : Warp :=
  { w with
    retired := w.retired + 1
    idle := 0
    prof := profRetire w.prof
    frame := if l.record.tripod then w.frame.retire l.record.frameLen else w.frame }

/-- A path that goes on at a PC after its instruction. -/
def Path.goOn (p : Path) (pc : Word) : Path :=
  { p with pc := pc, only := none, carry := none, waitStart := none, waitOn := none, passed := false, drawn := none
           frameServed := false, back := none, park := .none, starve := 0, starved := false }

/-- A warp retires one instruction: counters and the contact sheet's retire record (20 R307); dest is the
register that the record names, path its PATH bit. -/
def State.retireWarp (s : State) (r : WarpRef) (active pc : Word) (dest : Option Nat) (flags : Nat) (path : Bool) : State :=
  match s.warp? r, s.launch? r.launch with
  | some w, some l => (s.setWarp (w.retire l)).sheet r active pc none ((dest.map destCode).getD 255) (flags + 32 * b2n path) 0
  | _, _ => s

/-- An instruction of a path retires and the path goes on at npc; where a RETRY has put it back to the instruction, at the
NPC of the fault instead (19 R290). -/
def State.retireTo (s : State) (r : WarpRef) (slot : Bool) (active pc : Word) (dest : Option Nat) (flags : Nat)
    (npc : Word) : State :=
  match s.warp? r with
  | none => s
  | some w =>
    let watch := ((w.path? slot).map fun p => p.drawn.isSome).getD false
    (s.updPath r slot fun p => p.goOn (p.back.getD npc)).retireWarp r active pc dest (flags + 2 * b2n watch) (w.pathBit slot)

/-- A number that no instruction of a path with writes outstanding has. -/
def nextNo (ws : List PendingWrite) : Nat := ws.foldl (fun a x => max a (x.no + 1)) 0

/-- New outstanding writes of a path (04 R64), remembered as uncovered too (20 R308). -/
def Path.outstanding (p : Path) (pc : Word) (ws : List (WTarget × Word)) : Path :=
  let regs := (ws.filterMap fun x => x.1.reg?).eraseDups
  { p with
    writes := p.writes ++ ws.map (fun x => ⟨x.1, x.2, pc, nextNo p.writes⟩)
    uncovered := (p.uncovered.filter fun u => !(regs.contains u.dest)) ++ regs.map (fun n => ⟨n, pc⟩) }

/-- The switch marker (04 R65): the path parks while it has writes outstanding. -/
def Path.mark (p : Path) (m : Bool) : Path :=
  if m then { p with
    uncovered := [], park := if p.writes = [] ∧ p.pending = [] then p.park else if p.park = .none then .marker else p.park }
  else p

/-! ### Barriers (08 R157, R158) -/

/-- Whether a warp takes part in a barrier of another warp's block, cluster or grid. -/
def inScope (l : Launch) (r : WarpRef) (u : BarUnit) (w : Warp) : Bool :=
  decide (w.ref.launch = r.launch) &&
  (match u with
    | .block _ => decide (w.ref.block = r.block)
    | .cluster => decide (l.record.clusterOf w.ref.block = l.record.clusterOf r.block)
    | .package => true)

/-- The warps that a barrier counts: those that have not fully exited. In a tripod launch a warp counts as exited
once its last frame is committed (10 R185). -/
def State.members (s : State) (l : Launch) (r : WarpRef) (u : BarUnit) : List Warp :=
  s.x.warps.filter fun w => inScope l r u w && ((!w.allExited && !w.ended) || (l.record.tripod && w.frame.ended))

/-- The barrier a warp names. -/
def State.barrier (s : State) (l : Launch) (r : WarpRef) (u : BarUnit) : Barrier :=
  match u with
  | .block id => ((s.block? r.launch r.block).bind fun b => tget b.barriers id).getD Barrier.fresh
  | .cluster => ((s.cluster? r.launch (l.record.clusterOf r.block)).map LaunchCluster.barc).getD Barrier.fresh
  | .package => ((s.launch? l.uid).map Launch.barp).getD l.barp

/-- Replace a barrier. -/
def State.setBarrier (s : State) (l : Launch) (r : WarpRef) (u : BarUnit) (b : Barrier) : State :=
  match u with
  | .block id => s.updBlock r.launch r.block fun x => { x with barriers := tput x.barriers id b }
  | .cluster => s.updCluster r.launch (l.record.clusterOf r.block) fun c => { c with barc := b }
  | .package => s.updLaunch r.launch fun x => { x with barp := b }

/-- The generation at which a warp last arrived. -/
def Barrier.recordedOf (b : Barrier) (r : WarpRef) : Option Nat :=
  (b.recorded.find? fun x => decide (x.1 = r)).map Prod.snd

/-- Begin a new tripod frame at a number (10 R186). -/
def Frame.begin (f : Frame) (no : Nat) : Frame :=
  { f with no := no, next := none, count := 0, used := 0, ended := false, buf := [] }

/-- What a completed generation does to a participant's tripod frame (10 R186): one that waits begins the
frame after the highest begun in its block; the next frame of one that goes on has that number. -/
def Warp.barrierFrame (w : Warp) (hi : Nat) (waiting : Bool) : Warp :=
  if waiting then { w with frame := w.frame.begin (hi + 1) } else { w with frame := { w.frame with next := some (hi + 1) } }

/-- A path that waits for a generation below g of a barrier. -/
def Path.waitsBelow (p : Path) (u : BarUnit) (g : Nat) : Bool :=
  match p.park with
  | .barrier v k => decide (v = u) && decide (k < g)
  | _ => false

/-- The switch marker of the word at a PC (03 R41). -/
def State.markerAt (s : State) (l : Launch) (pc : Word) : Bool :=
  decide (0x80 ≤ (((s.imageOf l)[pc.toNat + 3]?).getD 0).toNat)

/-- An instruction that waited at its PC retires when its wait ends, and the path goes on at its successor; dest is
the register that its retire record names. -/
def Ctx.waitDoneWith (c : Ctx) (s : State) (dest : Option Nat) (len : Nat) : State :=
  let s := s.retireTo c.ref c.slot c.active c.p.pc dest 0 (c.p.pc + BitVec.ofNat 32 len)
  s.updPath c.ref c.slot fun p => p.mark (c.s.markerAt c.l c.p.pc)

/-- An instruction without a destination has waited at its PC. -/
def Ctx.waitDone (c : Ctx) (s : State) (len : Nat) : State := c.waitDoneWith s none len

/-- Release one slot's path if its generation has completed: the barrier instruction retires. -/
def State.releaseSlot (s : State) (r : WarpRef) (slot : Bool) (u : BarUnit) (g : Nat) : State :=
  match s.ctxAt? r slot with
  | none => s
  | some c =>
    if c.p.waitsBelow u g then c.waitDone s 4
    else if c.p.park = .arrive u then s.updPath r slot fun p => { p with park := .none }
    else s

/-- Release the waiters of a barrier whose generation now is g. -/
def State.releaseWaiters (s : State) (u : BarUnit) (g : Nat) : List WarpRef → State
  | [] => s
  | r :: rs => ((s.releaseSlot r false u g).releaseSlot r true u g).releaseWaiters u g rs

/-- Tripod frames of the participants of a completed generation. -/
def State.barrierFrames (s : State) (l : Launch) (u : BarUnit) (g : Nat) : List WarpRef → State
  | [] => s
  | r :: rs =>
    if !l.record.tripod then s
    else
      let hi := ((s.block? r.launch r.block).map Block.frameMax).getD 0
      let waiting := ((s.warp? r).map fun w => w.live.any fun x => x.2.waitsBelow u g).getD false
      let s := s.updWarp r fun w => w.barrierFrame hi waiting
      s.barrierFrames l u g rs

/-- The highest frame number begun in each block after a generation (10 R186). -/
def State.noteFrames (s : State) : List WarpRef → State
  | [] => s
  | r :: rs =>
    let n := ((s.warp? r).map fun w => w.frame.no).getD 0
    (s.updBlock r.launch r.block fun b => { b with frameMax := max b.frameMax n }).noteFrames rs

/-- The launch clusters of a launch that hold a cluster overlay, in ascending number: the resident ones, and those
that have ended since the last BARP generation. -/
def State.clusterNums (s : State) (uid : Nat) : List Nat :=
  ((s.x.clusters.filter fun c => c.launch = uid).map LaunchCluster.num ++
    ((s.launch? uid).map fun l => l.overlays.map Prod.fst).getD []).mergeSort

/-- The range locks of a tripod launch that wait for a cluster or package generation are released
(10 R188). -/
def State.freeTripodLocks (s : State) (l : Launch) (r : WarpRef) (u : BarUnit) : State :=
  match u with
  | .block _ => s
  | _ => { s with x := { s.x with ops := s.x.ops.filter fun o =>
      !(decide (o.ref.launch = l.uid) && decide (o.stage = .committed) &&
        (decide (u = .package) || decide (l.record.clusterOf o.ref.block = l.record.clusterOf r.block))) } }

/-- The slots of the matrix engines of a barrier's blocks that a generation opens (14 R244). -/
def State.openSlots (s : State) (u : BarUnit) (gen : Nat) (arrived : List WarpRef) : State :=
  { s with x := { s.x with engines := s.x.engines.map fun e =>
    (e.1, { e.2 with slots := e.2.slots.map fun sl =>
      (sl.1, if (u, gen) ∈ sl.2.barKeys ∧ sl.2.filler ∈ arrived ∧ sl.2.fillStage = 2
             then { sl.2 with fillStage := 3, barKeys := [] } else sl.2) }) } }

/-- A block whose warps a flush has taken away, or is about to, while it waits to be placed again: its warps have
not exited (08 R158). -/
def State.awaitsRestart (s : State) (l : Launch) (r : WarpRef) (u : BarUnit) : Bool :=
  s.x.blocks.any fun b => decide (b.launch = r.launch) && !b.released &&
    (match u with
      | .block _ => decide (b.id = r.block)
      | .cluster => decide (l.record.clusterOf b.id = l.record.clusterOf r.block)
      | .package => true) &&
    (decide (b.pre = .flushing) || decide (b.pre = .saving) && decide (s.warpsOf b.launch b.id = []))

/-- No die is there to hold negatives: one die at most is in use (24 R349). -/
def State.hostless (s : State) : Bool := decide (((List.range 8).filter fun d => s.dieInUse d).length ≤ 1)

/-- A launch with RESIL > 0 runs without resilience; the log says so once (24 R349). -/
def State.noteHostless (s : State) (l : Launch) : State :=
  if l.record.resil ≠ 0 ∧ s.hostless ∧ s.ctl.log.contains (.noNegativeHost l.uid) = false then
    s.logEvent (.noNegativeHost l.uid)
  else s

/-- A generation completes when every member has arrived (08 R157): the counter advances, the flags clear,
waiters go on; overlays merge at BARC and BARP (10 R187); every RESIL-th BARP generation first takes a
negative (24 R350), whose completion releases the waiters. -/
def State.tryComplete (s : State) (l : Launch) (r : WarpRef) (u : BarUnit) : State :=
  let b := s.barrier l r u
  let ms := s.members l r u
  if b.arrived = [] || !(ms.all fun w => b.arrived.contains w.ref) || s.awaitsRestart l r u then s
  else
    let g := b.gen + 1
    let s := s.setBarrier l r u { b with gen := g, arrived := [] }
    let s := match u with
      | .block _ => s
      | .cluster => if l.record.tripod then
          s.mergeBlocks l (l.record.clusterOf r.block) (s.clusterBlocks l (l.record.clusterOf r.block)) else s
      | .package =>
        let s := if l.record.tripod then s.mergeClusters l (s.clusterNums l.uid) else s
        ((ms.map fun (w : Warp) => s.dieOf w.ref).eraseDups).foldl (fun s d => s.notify d l.record.world 0) s
    let s := s.freeTripodLocks l r u
    let s := s.openSlots u b.gen b.arrived
    let s := (s.barrierFrames l u g b.arrived).noteFrames b.arrived
    if u = .package ∧ l.record.resil ≠ 0 ∧ g % l.record.resil = 0 ∧ s.hostless = false then
      s.updLaunch l.uid fun x => { x with negWait := true }
    else (s.noteHostless l).releaseWaiters u g (ms.map Warp.ref)

/-- The generations that a die's warps of a launch run again after a recovery, while there are any (24 R352). -/
def Launch.replayOn (l : Launch) (die : Nat) : Option BarpReplay :=
  l.replays.find? fun x => decide (x.die = die) && decide (0 < x.behind)

/-- The warps of a launch on a die that a package generation counts, as `State.members` does. -/
def State.membersOn (s : State) (l : Launch) (die : Nat) : List Warp :=
  s.x.warps.filter fun w => decide (w.ref.launch = l.uid) && decide (s.dieOf w.ref = die) &&
    ((!w.allExited && !w.ended) || (l.record.tripod && w.frame.ended))

/-- A package generation that a recovered die runs again completes on that die when each of its warps has
arrived; its effects on the die happen again, and its waiters go on, unless the launch waits for a
negative. -/
def State.tryReplay (s : State) (uid die : Nat) : State :=
  match s.launch? uid with
  | none => s
  | some l =>
    match l.replayOn die with
    | none => s
    | some rp =>
      let ms := (s.membersOn l die).map Warp.ref
      if rp.arrived = [] || !(ms.all fun r => rp.arrived.contains r) then s
      else
        let g := l.barp.gen - rp.behind
        let s := s.updLaunch uid fun x => { x with replays := x.replays.map fun y =>
          if y.die = die then { y with behind := y.behind - 1, arrived := [] } else y }
        let nums := ((s.x.clusters.filter fun c => c.launch = uid ∧ c.die = die).map LaunchCluster.num ++
          (l.overlays.filter fun o => decide (o.2.1 = die)).map Prod.fst).mergeSort
        let s := if l.record.tripod then s.mergeClusters l nums else s
        let s := s.openSlots .package g rp.arrived
        let s := (s.barrierFrames l .package (g + 1) rp.arrived).noteFrames rp.arrived
        if rp.behind = 1 && l.negWait then s else s.releaseWaiters .package (g + 1) ms

/-- The slots a warp has filled and waited for are open once a generation at which it arrives from now on
completes, whichever is first (14 R244). -/
def State.arriveSlots (s : State) (r : WarpRef) (u : BarUnit) (gen : Nat) : State :=
  { s with x := { s.x with engines := s.x.engines.map fun e =>
    (e.1, { e.2 with slots := e.2.slots.map fun sl =>
      (sl.1, if sl.2.filler = r ∧ (sl.2.fillStage = 1 ∨ sl.2.fillStage = 2)
             then { sl.2 with fillStage := 2, barKeys := sl.2.barKeys ++ [(u, gen)] } else sl.2) }) } }

/-- A warp arrives at a barrier's current generation and records it (08 R157). -/
def State.arriveBarrier (s : State) (l : Launch) (r : WarpRef) (u : BarUnit) : State :=
  let b := s.barrier l r u
  let s := s.arriveSlots r u b.gen
  s.setBarrier l r u
    { b with
      arrived := b.arrived ++ [r]
      recorded := (b.recorded.filter fun x => decide (x.1 ≠ r)) ++ [(r, b.gen)] }

/-- A warp leaves a barrier when its last lane exits: an open arrival is withdrawn, and the generation may
complete without it (08 R157). -/
def State.leaveBarrier (s : State) (r : WarpRef) (u : BarUnit) : State :=
  match s.launch? r.launch with
  | none => s
  | some l =>
    let b := s.barrier l r u
    let s := (s.setBarrier l r u { b with arrived := b.arrived.filter fun x => decide (x ≠ r) }).tryComplete l r u
    if u = .package then s.tryReplay r.launch (s.dieOf r) else s

/-- Leave every barrier of the block, its cluster and the grid. -/
def State.leaveBarriers (s : State) (r : WarpRef) : State :=
  let ids := ((s.block? r.launch r.block).map fun b => b.barriers.map Prod.fst).getD []
  let s := ids.foldl (fun s id => s.leaveBarrier r (.block id)) s
  (s.leaveBarrier r .cluster).leaveBarrier r .package

/-! ### Fault records (19 R285, R286) -/

/-- A lane entry of 64 bits. -/
def LaneEntry.bytes (e : LaneEntry) : List Byte :=
  leBytes 8 (e.addr.toNat * 2 ^ 32 + e.detail % 2 ^ 16 * 2 ^ 16 + e.kind.code * 2 ^ 8 + e.lane % 256)

/-- A fault record's header fields. -/
structure RecordHead where
  mask : LaneMask
  pc : Word
  block : Nat
  warp : Nat
  path : Bool
  cls : FaultClass
  kind : FaultKind
  deriving DecidableEq, Repr

/-- The bytes of a record. -/
def RecordHead.bytes (h : RecordHead) (es : List LaneEntry) : List Byte :=
  leBytes 16 (h.mask.toNat * 2 ^ 96 + h.pc.toNat * 2 ^ 64 + h.block % 2 ^ 40 * 2 ^ 24 + h.warp % 32 * 2 ^ 19 +
    b2n h.path * 2 ^ 18 + h.cls.code * 2 ^ 16 + es.length % 256 * 2 ^ 8 + h.kind.code) ++
  (es.map LaneEntry.bytes).flatten

/-- Write bytes through the translations that a launch holds of its fault buffer (07 R393). -/
def State.writeFrames (s : State) (l : Launch) (va : Nat) (bs : List Byte) : State :=
  go s va (pieces va bs.length) bs
where
  /-- Piece by piece. -/
  go (s : State) (va : Nat) : List (Nat × Nat) → List Byte → State
    | [], _ => s
    | (a, n) :: r, bs =>
      match tget l.faultFrames (a / 65536) with
      | none => s
      | some f =>
        match s.portRefuses none l.record.world (f + a % 65536) with
        | some o => go (s.logRefused l.iface none o l.record.world) va r (bs.drop n)
        | none => go (s.writePage none l.record.world none (f + a % 65536) (bs.take n)) va r (bs.drop n)

/-- Read bytes through the held translations; a piece that a die refuses reads as nothing. -/
def State.readFrames (s : State) (l : Launch) (va n : Nat) : List Byte × State :=
  go s (pieces va n)
where
  /-- Piece by piece. -/
  go (s : State) : List (Nat × Nat) → List Byte × State
    | [] => ([], s)
    | (a, n) :: r =>
      match tget l.faultFrames (a / 65536) with
      | none => ([], s)
      | some f =>
        match s.portRefuses none l.record.world (f + a % 65536) with
        | some o => go (s.logRefused l.iface none o l.record.world) r
        | none =>
          let x := s.readPage none l.record.world (f + a % 65536) n
          let y := go x.2 r
          (x.1 ++ y.1, y.2)

/-- Reserve and write a fault record in the launch's buffer; the result holds its index, 0xFFFF_FFFF for a dropped one
(19 R285). -/
def State.recordInto (s : State) (l : Launch) (h : RecordHead) (es : List LaneEntry) : State × Nat :=
  let va := l.record.faultVa
  let n := 16 + 8 * es.length
  let (hdr, s) := s.readFrames l va 16
  let used := leNat (hdr.take 8)
  if 16 + used + n ≤ l.record.faultCap then
    let s := s.writeFrames l (va + 16 + used) (h.bytes es)
    let s := s.writeFrames l va (addWord (hdr.take 8) n)
    (s.updLaunch l.uid fun x => { x with nrec := x.nrec + 1 }, l.nrec)
  else (s.writeFrames l (va + 8) (addWord (hdr.drop 8) 1), 0xFFFFFFFF)

/-- The address that the answer to a die's fault record has in its reel: no memory's. -/
def recordAddr : Nat := 2 ^ 60

/-- The record that a die sends the control die, which answers with its index (24 R351). After a recovery a record that had
been accepted is discarded, and its first answer, which the reel replays, gives the index (24 R352 steps 4 and 5). -/
def State.recordFrom (s : State) (d : Nat) (l : Launch) (h : RecordHead) (es : List LaneEntry) : State × Nat :=
  match s.toControl d with
  | (true, s) =>
    let (s, k) := s.recordInto l h es
    (s.stampMessage ⟨8, d, l.record.world, none, recordAddr, leBytes 4 k, true⟩, k)
  | (false, s) =>
    match takeReplayed recordAddr 4 (s.die d).replayed with
    | some (bs, rest) => (s.updDie d fun x => { x with replayed := rest }, leNat bs)
    | none => (s, 0xFFFFFFFF)

/-- A fault's record and its index, 0xFFFF_FFFF without a buffer (19 R285). The launch's first record gives its completion
KIND (27 R375). DESIGN CHOICE (notes/assumptions/12.md): a buffer too small for its header takes no record, and none is
counted as dropped there. -/
def State.faultRecord (s : State) (uid : Nat) (h : RecordHead) (es : List LaneEntry) : State × Nat :=
  match s.launch? uid with
  | none => (s, 0xFFFFFFFF)
  | some l =>
    let s := s.updLaunch uid fun x => { x with firstKind := some (x.firstKind.getD h.kind) }
    if l.record.faultVa = 0 ∨ l.faultFrames = [] ∨ l.record.faultCap < 16 then (s, 0xFFFFFFFF)
    else
      match s.block? uid h.block with
      | some b => s.recordFrom b.die l h es
      | none => s.recordInto l h es

/-! ### Batch errors that no WAITB reports (13 R217) -/

/-- The lane entries of a batch error that is reported for a lane (19 R286): one for each row it names (14 R239,
R242), else one for the lane. -/
def BatchError.entriesAt (e : BatchError) (lane : Nat) : List LaneEntry :=
  let n := e.closeNo % 65536
  if e.rows = [] then [⟨lane, e.kind, n, e.addr⟩] else e.rows.map fun r => ⟨r.1, e.kind, n, r.2⟩

/-- The lane entries of the record that an unreported batch error leaves (13 R217). -/
def BatchError.entries (e : BatchError) : List LaneEntry := e.entriesAt (lowestLane e.mask)

/-- Whether every operation of a warp's batch has finished. -/
def State.batchFinished (s : State) (r : WarpRef) (closeNo : Nat) : Bool :=
  s.x.ops.all fun o => !(decide (o.ref = r) && decide (o.closeNo = closeNo)) || o.finished

/-- The earliest error, in issue order, of a batch. -/
def earliestError (es : List BatchError) (closeNo : Nat) : Option BatchError :=
  (es.filter fun e => e.closeNo = closeNo).foldl (fun b e =>
    match b with
    | none => some e
    | some x => if e.op < x.op then some e else some x) none

/-- The record that an unreported batch error leaves; the launch completes FAULTED (13 R217). A launch that ends
DIE_LOST has no further fault (24 R353). -/
def State.reportBatch (s : State) (r : WarpRef) (e : BatchError) : State :=
  if (s.launch? r.launch).bind Launch.stopping = some .dieLost then s else
  let s := (s.faultRecord r.launch ⟨e.mask, e.pc, r.block, r.warp, false, .batch, e.kind⟩ e.entries).1
  s.updLaunch r.launch fun l => { l with faulted := true }

/-- Write one record for each finished batch of an ended warp that holds an unreported error. -/
def State.reportBatches (s : State) (r : WarpRef) : List Nat → State
  | [] => s
  | n :: ns =>
    match s.warp? r with
    | none => s
    | some w =>
      match earliestError w.errors n with
      | none => s.reportBatches r ns
      | some e =>
        if s.batchFinished r n then
          ((s.reportBatch r e).updWarp r fun w => { w with errors := w.errors.filter fun x => decide (x.closeNo ≠ n) }).reportBatches r ns
        else s.reportBatches r ns

/-! ### The end of a warp (06 R99) -/

/-- The warp has no live lane left: its frame ends, profile sets are written, it leaves its barriers,
unreported errors of finished batches are recorded; a warp that ends in continuation makes the launch
FAULTED (19 R288); an armed INJECT disarms (21 R324). In a tripod launch it leaves its barriers at the commit of
its last frame (10 R185). -/
def State.endWarp (s : State) (r : WarpRef) : State :=
  match s.warp? r with
  | none => s
  | some w =>
    if w.ended then s
    else
      let tripod := ((s.launch? r.launch).map fun l => l.record.tripod).getD false
      let s := s.profFlush r w.prof
      let s := if w.frozen.isSome then s.updLaunch r.launch fun l => { l with faulted := true } else s
      let s := s.updWarp r fun w =>
        { w with ended := true, p0 := none, p1 := none, groups := [], frozen := none, inject := none
                 frame := if tripod then w.frame.finish else w.frame
                 loupe := { w.loupe with place := .home, pause := .none, brk := none } }
      let s := if tripod then s else s.leaveBarriers r
      s.reportBatches r ((w.errors.map BatchError.closeNo).eraseDups)

/-! ### Policies (19 R287) -/

/-- Land every warp of a launch (04 R69). -/
def State.landAll (s : State) : List WarpRef → State
  | [] => s
  | r :: rs => (s.landBoth r).landAll rs

/-- ABORT: no further block is placed, every resident block stops and is released without a save, the
launch completes with a status (19 R287). -/
def State.abort (s : State) (uid : Nat) (st : Status) : State :=
  let s := s.landAll ((s.x.warps.filter fun w => w.ref.launch = uid).map Warp.ref)
  let s := { s with x := { s.x with blocks := s.x.blocks.map fun (b : Block) => if b.launch = uid then { b with stopped := true } else b } }
  s.updLaunch uid fun l => { l with faulted := true, stopping := some (l.stopping.getD st) }

/-- Whether a transfer may take a warp of a launch (24 R345): world 0, or a session with DEBUG = 1. -/
def State.debugAllowed (s : State) (l : Launch) : Bool :=
  decide (l.record.world = 0) || ((s.iface l.iface).session.map Session.debug).getD false

/-- A loupe slot that no warp of the die holds or is bound for (20 R294): core and slot. -/
def State.freeLoupeSlot (s : State) (d : Nat) : Option (Nat × Nat) :=
  let used := s.x.warps.filterMap fun w =>
    if s.dieOf w.ref = d then
      match w.loupe.place with
      | .loupe c k => some (slotByte c k)
      | .leaving c k => some (slotByte c k)
      | _ => none
    else none
  ((List.range 32).find? fun n => !(used.contains n)).map fun n => (n / 8, n % 8)

/-- The place of a warp in its die's queue for a slot. -/
def Warp.ticket? (w : Warp) : Option Nat :=
  match w.loupe.place with
  | .wanting t => some t
  | _ => none

/-- The slot that a warp may take now: a free one, when no warp of the die waits before it (20 R294). -/
def State.slotFor (s : State) (r : WarpRef) : Option (Nat × Nat) :=
  let mine := (s.warp? r).bind Warp.ticket?
  let before (w : Warp) : Bool := decide (w.ref ≠ r) && decide (s.dieOf w.ref = s.dieOf r) && !w.ended &&
    (match w.ticket?, mine with
      | some t, some m => decide (t < m)
      | some _, none => true
      | none, _ => false)
  if s.x.warps.any before then none else s.freeLoupeSlot (s.dieOf r)

/-- A path that waited at an instruction is done with it. -/
def Path.pass (p : Path) (k : Park) (len : Nat) : Path :=
  if p.park = k then p.goOn (p.back.getD (p.pc + BitVec.ofNat 32 len)) else p

/-- The instruction at which a frozen path waits retires; the path goes on when its warp resumes (16 R271). -/
def State.endFrozen (s : State) (r : WarpRef) (slot : Bool) (k : Park) (dest : Option Nat) : State :=
  match s.warp? r, s.launch? r.launch, s.block? r.launch r.block with
  | some w, some l, some b =>
    match w.frozen with
    | none => s
    | some f =>
      match if slot then f.p1 else f.p0 with
      | none => s
      | some p =>
        if p.park ≠ k then s
        else
          let q := p.pass k (decodedLen (s.decodeAt l p.pc))
          let f := if slot then { f with p1 := some q } else { f with p0 := some q }
          (s.setWarp { w with frozen := some f }).retireWarp r (⟨s, r, slot, l, b, w, p⟩ : Ctx).active p.pc dest 0 (w.pathBit slot)
  | _, _, _ => s

/-- The instruction at which the path in a slot is parked retires, and so does that of the slot's frozen path
(16 R258, 14 R231). -/
def State.endWait (s : State) (r : WarpRef) (slot : Bool) (k : Park) : State :=
  let s := match s.ctxAt? r slot with
    | some c => if c.p.park = k then c.waitDone s (decodedLen (s.decodeAt c.l c.p.pc)) else s
    | none => s
  s.endFrozen r slot k none

/-- The same for both slots. -/
def State.endWaits (s : State) (r : WarpRef) (k : Park) : State := (s.endWait r false k).endWait r true k

/-- Every LOUPE and DBGBRK at which a path of a warp waits for a slot completes: the path goes on after it (21 R319). -/
def State.endSlotWaits (s : State) (r : WarpRef) : State := s.endWaits r .loupeSlot

/-- Send a warp to a loupe core of its die (20 R294, R295): it stops, its writes land and it leaves for a free
slot, or it goes on and waits for one; its INJECT disarms (21 R324). -/
def State.sendToLoupe (s : State) (r : WarpRef) : State :=
  match ((s.warp? r).map Warp.loupe).map LoupeState.place with
  | some (.leaving _ _) => s
  | some (.loupe _ _) => s
  | _ =>
    match s.slotFor r with
    | some (c, k) =>
      ((s.endSlotWaits r).landBoth r).updWarp r fun w =>
        { w with inject := none, loupe := { w.loupe with place := .leaving c k } }
    | none =>
      { s with nextOp := s.nextOp + 1 }.updWarp r fun w =>
        if w.ticket?.isSome then w else { w with loupe := { w.loupe with place := .wanting s.nextOp } }

/-! ### Continuations (19 R288, R289) -/

/-- Write a field into a number at a bit position. -/
def putField (x : Nat) (lo v : Nat) : Nat := x + v * 2 ^ lo

/-- The trap context of 19 R289. Fields that are not valid are written as zero (22 R330). -/
def trapContext (w : Warp) (slot : Bool) (cls : FaultClass) (kind : FaultKind)
    (fmask : LaneMask) (fpc npc : Word) (ridx : Nat) : Nat :=
  let p := w.path? slot
  let o := w.path? (!slot)
  let places := (if o.isSome then 1 else 0) + (if w.heldLanes = 0 then 0 else 1)
  let top (q : Option Path) : Nat := ((q.bind fun q => q.stack.head?).map fun e => e.pc.toNat).getD 0xFFFFFFFF
  let depth (q : Option Path) : Nat := (q.map fun q => q.stack.length).getD 0
  let g := w.lowestGroup
  let x := putField 0 0 fpc.toNat
  let x := putField x 32 kind.code
  let x := putField x 40 cls.code
  let x := putField x 42 (b2n (w.pathBit slot))
  let x := putField x 43 (b2n o.isSome)
  let x := putField x 44 (b2n (decide (places ≠ 0)))
  let x := putField x 48 (depth p)
  let x := putField x 53 (depth o)
  let x := putField x 58 (if places ≠ 0 then w.splitReg % 64 else 0)
  let x := putField x 64 ridx
  let x := putField x 96 (get0 w.sregs 0).toNat
  let x := putField x 128 (get0 w.sregs 1).toNat
  let x := putField x 160 (get0 w.sregs 2).toNat
  let x := putField x 192 ((p.map fun p => p.mode.toNat).getD 0)
  let x := putField x 224 ((p.map fun p => p.ix.toNat).getD 0)
  let x := putField x 256 ((o.map fun p => p.pc.toNat).getD 0)
  let x := putField x 288 ((o.map fun p => p.mode.toNat).getD 0)
  let x := putField x 320 ((o.map fun p => p.ix.toNat).getD 0)
  let x := putField x 352 npc.toNat
  let x := putField x 384 fmask.toNat
  let x := putField x 512 (pathLanes p).toNat
  let x := putField x 640 (pathLanes o).toNat
  let x := putField x 768 w.exited.toNat
  let x := putField x 896 w.heldLanes.toNat
  let x := putField x 1024 (top p)
  let x := putField x 1056 (top o)
  let x := putField x 1088 ((g.map fun g => g.key.pc.toNat).getD 0xFFFFFFFF)
  putField x 1120 ((g.map fun g => (g.key.mask w).toNat).getD 0)

/-- Where a warp's trap context lies in BSM (09 R164). -/
def LaunchRecord.trapAddr (r : LaunchRecord) (warp : Nat) : Nat := r.bsmSize + 256 * warp

/-- s0 to s2 have been written anew: they hold no uncorrectable error. -/
def soundContext (soft : List (Nat × Nat)) : List (Nat × Nat) := soft.filter fun e => !(decide (256 ≤ e.1) && decide (e.1 < 259))

/-- Entry into the continuation (19 R288): the trap context is written, the divergence state frozen, and
one new path over every non-exited lane starts at CONT. -/
def State.enterContinuation (s : State) (l : Launch) (w : Warp) (slot : Bool) (cls : FaultClass)
    (kind : FaultKind) (fmask : LaneMask) (fpc npc : Word) (ridx : Nat) : State :=
  let addr := l.record.trapAddr w.ref.warp
  let s := s.writePlace (.bsm w.ref.launch w.ref.block) addr
    (leBytes 256 (trapContext w slot cls kind fmask fpc npc ridx))
  s.updWarp w.ref fun w =>
    { w with
      frozen := some ⟨w.p0, w.p1, w.groups, slot, fpc, npc, fmask, pathLanes (w.path? slot)⟩
      p0 := some (Path.start (BitVec.ofNat 32 l.record.cont) (~~~w.exited))
      p1 := none
      groups := []
      sregs := put0 (put0 (put0 w.sregs 0 (BitVec.ofNat 32 addr)) 1 (BitVec.ofNat 32 kind.code)) 2 (BitVec.ofNat 32 ridx)
      soft := soundContext w.soft }

/-! ### Taking a fault -/

/-- Delivery of one fault (19 R284, R287): both live paths land, the record is written, the policy acts.
fpc is the faulting instruction, npc its successor, fmask the faulting lanes, es the lane entries. A fault
inside a continuation acts as under ABORT; so does LOUPE where no transfer may take the warp. A block that has been stopped
has no further fault (19 R287, 24 R353). -/
def State.deliverCore (s : State) (r : WarpRef) (slot : Bool) (cls : FaultClass) (kind : FaultKind)
    (es : List LaneEntry) (fmask : LaneMask) (fpc npc : Word) : State :=
  let s := s.landBoth r
  match s.ctxAt? r slot with
  | none => s
  | some c =>
    if c.b.stopped then s
    else
    let (s, ridx) := s.faultRecord r.launch ⟨fmask, fpc, r.block, r.warp, c.w.pathBit slot, cls, kind⟩ es
    if c.w.frozen.isSome then s.abort r.launch .faulted
    else if c.l.record.policy = 0 then s.abort r.launch .faulted
    else if c.l.record.policy = 1 then
      (s.updLaunch r.launch fun l => { l with faulted := true }).updWarp r fun w => w.exitLanes fmask
    else if c.l.record.policy = 2 then s.enterContinuation c.l c.w slot cls kind fmask fpc npc ridx
    else if (s.loupeSite? c.b.die).isSome && s.debugAllowed c.l then
      let s := s.updLaunch r.launch fun l => { l with faulted := true }
      let s := s.updWarp r fun w => { w with loupe := { w.loupe with pause := .fault cls slot fpc npc fmask } }
      if c.w.onLoupe?.isSome then s else s.sendToLoupe r
    else s.abort r.launch .faulted

/-- What follows when lanes have moved or exited: groups complete, a warp without lanes ends, and a warp
whose every lane waits in a group that lacks lanes faults JOIN_CYCLE for the path that parked first
(07 R138, R139). The first number bounds the faults taken in a row. -/
def State.settle : Nat → State → WarpRef → Bool → State
  | 0, s, _, _ => s
  | n + 1, s, r, actor =>
    match s.warp? r, s.launch? r.launch with
    | some w, some l =>
      if w.ended then s
      else if w.allExited then s.endWarp r
      else
        let w := w.settle actor
        let s := s.setWarp w
        if w.stuck then
          match w.unstick with
          | none => s
          | some w' =>
            let p := (w'.p0.getD (Path.start 0 0))
            let s := s.setWarp w'
            let npc := p.pc + BitVec.ofNat 32 (decodedLen (s.decodeAt l p.pc))
            let s := s.deliverCore r false .path .joinCycle [⟨lowestLane p.lanes, .joinCycle, 0, 0⟩] p.lanes p.pc npc
            State.settle n s r false
        else s
    | _, _ => s

/-- Bound on the JOIN_CYCLE faults in a row: each removes an arrival, and a warp has 32 lanes. -/
def settleFuel : Nat := 40

/-- TAKING A FAULT: delivery, and what follows from lanes that exit. -/
def State.deliver (s : State) (r : WarpRef) (slot : Bool) (cls : FaultClass) (kind : FaultKind)
    (es : List LaneEntry) (fmask : LaneMask) (fpc npc : Word) : State :=
  State.settle settleFuel (s.deliverCore r slot cls kind es fmask fpc npc) r slot

/-- Park the issuing path at its instruction: the PC stays. -/
def Ctx.parkAt (c : Ctx) (s : State) (k : Park) : State :=
  (s.updPath c.ref c.slot fun p => { p with park := k, starve := 0, starved := false }).bump

/-- A splice operation of the warp is on its way: its results are outstanding (16 R267, R269). -/
def State.splicing (s : State) (r : WarpRef) : Bool := s.x.splices.any fun q => decide (q.ref = r)

/-- Do what needs the warp's outstanding writes to have landed (04 R69). While a splice operation still owes some,
the instruction takes no effect and waits at its PC; it issues again when they have landed. -/
def Ctx.drained (c : Ctx) (k : State) : State := if c.s.splicing c.ref then c.parkAt c.s .drain else k

/-- HAZARD records of an issue: registers read early, then registers overwritten (20 R308). -/
def Ctx.traceHazards (c : Ctx) (s : State) (active : LaneMask) (reads dests : List Nat) : State :=
  if c.p.uncovered = [] then s
  else
    let path := c.w.pathBit c.slot
    (s.hazards c.ref active c.p.pc path 1 reads.eraseDups c.p.uncovered).hazards c.ref active c.p.pc path 0x81
      dests.eraseDups c.p.uncovered

/-- The successor of the issuing word, where the path goes on; after a RETRY, the NPC of the fault (19 R290). -/
def Ctx.next (c : Ctx) (len : Nat) : Word := c.p.back.getD (c.p.pc + BitVec.ofNat 32 len)

/-- An issue fault or type fault (03 R51, 06 R88): class 1, no lane entries. Nothing of the instruction takes
effect. -/
def Ctx.issueFault (c : Ctx) (k : FaultKind) (len : Nat) : State :=
  c.drained (c.s.bump.deliver c.ref c.slot .path k [] c.p.lanes c.p.pc (c.next len))

/-! ### RESUME (19 R290) -/

/-- A number of n bytes of BSM. -/
def State.bsmNat (s : State) (r : WarpRef) (a n : Nat) : Nat := leNat (s.readPlace (.bsm r.launch r.block) a n)

/-- A path parked at a wait whose instruction issues again to see whether the wait has ended (16 R271). -/
def Path.rewait (p : Path) : Path :=
  { p with park := match p.park with
    | .waitf _ _ => .none
    | .batch _ => .none
    | .closeRoom => .none
    | .room => .none
    | .arrive _ => .none
    | .fence => .none
    | .publish _ => .none
    | .drain => .none
    | k => k }

/-- A path after a save or a transfer: its wait issues again, and a WAITF then reads its operands again, its
start clock kept (11 R205); a YIELD is over (21 R318, R327); no watchpoint has held it. -/
def Path.moved (p : Path) : Path :=
  let p := p.rewait
  { p with waitOn := none, passed := false, drawn := none, park := match p.park with | .yield _ => .none | k => k }

/-- A path that a RETRY puts back at an instruction, in some of its lanes: the instruction issues anew, and in every case
the path then goes on at npc, whatever it branches to (19 R290). -/
def Path.retryAt (p : Path) (pc : Word) (only : LaneMask) (npc : Word) : Path :=
  { p with pc := pc, only := some only, park := .none, waitStart := none, waitOn := none, passed := false
           drawn := none, frameServed := false, back := some npc }

/-- The return from a continuation: the frozen state comes back with FMODE and FIX, s0 to s2 from the
context. how = false (RETRY) re-executes the instruction at FPC in the lanes FMASK - M; how = true (SKIP)
makes the lanes of M and PMASK exit. Lanes that exited in the continuation are gone from every place of the
frozen state. m is the mask that RESUME has read after landing. In tripod mode the turn is the faulted path's again
(10 R185). DESIGN CHOICE (notes/assumptions/27.md): SPLITREG stays as a BRD of the continuation has left it. -/
def State.resume (s : State) (r : WarpRef) (skip : Bool) (m : LaneMask) : State :=
  match s.warp? r, s.launch? r.launch with
  | some w, some l =>
    match w.frozen with
    | none => s
    | some f =>
      let a := l.record.trapAddr r.warp
      let word (k : Nat) : Word := BitVec.ofNat 32 (s.bsmNat r (a + k) 4)
      let fmode := word 24
      if !modeLegal fmode then s.abort r.launch .faulted
      else
        let sregs := put0 (put0 (put0 w.sregs 0 (word 12)) 1 (word 16)) 2 (word 20)
        let redo := f.fmask &&& ~~~m &&& ~~~w.exited
        let back (p : Path) : Path :=
          let p := { p with mode := fmode, ix := word 28 }
          if !skip && decide (redo ≠ 0) then p.retryAt f.fpc redo f.npc else p.goOn f.npc
        let w := { w with
          p0 := f.p0.map Path.rewait, p1 := f.p1.map Path.rewait, groups := f.groups, frozen := none, sregs := sregs
          soft := soundContext w.soft, frame := { w.frame with turn := f.slot } }
        let w := w.updPath f.slot back
        let w := w.exitLanes (if skip then w.exited ||| (m &&& f.pmask) else w.exited)
        State.settle settleFuel (s.setWarp w) r f.slot
  | _, _ => s

/-! ### Issuing an instruction -/

/-- Run a meaning for the issuing path. -/
def withCtx (s : State) (f : Ctx → State) : Host.Outcome State Fault Refusal :=
  match s.ctx? with
  | none => .fault .noIssuingPath
  | some c => .next (f c)

/-- Run a meaning after the checks of 03 R50 and 06 R88: a register beyond the allotment faults REG_BOUNDS,
an element type the instruction does not accept faults ILLEGAL_MODE; both come before the guard. -/
def issueOp (s : State) (sh : Shape) (typeOk : Ctx → Bool) (f : Ctx → State) : Host.Outcome State Fault Refusal :=
  withCtx s fun c =>
    if !sh.inBounds c.l.record.regs then c.issueFault .regBounds sh.len
    else if !typeOk c then c.issueFault .illegalMode sh.len
    else f c

/-- Any element type (06 R88). -/
def anyType (_ : Ctx) : Bool := true

/-- The integer element types of 06 R101. -/
def intTypes (c : Ctx) : Bool := isIntType c.etype

/-- The floating-point element types of 06 R109. -/
def fpTypes (c : Ctx) : Bool := isFpType c.etype

/-- An instruction completes: hazards are logged, its register writes become outstanding, it retires, the
path goes on at npc, and the switch marker parks it while writes are outstanding. -/
def Ctx.complete (c : Ctx) (s : State) (sh : Shape) (active : LaneMask) (ws : List (WTarget × Word)) (npc : Word) : State :=
  let dests := ws.filterMap fun x => x.1.reg?
  let s := c.traceHazards s active sh.reads dests
  let s := s.updPath c.ref c.slot fun p => p.outstanding c.p.pc ws
  let s := s.retireTo c.ref c.slot active c.p.pc dests.head? 0 npc
  (s.updPath c.ref c.slot fun p => p.mark sh.m).bump

/-- A lane instruction that faults in some lanes: the other lanes complete, then the fault is delivered
(19 R284). Its kind is that of the lowest faulting lane. -/
def Ctx.completeLanes (c : Ctx) (s : State) (sh : Shape) (active : LaneMask) (out : LaneOut) : State :=
  match out.faults with
  | [] => c.complete s sh active out.writes (c.next sh.len)
  | e :: _ =>
    let dests := out.writes.filterMap fun x => x.1.reg?
    let s := c.traceHazards s active sh.reads dests
    let s := s.updPath c.ref c.slot fun p => p.outstanding c.p.pc out.writes
    let s := s.retireTo c.ref c.slot active c.p.pc dests.head? 64 (c.next sh.len)
    c.drained (s.bump.deliver c.ref c.slot .lane e.kind out.faults (faultMask out.faults) c.p.pc (c.next sh.len))

/-- Lane faults of one kind over lanes in ascending order. -/
def faultsOf (k : FaultKind) (lanes : List Nat) : List LaneEntry := lanes.map fun l => ⟨l, k, 0, 0⟩

/-- Lane faults in ascending lane order. -/
def sortFaults (es : List LaneEntry) : List LaneEntry := es.mergeSort fun x y => decide (x.lane ≤ y.lane)

/-- A register's lane, or an s-register (256 + n and 0), holds an uncorrectable error (19 R283), or is one that an armed
INJECT names (21 R324). -/
def Ctx.softAt (c : Ctx) (e : Nat × Nat) : Bool := c.w.soft.contains e || decide (c.w.inject = some e)

/-- What lane l reads of a register that an instruction reads lane by lane. -/
def ownLane (l n : Nat) : Nat × Nat := (n, if n < 256 then l else 0)

/-- The lanes of a list in which this issue faults SOFT_ERROR; src gives what each reads (19 R283). -/
def Ctx.softWhere (c : Ctx) (src : Nat → List (Nat × Nat)) : List Nat → LaneMask
  | [] => 0
  | l :: r => if (src l).any c.softAt then laneBit l ||| c.softWhere src r else c.softWhere src r

/-- The same where each lane reads its own lane of some registers. -/
def Ctx.softLanes (c : Ctx) (reads : List Nat) (lanes : LaneMask) : LaneMask :=
  c.softWhere (fun l => reads.map (ownLane l)) (lanesOf lanes)

/-- An s-register among those read holds an uncorrectable error. -/
def Ctx.softScalar (c : Ctx) (reads : List Nat) : Bool := reads.any fun n => decide (256 ≤ n) && c.softAt (n, 0)

/-- An instruction that executes once for its path, or whose guard or member set it is, has read an s-register with an
uncorrectable error: each lane of the path reads it, and faults (19 R283; notes/assumptions/45.md). -/
def Ctx.softFault (c : Ctx) (sh : Shape) : State :=
  let lanes := c.p.lanes &&& c.onlyMask
  c.completeLanes c.s sh lanes ⟨[], faultsOf .softError (lanesOf lanes)⟩

/-- What an instruction does when the s-registers that its path reads are sound. -/
def Ctx.sound (c : Ctx) (sh : Shape) (k : State) : State := if c.softScalar sh.reads then c.softFault sh else k

/-- What an instruction under the guard does when the guard's register is sound. -/
def Ctx.guarded (c : Ctx) (sh : Shape) (k : State) : State :=
  if c.softScalar c.guardReads then c.softFault { sh with reads := sh.reads ++ c.guardReads } else k

/-- A fault of the path without lane entries by an instruction that has read its registers (06 R92). -/
def Ctx.readFault (c : Ctx) (k : FaultKind) (sh : Shape) : State := c.sound sh <|
  c.drained ((c.traceHazards c.s c.active sh.reads []).bump.deliver c.ref c.slot .path k [] c.p.lanes c.p.pc
    (c.next sh.len))

/-- A fault of the path with one entry, for its lowest non-exited lane (19 R286). The registers that the
instruction has read are traced as read (20 R308). -/
def Ctx.pathFault (c : Ctx) (s : State) (k : FaultKind) (detail : Nat) (addr : Word) (sh : Shape) : State := c.sound sh <|
  c.drained ((c.traceHazards s c.active sh.reads []).bump.deliver c.ref c.slot .path k
    [⟨lowestLane c.p.lanes, k, detail, addr⟩] c.p.lanes c.p.pc (c.next sh.len))

/-- The state in which an INJECT that has acted is disarmed. -/
def Ctx.disarm (c : Ctx) (soft : LaneMask) : State :=
  if soft = 0 then c.s else c.s.updWarp c.ref fun w => { w with inject := none }

/-- A lane function whose soft-error lanes fault (19 R283). -/
def withSoft (soft : LaneMask) (f : Nat → LaneRes) (l : Nat) : LaneRes :=
  if soft.getLsbD l then .fault .softError 0 0 else f l

/-- A lane instruction of the vector pipes (06 R90): f gives each Active lane's words for registers d,
d + 1, … and status bits, or its fault; extra names registers that only some settings of MODE read. -/
def laneOpWith (s : State) (sh : Shape) (extra : Ctx → List Nat) (typeOk : Ctx → Bool) (d : Nat)
    (f : Ctx → Nat → LaneRes) : Host.Outcome State Fault Refusal :=
  issueOp s sh typeOk fun c =>
    let act := c.active
    let soft := c.softLanes (sh.reads ++ extra c) act
    c.guarded sh <| c.completeLanes (c.disarm soft) { sh with reads := sh.reads ++ extra c ++ c.guardReads } act
      (overLanes d (withSoft soft (f c)) (lanesOf act))

/-- A lane instruction whose register reads do not depend on MODE. -/
def laneOp (s : State) (sh : Shape) (typeOk : Ctx → Bool) (d : Nat) (f : Ctx → Nat → LaneRes) :
    Host.Outcome State Fault Refusal :=
  laneOpWith s sh (fun _ => []) typeOk d f

/-- A lane instruction that writes one word per lane and never faults. -/
def laneWord (s : State) (sh : Shape) (typeOk : Ctx → Bool) (d : Field) (f : Ctx → Nat → Word) :
    Host.Outcome State Fault Refusal :=
  laneOp s sh typeOk d.toNat fun c l => .ok [f c l] 0

/-- A scalar-unit instruction (06 R89): its destination is written as part of the issue, for the path, and
it goes on at a PC of its own. DESIGN CHOICE (notes/assumptions/47.md): the warp's other path reads the new value
from then on, where 07 R140 allows the old one until the join. -/
def Ctx.scalarDone (c : Ctx) (sh : Shape) (ws : List (Nat × Word)) (npc : Word) : State := c.sound sh <|
  let s := c.traceHazards c.s c.active sh.reads (ws.map fun x => 256 + x.1)
  let s := s.updWarp c.ref fun w => w.commitAll (ws.map fun x => (WTarget.s x.1, x.2))
  let s := s.filmed c.ref (ws.map fun x => (256 + x.1, c.p.pc))
  let s := s.retireTo c.ref c.slot c.active c.p.pc (ws.head?.map fun x => 256 + x.1) 0 npc
  (s.updPath c.ref c.slot fun p => p.mark sh.m).bump

/-- A scalar-unit instruction op sD, ... that writes one register (06 R91). -/
def scalarOp (s : State) (sh : Shape) (d : Field) (f : Ctx → Word) : Host.Outcome State Fault Refusal :=
  withCtx s fun c => c.scalarDone sh [(d.toNat, f c)] (c.next sh.len)

/-- An instruction that executes once for the path and whose scalar writes are outstanding (04 R64). -/
def pathOp (s : State) (sh : Shape) (f : Ctx → List (Nat × Word)) : Host.Outcome State Fault Refusal :=
  issueOp s sh anyType fun c => c.sound sh <|
    c.complete c.s sh c.active ((f c).map fun x => (WTarget.s x.1, x.2)) (c.next sh.len)

/-- A control instruction completes with its state changes made: it retires and the path goes on at npc. -/
def Ctx.controlDone (c : Ctx) (s : State) (sh : Shape) (dest : Option Nat) (npc : Word) : State := c.sound sh <|
  let s := c.traceHazards s c.active sh.reads dest.toList
  let s := s.retireTo c.ref c.slot c.active c.p.pc dest 0 npc
  (s.updPath c.ref c.slot fun p => p.mark sh.m).bump

/-- The path and state after its outstanding writes have landed (07 R137, R138; 08 R146). -/
def Ctx.landed (c : Ctx) : Ctx := ((c.s.land c.ref c.slot).ctxAt? c.ref c.slot).getD c

/-- The issuing path's lanes enter a group (07 R138). When the group completes, its path stands in this
slot and k goes on with it; else the path has given up its lanes, and in tripod mode the other path's turn
comes (10 R185). -/
def Ctx.enterGroup (c : Ctx) (key : GroupKey) (retire : Bool) (k : Ctx → State) : State :=
  let (w, done) := c.w.enter c.slot key c.active
  let s := c.s.setWarp w
  if done then
    match s.ctxAt? c.ref c.slot with
    | some c' => k c'
    | none => s
  else
    let s := s.updWarp c.ref fun w => { w with frame := { w.frame with turn := !c.slot } }
    let s := if retire then s.retireWarp c.ref c.active c.p.pc none 0 (c.w.pathBit c.slot) else s
    State.settle settleFuel s.bump c.ref c.slot

end Sys2Proof.Machine
end

