-- ==== Sys2Proof/Machine/Scalar.lean ====
section
/-! DEFINITION. The scalar integer instructions of row 0x00 and SMOV, SSEL, SFFS (06 R89 to R94). Each
executes once for the path and writes its destination at issue. -/

namespace Sys2Proof.Machine

/-! ### The arithmetic (06 R91 to R94) -/

/-- A flag of `divide` (06 R92). -/
inductive DivFlag where
  | none | dz | ov
  deriving DecidableEq, Repr

/-- Status bits of a division's flag (04 R71). -/
def DivFlag.bits : DivFlag → Nat
  | .none => 0
  | .dz => stDZ
  | .ov => stOV

/-- Div(a, b, w, signed): quotient, remainder, flag (06 R92). -/
def divide (a b w : Nat) (signed : Bool) : Nat × Nat × DivFlag :=
  let x := asInt a w signed
  let y := asInt b w signed
  if y = 0 then (2 ^ w - 1, a, .dz)
  else if signed ∧ x = -(2 ^ (w - 1) : Int) ∧ y = -1 then (a, 0, .ov)
  else (wrapN w (x.tdiv y), wrapN w (x.tmod y), .none)

/-- The three shifts (06 R93). -/
inductive ShiftOp where
  | left | logical | arithmetic
  deriving DecidableEq, Repr

/-- A shift of the w-bit field x by c (06 R93). -/
def shiftBy (o : ShiftOp) (x w c : Nat) : Nat :=
  match o with
  | .left => if c < w then x * 2 ^ c % 2 ^ w else 0
  | .logical => if c < w then x / 2 ^ c else 0
  | .arithmetic =>
    let neg := decide (sext x w < 0)
    if c < w then wrapN w (sext x w / 2 ^ c) else if neg then 2 ^ w - 1 else 0

/-- Number of 1 bits in the low w bits (06 R91, R104). -/
def popc (x : Nat) : Nat → Nat
  | 0 => 0
  | w + 1 => b2n (bitAt x w) + popc x w

/-- Leading zero bits of the w-bit field x; w when it is zero. -/
def clz (x : Nat) : Nat → Nat
  | 0 => 0
  | w + 1 => if bitAt x w then 0 else 1 + clz x w

/-- The w-bit field x with bit i moved to bit w - 1 - i. -/
def brev (x : Nat) : Nat → Nat
  | 0 => 0
  | w + 1 => b2n (bitAt x w) + 2 * brev x w

/-- Index of the lowest 1 bit among bits k to k + n - 1; k + n when there is none. -/
def ffs (x : Nat) : Nat → Nat → Nat
  | k, 0 => k
  | k, n + 1 => if bitAt x k then k else ffs x (k + 1) n

/-- Position and width of a bit-field control word (06 R94). -/
def fieldPos (b : Word) : Nat := bits b.toNat 4 0
def fieldWidth (b : Word) : Nat := min (bits b.toNat 13 8) (32 - fieldPos b)

/-- The mask M of a bit field (06 R94). -/
def fieldMask (b : Word) : Word := BitVec.ofNat 32 ((2 ^ fieldWidth b - 1) * 2 ^ fieldPos b)

/-- Bit-field extract; sign-extending when signed (06 R94). -/
def bitExtract (a b : Word) (signed : Bool) : Word :=
  let x := (a &&& fieldMask b) >>> fieldPos b
  if signed then (if fieldWidth b = 0 then 0 else BitVec.ofInt 32 (sext x.toNat (fieldWidth b))) else x

/-- Bit-field insert into d (06 R94). -/
def bitInsert (d a b : Word) : Word := (d &&& ~~~(fieldMask b)) ||| ((a <<< fieldPos b) &&& fieldMask b)

/-- 1 or 0. -/
def boolWord (b : Bool) : Word := if b then 1 else 0

/-! ### The instructions -/

/-- SADD (06 R91): S(D) := Wrap32(a + b). -/
def execSadd (m : Bool) (d a : Field) (b : Src) (s : State) : Host.Outcome State Fault Refusal :=
  scalarOp s (.sss m false d a b) d fun c => c.sr a.toNat + c.sb b

/-- SSUB (06 R91): S(D) := Wrap32(a - b). -/
def execSsub (m : Bool) (d a : Field) (b : Src) (s : State) : Host.Outcome State Fault Refusal :=
  scalarOp s (.sss m false d a b) d fun c => c.sr a.toNat - c.sb b

/-- SMUL (06 R91): S(D) := Wrap32(a * b). -/
def execSmul (m : Bool) (d a : Field) (b : Src) (s : State) : Host.Outcome State Fault Refusal :=
  scalarOp s (.sss m false d a b) d fun c => c.sr a.toNat * c.sb b

/-- SMULH (06 R91): S(D) := the high half of the signed product. -/
def execSmulh (m : Bool) (d a : Field) (b : Src) (s : State) : Host.Outcome State Fault Refusal :=
  scalarOp s (.sss m false d a b) d fun c => BitVec.ofInt 32 ((c.sr a.toNat).toInt * (c.sb b).toInt / 2 ^ 32)

/-- SMULHN (06 R91): S(D) := the high half of the unsigned product. -/
def execSmulhn (m : Bool) (d a : Field) (b : Src) (s : State) : Host.Outcome State Fault Refusal :=
  scalarOp s (.sss m false d a b) d fun c => BitVec.ofNat 32 ((c.sr a.toNat).toNat * (c.sb b).toNat / 2 ^ 32)

/-- A scalar division (06 R92): DZ or OV under TRAPDIV faults DIVIDE on the path, with no lane entries and
S(D) unchanged. -/
def scalarDiv (s : State) (m : Bool) (d a : Field) (b : Src) (signed quotient : Bool) :
    Host.Outcome State Fault Refusal :=
  withCtx s fun c =>
    let r := divide (c.sr a.toNat).toNat (c.sb b).toNat 32 signed
    if modeTrapDiv c.p.mode ∧ r.2.2 ≠ .none then c.readFault .divide (.sss m false d a b)
    else c.scalarDone (.sss m false d a b) [(d.toNat, BitVec.ofNat 32 (if quotient then r.1 else r.2.1))] (c.next b.len)

/-- SDIV (06 R92): the signed quotient. -/
def execSdiv (m : Bool) (d a : Field) (b : Src) (s : State) : Host.Outcome State Fault Refusal :=
  scalarDiv s m d a b true true

/-- SDIVN (06 R92): the unsigned quotient. -/
def execSdivn (m : Bool) (d a : Field) (b : Src) (s : State) : Host.Outcome State Fault Refusal :=
  scalarDiv s m d a b false true

/-- SREM (06 R92): the signed remainder. -/
def execSrem (m : Bool) (d a : Field) (b : Src) (s : State) : Host.Outcome State Fault Refusal :=
  scalarDiv s m d a b true false

/-- SREMN (06 R92): the unsigned remainder. -/
def execSremn (m : Bool) (d a : Field) (b : Src) (s : State) : Host.Outcome State Fault Refusal :=
  scalarDiv s m d a b false false

/-- SAND (06 R91): S(D) := a AND b. -/
def execSand (m : Bool) (d a : Field) (b : Src) (s : State) : Host.Outcome State Fault Refusal :=
  scalarOp s (.sss m false d a b) d fun c => c.sr a.toNat &&& c.sb b

/-- SOR (06 R91): S(D) := a OR b. -/
def execSor (m : Bool) (d a : Field) (b : Src) (s : State) : Host.Outcome State Fault Refusal :=
  scalarOp s (.sss m false d a b) d fun c => c.sr a.toNat ||| c.sb b

/-- SXOR (06 R91): S(D) := a XOR b. -/
def execSxor (m : Bool) (d a : Field) (b : Src) (s : State) : Host.Outcome State Fault Refusal :=
  scalarOp s (.sss m false d a b) d fun c => c.sr a.toNat ^^^ c.sb b

/-- SANDN (06 R91): S(D) := a AND NOT b. -/
def execSandn (m : Bool) (d a : Field) (b : Src) (s : State) : Host.Outcome State Fault Refusal :=
  scalarOp s (.sss m false d a b) d fun c => c.sr a.toNat &&& ~~~(c.sb b)

/-- SSHL (06 R93): S(D) := a shifted by b[7:0]. -/
def execSshl (m : Bool) (d a : Field) (b : Src) (s : State) : Host.Outcome State Fault Refusal :=
  scalarOp s (.sss m false d a b) d fun c => BitVec.ofNat 32 (shiftBy .left (c.sr a.toNat).toNat 32 ((c.sb b).toNat % 256))

/-- SSHR (06 R93): S(D) := a shifted by b[7:0]. -/
def execSshr (m : Bool) (d a : Field) (b : Src) (s : State) : Host.Outcome State Fault Refusal :=
  scalarOp s (.sss m false d a b) d fun c => BitVec.ofNat 32 (shiftBy .logical (c.sr a.toNat).toNat 32 ((c.sb b).toNat % 256))

/-- SSRA (06 R93): S(D) := a shifted by b[7:0]. -/
def execSsra (m : Bool) (d a : Field) (b : Src) (s : State) : Host.Outcome State Fault Refusal :=
  scalarOp s (.sss m false d a b) d fun c => BitVec.ofNat 32 (shiftBy .arithmetic (c.sr a.toNat).toNat 32 ((c.sb b).toNat % 256))

/-- SMIN (06 R91): S(D) := the smaller, signed. -/
def execSmin (m : Bool) (d a : Field) (b : Src) (s : State) : Host.Outcome State Fault Refusal :=
  scalarOp s (.sss m false d a b) d fun c => minS (c.sr a.toNat) (c.sb b)

/-- SMAX (06 R91): S(D) := the larger, signed. -/
def execSmax (m : Bool) (d a : Field) (b : Src) (s : State) : Host.Outcome State Fault Refusal :=
  scalarOp s (.sss m false d a b) d fun c => maxS (c.sr a.toNat) (c.sb b)

/-- SMINN (06 R91): S(D) := the smaller, unsigned. -/
def execSminn (m : Bool) (d a : Field) (b : Src) (s : State) : Host.Outcome State Fault Refusal :=
  scalarOp s (.sss m false d a b) d fun c => minU (c.sr a.toNat) (c.sb b)

/-- SMAXN (06 R91): S(D) := the larger, unsigned. -/
def execSmaxn (m : Bool) (d a : Field) (b : Src) (s : State) : Host.Outcome State Fault Refusal :=
  scalarOp s (.sss m false d a b) d fun c => maxU (c.sr a.toNat) (c.sb b)

/-- SPOPC (06 R91): S(D) := number of 1 bits in a. -/
def execSpopc (m : Bool) (d a : Field) (s : State) : Host.Outcome State Fault Refusal :=
  scalarOp s (.ss m a) d fun c => BitVec.ofNat 32 (popc (c.sr a.toNat).toNat 32)

/-- SCLZ (06 R91): S(D) := number of leading zero bits of a. -/
def execSclz (m : Bool) (d a : Field) (s : State) : Host.Outcome State Fault Refusal :=
  scalarOp s (.ss m a) d fun c => BitVec.ofNat 32 (clz (c.sr a.toNat).toNat 32)

/-- SBREV (06 R91): S(D) := a with its bits reversed. -/
def execSbrev (m : Bool) (d a : Field) (s : State) : Host.Outcome State Fault Refusal :=
  scalarOp s (.ss m a) d fun c => BitVec.ofNat 32 (brev (c.sr a.toNat).toNat 32)

/-- SBFX (06 R94): S(D) := the bit field of a that b names, zero-extended. -/
def execSbfx (m : Bool) (d a : Field) (b : Src) (s : State) : Host.Outcome State Fault Refusal :=
  scalarOp s (.sss m false d a b) d fun c => bitExtract (c.sr a.toNat) (c.sb b) false

/-- SBFI (06 R94): S(D) := d with the bit field that b names taken from a. -/
def execSbfi (m : Bool) (d a : Field) (b : Src) (s : State) : Host.Outcome State Fault Refusal :=
  scalarOp s (.sss m true d a b) d fun c => bitInsert (c.sr d.toNat) (c.sr a.toNat) (c.sb b)

/-- SCEQ (06 R91): S(D) := 1 if a = b. -/
def execSceq (m : Bool) (d a : Field) (b : Src) (s : State) : Host.Outcome State Fault Refusal :=
  scalarOp s (.sss m false d a b) d fun c => boolWord (decide (c.sr a.toNat = c.sb b))

/-- SCNE (06 R91): S(D) := 1 if a differs from b. -/
def execScne (m : Bool) (d a : Field) (b : Src) (s : State) : Host.Outcome State Fault Refusal :=
  scalarOp s (.sss m false d a b) d fun c => boolWord (decide (c.sr a.toNat ≠ c.sb b))

/-- SCLT (06 R91): S(D) := 1 if a < b, signed. -/
def execSclt (m : Bool) (d a : Field) (b : Src) (s : State) : Host.Outcome State Fault Refusal :=
  scalarOp s (.sss m false d a b) d fun c => boolWord (decide ((c.sr a.toNat).toInt < (c.sb b).toInt))

/-- SCLE (06 R91): S(D) := 1 if a is at most b, signed. -/
def execScle (m : Bool) (d a : Field) (b : Src) (s : State) : Host.Outcome State Fault Refusal :=
  scalarOp s (.sss m false d a b) d fun c => boolWord (decide ((c.sr a.toNat).toInt ≤ (c.sb b).toInt))

/-- SCLTN (06 R91): S(D) := 1 if a < b, unsigned. -/
def execScltn (m : Bool) (d a : Field) (b : Src) (s : State) : Host.Outcome State Fault Refusal :=
  scalarOp s (.sss m false d a b) d fun c => boolWord (decide ((c.sr a.toNat).toNat < (c.sb b).toNat))

/-- SCLEN (06 R91): S(D) := 1 if a is at most b, unsigned. -/
def execSclen (m : Bool) (d a : Field) (b : Src) (s : State) : Host.Outcome State Fault Refusal :=
  scalarOp s (.sss m false d a b) d fun c => boolWord (decide ((c.sr a.toNat).toNat ≤ (c.sb b).toNat))

/-- SMOV (06 R91): S(D) := b. -/
def execSmov (m : Bool) (d : Field) (b : Src) (s : State) : Host.Outcome State Fault Refusal :=
  scalarOp s ⟨m, b.len, [], b.sregs⟩ d fun c => c.sb b

/-- SSEL (06 R91): S(D) := (a AND b) OR (NOT a AND d). -/
def execSsel (m : Bool) (d a : Field) (b : Src) (s : State) : Host.Outcome State Fault Refusal :=
  scalarOp s (.sss m true d a b) d fun c => (c.sr a.toNat &&& c.sb b) ||| (~~~(c.sr a.toNat) &&& c.sr d.toNat)

/-- SFFS (06 R91): S(D) := index of the lowest 1 bit of a, or 32. -/
def execSffs (m : Bool) (d a : Field) (s : State) : Host.Outcome State Fault Refusal :=
  scalarOp s (.ss m a) d fun c => BitVec.ofNat 32 (ffs (c.sr a.toNat).toNat 0 32)

end Sys2Proof.Machine
end

