-- ==== Sys2Proof/Machine/Control.lean ====
section
/-! DEFINITION. Control instructions of one path (06 R95 to R100; 04 R61, R63) and the divergent branch and
join (07 R137, R138; 08 R144, R145). -/

namespace Sys2Proof.Machine

/-- NOP (06 R95): no effect but the switch marker's park. -/
def execNop (m : Bool) (s : State) : Host.Outcome State Fault Refusal :=
  withCtx s fun c => c.controlDone c.s ⟨m, 4, [], []⟩ none (c.next 4)

/-- BRA (06 R96): always taken. -/
def execBra (m : Bool) (lit : Word) (s : State) : Host.Outcome State Fault Refusal :=
  withCtx s fun c => c.controlDone c.s ⟨m, 8, [], []⟩ none (c.p.pc + lit)

/-- BZ (06 R96): taken when S(A) = 0. -/
def execBz (m : Bool) (a : Field) (lit : Word) (s : State) : Host.Outcome State Fault Refusal :=
  withCtx s fun c =>
    c.controlDone c.s ⟨m, 8, [], [sRd a]⟩ none (if c.sr a.toNat = 0 then c.p.pc + lit else c.next 8)

/-- BNZ (06 R96): taken when S(A) is not 0. -/
def execBnz (m : Bool) (a : Field) (lit : Word) (s : State) : Host.Outcome State Fault Refusal :=
  withCtx s fun c =>
    c.controlDone c.s ⟨m, 8, [], [sRd a]⟩ none (if c.sr a.toNat = 0 then c.next 8 else c.p.pc + lit)

/-- The lanes of a mask in which a condition holds. -/
def lanesWhere (f : Nat → Bool) : List Nat → LaneMask
  | [] => 0
  | l :: r => if f l then laneBit l ||| lanesWhere f r else lanesWhere f r

/-- BRD (07 R137, 08 R144): writes land; S(D) becomes the mask of the path; the lanes of Active whose word
of vA is nonzero go to the label, the others to PC + 8. A full pending stack faults DIVERGE_DEPTH, with
S(D) unwritten. DEDUCED (notes/assumptions/25.md): a lane whose word has a soft error goes to PC + 8, and its fault is of
the path that stands there, or of the issuing one where those lanes wait on its stack; re-executed after a RETRY, when
every lane goes on at NPC (19 R290), a BRD writes S(D) and splits nothing (27.md). -/
def execBrd (m : Bool) (d a : Field) (lit : Word) (s : State) : Host.Outcome State Fault Refusal :=
  issueOp s ⟨m, 8, [a.toNat], [a.toNat]⟩ anyType fun c0 => c0.drained (
    let c := c0.landed
    c.guarded ⟨m, 8, [], []⟩ (
    let act := c.active
    let soft := c.softLanes [a.toNat] act
    let t := lanesWhere (fun l => decide (c.v a.toNat l ≠ 0)) (lanesOf (act &&& ~~~soft))
    let n := c.p.lanes &&& ~~~t
    let target := c.p.pc + lit
    let finish (w : Warp) (npc : Word) (slot : Bool) (rest : Word) : State :=
      let s := (c.s.setWarp (w.commit (.s d.toNat) c.p.lanes)).filmed c.ref [(sRd d, c.p.pc)]
      let s := (s.retireTo c.ref c.slot act c.p.pc (some (sRd d)) (if soft = 0 then 0 else 64) npc).bump
      if soft = 0 then s
      else (({ c with s := s } : Ctx).disarm soft).deliver c.ref slot .lane .softError
        (faultsOf .softError (lanesOf soft)) soft c.p.pc rest
    if t = 0 ∨ c.p.back.isSome then finish c.w (c.next 8) c.slot (c.next 8)
    else if n = 0 then finish c.w target c.slot target
    else
      match c.w.split c.slot c.p t n target (c.next 8) with
      | some w =>
        let free := (c.w.path? (!c.slot)).isNone
        finish { w with splitReg := d.toNat } target (if free then !c.slot else c.slot) (if free then c.next 8 else target)
      | none => c.pathFault c.s .divergeDepth 0 0 ⟨m, 8, [], []⟩))

/-- JOIN (07 R138, 08 R145): writes land, then the lanes enter the group of this PC and the mask S(A); a
completed group goes on at PC + 4. -/
def execJoin (_m : Bool) (a : Field) (s : State) : Host.Outcome State Fault Refusal :=
  withCtx s fun c0 => c0.drained (
    let c := c0.landed
    c.sound ⟨false, 4, [], [sRd a]⟩ <| c.enterGroup (.join c.p.pc (c.sr a.toNat)) true fun c' =>
      (c'.s.retireTo c.ref c.slot c.active c.p.pc none 0 (c.next 4)).bump)

/-- CALL (06 R97): S(D) := PC + 8, then as BRA. -/
def execCall (m : Bool) (d : Field) (lit : Word) (s : State) : Host.Outcome State Fault Refusal :=
  withCtx s fun c => c.scalarDone ⟨m, 8, [], []⟩ [(d.toNat, c.p.pc + 8)] (c.p.pc + lit)

/-- RET and BRX (06 R97): PC := S(A); a target that is no multiple of 4 faults MISALIGNED on the path, with
the target as address. R97 lets the two differ in stall and profile accounting as chapter 20 gives, which names no
difference: DESIGN CHOICE (notes/assumptions/47.md), they are accounted alike. -/
def jumpTo (m : Bool) (a : Field) (s : State) : Host.Outcome State Fault Refusal :=
  withCtx s fun c =>
    let t := c.sr a.toNat
    if t.toNat % 4 ≠ 0 then c.pathFault c.s .misaligned 0 t (.ss m a)
    else c.controlDone c.s ⟨m, 4, [], [sRd a]⟩ none t

/-- RET (06 R97). -/
def execRet (m : Bool) (a : Field) (s : State) : Host.Outcome State Fault Refusal := jumpTo m a s

/-- BRX (06 R97). -/
def execBrx (m : Bool) (a : Field) (s : State) : Host.Outcome State Fault Refusal := jumpTo m a s

/-- LOOP (06 R98): decrements S(D) and branches while it is not 0. -/
def execLoop (m : Bool) (d : Field) (lit : Word) (s : State) : Host.Outcome State Fault Refusal :=
  withCtx s fun c =>
    let n := c.sr d.toNat - 1
    c.scalarDone ⟨m, 8, [], [sRd d]⟩ [(d.toNat, n)] (if n = 0 then c.next 8 else c.p.pc + lit)

/-- EXIT (06 R99): every non-exited lane of the path exits, after its outstanding writes have landed; in tripod
mode the other path's turn comes (10 R185). -/
def execExit (_m : Bool) (s : State) : Host.Outcome State Fault Refusal :=
  withCtx s fun c => c.drained (
    let s := c.s.land c.ref c.slot
    let s := s.retireTo c.ref c.slot c.active c.p.pc none 0 (c.next 4)
    let s := s.updWarp c.ref fun w => { w.exitLanes c.p.lanes with frame := { w.frame with turn := !c.slot } }
    State.settle settleFuel s.bump c.ref c.slot)

/-- SETMODE (06 R100, 03 R55): MODE := OpB, or ILLEGAL_MODE on the path with MODE unchanged. -/
def execSetmode (m : Bool) (b : Src) (s : State) : Host.Outcome State Fault Refusal :=
  withCtx s fun c =>
    let v := c.sb b
    if modeLegal v then
      c.controlDone (c.s.updPath c.ref c.slot fun p => { p with mode := v }) ⟨m, b.len, [], b.sregs⟩ none (c.next b.len)
    else c.pathFault c.s .illegalMode 0 0 ⟨m, b.len, [], b.sregs⟩

/-- GETMODE (06 R100): S(D) := the MODE under which it issues. -/
def execGetmode (m : Bool) (d : Field) (s : State) : Host.Outcome State Fault Refusal :=
  withCtx s fun c => c.scalarDone ⟨m, 4, [], []⟩ [(d.toNat, c.p.mode)] (c.next 4)

/-- SETIX (04 R61): ix := OpB. -/
def execSetix (m : Bool) (b : Src) (s : State) : Host.Outcome State Fault Refusal :=
  withCtx s fun c =>
    c.controlDone (c.s.updPath c.ref c.slot fun p => { p with ix := c.sb b }) ⟨m, b.len, [], b.sregs⟩ none (c.next b.len)

end Sys2Proof.Machine
end

