-- ==== Sys2Proof/Machine/Special.lean ====
section
/-! DEFINITION. The mathematical functions of 06 R116 as exact reals to be rounded once. A value that is
irrational is given by its first 440 fraction bits and a sticky flag, from fixed-point arithmetic with 512
fraction bits. UNVERIFIED (notes/assumptions/7.md): that no result of a 16- or 32-bit format lies so near a
rounding boundary that these bits do not decide it. -/

namespace Sys2Proof.Machine

/-- Fraction bits of the fixed-point arithmetic. -/
def fxBits : Nat := 512

/-- 1 in fixed point. -/
def fxOne : Nat := 2 ^ fxBits

/-- A product in fixed point. -/
def fxMul (a b : Nat) : Nat := a * b / fxOne

/-- A quotient in fixed point. -/
def fxDiv (a b : Nat) : Nat := a * fxOne / b

/-- The sum of t * q^j / (k + 2j) over n terms: the series of atanh (06 R116). -/
def atanhSum (q : Nat) : Nat → Nat → Nat → Nat
  | 0, _, _ => 0
  | n + 1, t, k => t / k + atanhSum q n (fxMul t q) (k + 2)

/-- atanh of a fixed-point number below 1/2. -/
def fxAtanh (x : Nat) : Nat := atanhSum (fxMul x x) 260 x 1

/-- ln 2 = 2 atanh(1/3). -/
def fxLn2 : Nat := 2 * fxAtanh (fxOne / 3)

/-- The alternating sum of x / (k * d^k): atan(1/d); the Bool is the sign of the next term. -/
def atanSum (d2 : Nat) : Nat → Bool → Nat → Nat → Int
  | 0, _, _, _ => 0
  | n + 1, neg, t, k => (if neg then -((t / k : Nat) : Int) else ((t / k : Nat) : Int)) + atanSum d2 n (!neg) (t / d2) (k + 2)

/-- pi by Machin's formula. -/
def fxPi : Nat := (16 * atanSum 25 120 false (fxOne / 5) 1 - 4 * atanSum 57121 40 false (fxOne / 239) 1).toNat

/-- The sum of x^j / j! over n terms from term t with index j on. -/
def expSum (x : Nat) : Nat → Nat → Nat → Nat
  | 0, _, _ => 0
  | n + 1, t, j => t + expSum x n (fxMul t x / (j + 1)) (j + 1)

/-- e^x for a fixed-point x below 1. -/
def fxExp (x : Nat) : Nat := expSum x 110 fxOne 0

/-- The alternating sum of t, -t x^2 / ((j+1)(j+2)), …: sine and cosine. -/
def trigSum (x2 : Nat) : Nat → Bool → Nat → Nat → Int
  | 0, _, _, _ => 0
  | n + 1, neg, t, j =>
    (if neg then -(t : Int) else (t : Int)) + trigSum x2 n (!neg) (fxMul t x2 / ((j + 1) * (j + 2))) (j + 2)

/-- sin x and cos x for a fixed-point x below 2. -/
def fxSin (x : Nat) : Nat := (trigSum (fxMul x x) 70 false x 1).toNat
def fxCos (x : Nat) : Nat := (trigSum (fxMul x x) 70 false fxOne 0).toNat

/-- Square a fixed-point number n times. -/
def fxSquare : Nat → Nat → Nat
  | 0, x => x
  | n + 1, x => fxSquare n (fxMul x x)

/-- A positive irrational fixed-point value as an exact real: 440 fraction bits and a sticky flag. -/
def fxExact (neg : Bool) (v : Nat) (e : Int) : Exact := .fin neg (v / 2 ^ 72) (e - 440) true

/-- m * 2^e as a fixed-point number. -/
def toFx (m : Nat) (e : Int) : Nat := if 0 ≤ e then m * 2 ^ e.toNat * fxOne else m * fxOne / 2 ^ (-e).toNat

/-- Whether m * 2^e is an integer, and its floor. -/
def isInt (m : Nat) (e : Int) : Bool := decide (0 ≤ e) || decide (m % 2 ^ (-e).toNat = 0)
def floorOf (m : Nat) (e : Int) : Nat := if 0 ≤ e then m * 2 ^ e.toNat else m / 2 ^ (-e).toNat

/-- 2^x. Beyond 2^11 in magnitude every result overflows or underflows alike. -/
def exp2Real (neg : Bool) (m : Nat) (e : Int) : Exact :=
  let big := decide (11 < e + (bitLen m : Int))
  if big then .fin false 1 (if neg then -4000 else 4000) true
  else if isInt m e then .fin false 1 (if neg then -(floorOf m e : Int) else floorOf m e) false
  else
    let k := floorOf m e
    let frac := toFx m e - k * fxOne
    if neg then fxExact false (fxExp (fxMul (fxOne - frac) fxLn2)) (-(k : Int) - 1)
    else fxExact false (fxExp (fxMul frac fxLn2)) k

/-- log2 of a positive m * 2^e. -/
def log2Real (m : Nat) (e : Int) : Exact :=
  let n := bitLen m - 1
  let k : Int := e + n
  if m = 2 ^ n then .fin (decide (k < 0)) k.natAbs 0 false
  else
    let f := m * fxOne / 2 ^ n
    let l := fxDiv (2 * fxAtanh (fxDiv (f - fxOne) (f + fxOne))) fxLn2
    let v : Int := k * fxOne + l
    fxExact (decide (v < 0)) v.natAbs 0

/-- sin(pi x) and cos(pi x) of a magnitude m * 2^e reduced modulo 2: quarter turns and the rest. -/
def quarterTurns (m : Nat) (e : Int) : Nat × Nat :=
  if 1 ≤ e then (0, 0)
  else
    let t := toFx m e % (2 * fxOne)
    (2 * t / fxOne, 2 * t % fxOne)

/-- sin(pi x): zero at integers with the sign of x, else irrational or a unit. -/
def sinpiReal (neg : Bool) (m : Nat) (e : Int) : Exact :=
  let (q, r) := quarterTurns m e
  if r = 0 then
    (if q % 2 = 0 then .fin neg 0 0 false else .fin (neg != decide (q = 3)) 1 0 false)
  else
    let a := fxMul (r / 2) fxPi
    let v := if q % 2 = 0 then fxSin a else fxCos a
    fxExact (neg != decide (2 ≤ q)) v 0

/-- cos(pi x): +0 at n + 1/2. -/
def cospiReal (m : Nat) (e : Int) : Exact :=
  let (q, r) := quarterTurns m e
  if r = 0 then
    (if q % 2 = 1 then .fin false 0 0 false else .fin (decide (q = 2)) 1 0 false)
  else
    let a := fxMul (r / 2) fxPi
    let v := if q % 2 = 0 then fxCos a else fxSin a
    fxExact (decide (q = 1) || decide (q = 2)) v 0

/-- tanh of a nonzero value. A tiny x lies just above its tanh; from 64 on the result lies just below 1. -/
def tanhReal (neg : Bool) (m : Nat) (e : Int) : Exact :=
  let top := e + (bitLen m : Int)
  if top < -60 then .fin neg (m * 2 ^ 100 - 1) (e - 100) true
  else if 6 < top then .fin neg (2 ^ 200 - 1) (-200) true
  else
    let y := toFx m (e + 1)
    let u := fxDiv fxOne (fxSquare 8 (fxExp (y / 2 ^ 8)))
    fxExact neg (fxDiv (fxOne - u) (fxOne + u)) 0

/-- The reciprocal square root of a positive m * 2^e. -/
def rsqrtPos (m : Nat) (e : Int) : Exact :=
  let odd := decide (e % 2 ≠ 0)
  let m' := if odd then 2 * m else m
  let e' := if odd then e - 1 else e
  let k := 64 + bitLen m'
  let r := isqrt (2 ^ (2 * k) / m')
  .fin false r (-(e' / 2) - (k : Int)) (decide (r * r * m' ≠ 2 ^ (2 * k)))

/-! ### The functions with their special inputs (06 R116) -/

/-- A NaN operand: canonical NaN, NV for a signalling one (06 R109). -/
def nanRes (s : Bool) : Res := (.nan false, if s then stNV else 0)

/-- VFRCP. -/
def rcpF (x : FVal) : Res := divF (.fin false 1 0) x

/-- VFRSQ. -/
def rsqF : FVal → Res
  | .nan s => nanRes s
  | .inf n => if n then (.nan false, stNV) else (.fin false 0 0 false, 0)
  | .fin n m e => if m = 0 then (.inf n, stDZ) else if n then (.nan false, stNV) else (rsqrtPos m e, 0)

/-- VFEXP2. -/
def exp2F : FVal → Res
  | .nan s => nanRes s
  | .inf n => if n then (.fin false 0 0 false, 0) else (.inf false, 0)
  | .fin n m e => (if m = 0 then .fin false 1 0 false else exp2Real n m e, 0)

/-- VFLOG2. -/
def log2F : FVal → Res
  | .nan s => nanRes s
  | .inf n => if n then (.nan false, stNV) else (.inf false, 0)
  | .fin n m e => if m = 0 then (.inf true, stDZ) else if n then (.nan false, stNV) else (log2Real m e, 0)

/-- VFSINPI. -/
def sinpiF : FVal → Res
  | .nan s => nanRes s
  | .inf _ => (.nan false, stNV)
  | .fin n m e => (sinpiReal n m e, 0)

/-- VFCOSPI. -/
def cospiF : FVal → Res
  | .nan s => nanRes s
  | .inf _ => (.nan false, stNV)
  | .fin _ m e => (if m = 0 then .fin false 1 0 false else cospiReal m e, 0)

/-- VFTANH. -/
def tanhF : FVal → Res
  | .nan s => nanRes s
  | .inf n => (.fin n 1 0 false, 0)
  | .fin n m e => (if m = 0 then .fin n 0 0 false else tanhReal n m e, 0)

end Sys2Proof.Machine
end

