-- ==== Sys2Proof/Machine/VectorInt.lean ====
section
/-! DEFINITION. The vector integer instructions, compares, moves and lane status (06 R101 to R108). -/

namespace Sys2Proof.Machine

/-- A lane instruction on elements, op vD, vA, vB (06 R102). -/
def elemOp (s : State) (m : Bool) (d a : Field) (b : Src) (f : Nat → Nat → Nat → Nat) :
    Host.Outcome State Fault Refusal :=
  laneWord s (.vvv m false d a b) intTypes d fun c l =>
    let w := elemWidth c.etype
    zipElems w (f w) (c.v a.toNat l) (c.vb b l)

/-- A unary lane instruction on elements, op vD, vA; the flag bits of the elements are united (06 R104). -/
def elemUnary (s : State) (m : Bool) (d a : Field) (f : Nat → Nat → Nat → Nat × Nat) :
    Host.Outcome State Fault Refusal :=
  laneOp s (.vv m d a) intTypes d.toNat fun c l =>
    let w := elemWidth c.etype
    let r := packRes w ((elemsOf (c.v a.toNat l).toNat w).map (f c.etype w))
    .ok [r.1] r.2

/-- The smaller or larger of two elements. -/
def pick (w : Nat) (signed larger : Bool) (x y : Nat) : Nat :=
  if decide (asInt x w signed ≤ asInt y w signed) == larger then y else x

/-- What a compare finds in one lane: whether its bit is set and its status bits, or its fault. -/
inductive CmpRes where
  | ok (holds : Bool) (status : Nat)
  | fault (k : FaultKind)
  deriving DecidableEq, Repr

/-- The lanes whose bit a compare sets. -/
def cmpLanes (f : Nat → CmpRes) : List Nat → LaneMask
  | [] => 0
  | l :: r =>
    match f l with
    | .ok true _ => laneBit l ||| cmpLanes f r
    | _ => cmpLanes f r

/-- A compare's lane as a result without register writes: its status, or its fault. -/
def CmpRes.lane : CmpRes → LaneRes
  | .ok _ st => .ok [] st
  | .fault k => .fault k 0 0

/-- A compare op sD, vA, vB (06 R107): the mask of the Active lanes in which the condition holds; every
other bit is 0. -/
def maskOp (s : State) (m : Bool) (d a : Field) (b : Src) (typeOk : Ctx → Bool) (f : Ctx → Nat → CmpRes) :
    Host.Outcome State Fault Refusal :=
  let sh := Shape.svv m a b
  issueOp s sh typeOk fun c =>
    let act := c.active
    let soft := c.softLanes sh.reads act
    let g (l : Nat) : CmpRes := if soft.getLsbD l then .fault .softError else f c l
    let out := overLanes 0 (fun l => (g l).lane) (lanesOf act)
    c.guarded sh <| c.completeLanes (c.disarm soft) { sh with reads := sh.reads ++ c.guardReads } act
      { out with writes := (.s d.toNat, cmpLanes g (lanesOf act)) :: out.writes }

/-- Whether a condition holds for every pair of elements. -/
def allPairs (f : Nat → Nat → Bool) (xs ys : List Nat) : Bool := (List.zipWith f xs ys).all id

/-- An integer compare (06 R107). -/
def intCompare (s : State) (m : Bool) (d a : Field) (b : Src) (f : Int → Int → Bool) :
    Host.Outcome State Fault Refusal :=
  maskOp s m d a b intTypes fun c l =>
    let w := elemWidth c.etype
    let sg := isSigned c.etype
    .ok (allPairs (fun x y => f (asInt x w sg) (asInt y w sg)) (elemsOf (c.v a.toNat l).toNat w)
      (elemsOf (c.vb b l).toNat w)) 0

/-- Vector division (06 R103): under TRAPDIV a lane whose elements raise a flag faults DIVIDE. -/
def vectorDiv (s : State) (m : Bool) (d a : Field) (b : Src) (signed quotient : Bool) :
    Host.Outcome State Fault Refusal :=
  laneOp s (.vvv m false d a b) intTypes d.toNat fun c l =>
    let w := elemWidth c.etype
    let rs := List.zipWith (fun x y => divide x y w signed) (elemsOf (c.v a.toNat l).toNat w) (elemsOf (c.vb b l).toNat w)
    let r := packRes w (rs.map fun r => (if quotient then r.1 else r.2.1, r.2.2.bits))
    if modeTrapDiv c.p.mode ∧ r.2 ≠ 0 then .fault .divide 0 0 else .ok [r.1] r.2

/-- A lane instruction on whole lane words, any element type (06 R105). -/
def wordOp (s : State) (m : Bool) (d a : Field) (b : Src) (f : Word → Word → Word) :
    Host.Outcome State Fault Refusal :=
  laneWord s (.vvv m false d a b) anyType d fun c l => f (c.v a.toNat l) (c.vb b l)

/-- The block's x, y and z index (07 R123). -/
def blockX (r : LaunchRecord) (id : Nat) : Nat := id % r.gridX
def blockY (r : LaunchRecord) (id : Nat) : Nat := id / r.gridX % r.gridY
def blockZ (r : LaunchRecord) (id : Nat) : Nat := id / r.gridX / r.gridY

/-- A lane identity by VGET's selector code (06 R106). -/
def laneIdentity (c : Ctx) (code lane : Nat) : Word :=
  let r := c.l.record
  BitVec.ofNat 32
    (if code = 0 then lane
     else if code = 1 then lane / 4
     else if code = 2 then blockX r c.b.id * r.warps * Config.width + c.ref.warp * Config.width + lane
     else if code = 3 then blockY r c.b.id
     else blockZ r c.b.id)

/-! ### The instructions -/

/-- VADD (06 R102): element sum modulo 2^w. -/
def execVadd (m : Bool) (d a : Field) (b : Src) (s : State) : Host.Outcome State Fault Refusal :=
  elemOp s m d a b fun w x y => (x + y) % 2 ^ w

/-- VSUB (06 R102): element difference modulo 2^w. -/
def execVsub (m : Bool) (d a : Field) (b : Src) (s : State) : Host.Outcome State Fault Refusal :=
  elemOp s m d a b fun w x y => wrapN w ((x : Int) - y)

/-- VMUL (06 R102): element product modulo 2^w. -/
def execVmul (m : Bool) (d a : Field) (b : Src) (s : State) : Host.Outcome State Fault Refusal :=
  elemOp s m d a b fun w x y => x * y % 2 ^ w

/-- VMULH (06 R102): high half of the signed element product. -/
def execVmulh (m : Bool) (d a : Field) (b : Src) (s : State) : Host.Outcome State Fault Refusal :=
  elemOp s m d a b fun w x y => wrapN w (sext x w * sext y w / 2 ^ w)

/-- VMULHN (06 R102): high half of the unsigned element product. -/
def execVmulhn (m : Bool) (d a : Field) (b : Src) (s : State) : Host.Outcome State Fault Refusal :=
  elemOp s m d a b fun w x y => x * y / 2 ^ w

/-- VMAD (06 R102): (x * y + z) modulo 2^w, z from the old vD. -/
def execVmad (m : Bool) (d a : Field) (b : Src) (s : State) : Host.Outcome State Fault Refusal :=
  laneWord s (.vvv m true d a b) intTypes d fun c l =>
    let w := elemWidth c.etype
    zip3Elems w (fun x y z => (x * y + z) % 2 ^ w) (c.v a.toNat l) (c.vb b l) (c.v d.toNat l)

/-- VDIV (06 R103): the signed quotient of each element. -/
def execVdiv (m : Bool) (d a : Field) (b : Src) (s : State) : Host.Outcome State Fault Refusal :=
  vectorDiv s m d a b true true

/-- VDIVN (06 R103): the unsigned quotient of each element. -/
def execVdivn (m : Bool) (d a : Field) (b : Src) (s : State) : Host.Outcome State Fault Refusal :=
  vectorDiv s m d a b false true

/-- VREM (06 R103): the signed remainder of each element. -/
def execVrem (m : Bool) (d a : Field) (b : Src) (s : State) : Host.Outcome State Fault Refusal :=
  vectorDiv s m d a b true false

/-- VREMN (06 R103): the unsigned remainder of each element. -/
def execVremn (m : Bool) (d a : Field) (b : Src) (s : State) : Host.Outcome State Fault Refusal :=
  vectorDiv s m d a b false false

/-- VAND (06 R105): AND of lane words. -/
def execVand (m : Bool) (d a : Field) (b : Src) (s : State) : Host.Outcome State Fault Refusal :=
  wordOp s m d a b fun x y => x &&& y

/-- VOR (06 R105): OR of lane words. -/
def execVor (m : Bool) (d a : Field) (b : Src) (s : State) : Host.Outcome State Fault Refusal :=
  wordOp s m d a b fun x y => x ||| y

/-- VXOR (06 R105): XOR of lane words. -/
def execVxor (m : Bool) (d a : Field) (b : Src) (s : State) : Host.Outcome State Fault Refusal :=
  wordOp s m d a b fun x y => x ^^^ y

/-- VANDN (06 R105): AND NOT of lane words. -/
def execVandn (m : Bool) (d a : Field) (b : Src) (s : State) : Host.Outcome State Fault Refusal :=
  wordOp s m d a b fun x y => x &&& ~~~y

/-- VSHL (06 R93, R102): element shift with the whole element of vB as count. -/
def execVshl (m : Bool) (d a : Field) (b : Src) (s : State) : Host.Outcome State Fault Refusal :=
  elemOp s m d a b fun w x y => shiftBy .left x w y

/-- VSHR (06 R93, R102): element shift with the whole element of vB as count. -/
def execVshr (m : Bool) (d a : Field) (b : Src) (s : State) : Host.Outcome State Fault Refusal :=
  elemOp s m d a b fun w x y => shiftBy .logical x w y

/-- VSRA (06 R93, R102): element shift with the whole element of vB as count. -/
def execVsra (m : Bool) (d a : Field) (b : Src) (s : State) : Host.Outcome State Fault Refusal :=
  elemOp s m d a b fun w x y => shiftBy .arithmetic x w y

/-- VMIN (06 R102): the smaller, signed. -/
def execVmin (m : Bool) (d a : Field) (b : Src) (s : State) : Host.Outcome State Fault Refusal :=
  elemOp s m d a b fun w x y => pick w true false x y

/-- VMAX (06 R102): the larger, signed. -/
def execVmax (m : Bool) (d a : Field) (b : Src) (s : State) : Host.Outcome State Fault Refusal :=
  elemOp s m d a b fun w x y => pick w true true x y

/-- VMINN (06 R102): the smaller, unsigned. -/
def execVminn (m : Bool) (d a : Field) (b : Src) (s : State) : Host.Outcome State Fault Refusal :=
  elemOp s m d a b fun w x y => pick w false false x y

/-- VMAXN (06 R102): the larger, unsigned. -/
def execVmaxn (m : Bool) (d a : Field) (b : Src) (s : State) : Host.Outcome State Fault Refusal :=
  elemOp s m d a b fun w x y => pick w false true x y

/-- VABS (06 R104): absolute value under a signed type, x under an unsigned one; OV for the most negative value. -/
def execVabs (m : Bool) (d a : Field) (s : State) : Host.Outcome State Fault Refusal :=
  elemUnary s m d a fun t w x => 
    if isSigned t then (wrapN w (if sext x w < 0 then -(sext x w) else sext x w), if x = 2 ^ (w - 1) then stOV else 0)
    else (x, 0)

/-- VNEG (06 R104): -x modulo 2^w; OV for the most negative value under a signed type. -/
def execVneg (m : Bool) (d a : Field) (s : State) : Host.Outcome State Fault Refusal :=
  elemUnary s m d a fun t w x => 
    (wrapN w (-(x : Int)), if isSigned t ∧ x = 2 ^ (w - 1) then stOV else 0)

/-- VPOPC (06 R104): number of 1 bits. -/
def execVpopc (m : Bool) (d a : Field) (s : State) : Host.Outcome State Fault Refusal :=
  elemUnary s m d a fun _ w x => (popc x w, 0)

/-- VCLZ (06 R104): leading zero bits within w. -/
def execVclz (m : Bool) (d a : Field) (s : State) : Host.Outcome State Fault Refusal :=
  elemUnary s m d a fun _ w x => (clz x w, 0)

/-- VBREV (06 R104): the element with its bits reversed. -/
def execVbrev (m : Bool) (d a : Field) (s : State) : Host.Outcome State Fault Refusal :=
  elemUnary s m d a fun _ w x => (brev x w, 0)

/-- VBFX (06 R105): bit-field extract of lane words, sign-extending under a signed type. -/
def execVbfx (m : Bool) (d a : Field) (b : Src) (s : State) : Host.Outcome State Fault Refusal :=
  laneWord s (.vvv m false d a b) anyType d fun c l => bitExtract (c.v a.toNat l) (c.vb b l) (isSigned c.etype)

/-- VBFI (06 R105): bit-field insert into the lane words of vD. -/
def execVbfi (m : Bool) (d a : Field) (b : Src) (s : State) : Host.Outcome State Fault Refusal :=
  laneWord s (.vvv m true d a b) anyType d fun c l => bitInsert (c.v d.toNat l) (c.v a.toNat l) (c.vb b l)

/-- VMOV (06 R105): OpB into every Active lane. -/
def execVmov (m : Bool) (d : Field) (b : Src) (s : State) : Host.Outcome State Fault Refusal :=
  laneWord s ⟨m, b.len, d.toNat :: b.vregs, b.vregs⟩ anyType d fun c l => c.vb b l

/-- VSPLAT (06 R105): S(A) into every Active lane. -/
def execVsplat (m : Bool) (d a : Field) (s : State) : Host.Outcome State Fault Refusal :=
  laneWord s ⟨m, 4, [d.toNat], [sRd a]⟩ anyType d fun c _ => c.sr a.toNat

/-- VGET (06 R106): the lane identity that the A field selects. -/
def execVget (m : Bool) (d a : Field) (s : State) : Host.Outcome State Fault Refusal :=
  laneWord s ⟨m, 4, [d.toNat], []⟩ anyType d fun c l => laneIdentity c a.toNat l

/-- VCEQ (06 R107): the mask of lanes in which x = y for every element. -/
def execVceq (m : Bool) (d a : Field) (b : Src) (s : State) : Host.Outcome State Fault Refusal :=
  intCompare s m d a b fun x y => decide (x = y)

/-- VCNE (06 R107): the mask of lanes in which x differs from y for every element. -/
def execVcne (m : Bool) (d a : Field) (b : Src) (s : State) : Host.Outcome State Fault Refusal :=
  intCompare s m d a b fun x y => decide (x ≠ y)

/-- VCLT (06 R107): the mask of lanes in which x < y for every element. -/
def execVclt (m : Bool) (d a : Field) (b : Src) (s : State) : Host.Outcome State Fault Refusal :=
  intCompare s m d a b fun x y => decide (x < y)

/-- VCLE (06 R107): the mask of lanes in which x is at most y for every element. -/
def execVcle (m : Bool) (d a : Field) (b : Src) (s : State) : Host.Outcome State Fault Refusal :=
  intCompare s m d a b fun x y => decide (x ≤ y)

/-- VGETST (06 R108): each Active lane's status word. -/
def execVgetst (m : Bool) (d : Field) (s : State) : Host.Outcome State Fault Refusal :=
  laneWord s ⟨m, 4, [d.toNat], []⟩ anyType d fun c l => c.status l

/-- VCLRST (06 R108): clears the status bits of OpB[5:0] in each Active lane; the write is outstanding. -/
def execVclrst (m : Bool) (b : Src) (s : State) : Host.Outcome State Fault Refusal :=
  issueOp s ⟨m, b.len, [], b.sregs⟩ anyType fun c =>
    let x := c.sb b &&& 0x3F
    let sh : Shape := ⟨m, b.len, [], b.sregs ++ c.guardReads⟩
    let soft := c.softLanes b.sregs c.active
    c.guarded sh <| c.completeLanes c.s sh c.active
      ⟨(lanesOf (c.active &&& ~~~soft)).map fun l => (WTarget.stClr l, x), faultsOf .softError (lanesOf soft)⟩

end Sys2Proof.Machine
end

