-- ==== Sys2Proof/Machine/VectorFloat.lean ====
section
/-! DEFINITION. The floating-point instructions and the special functions (06 R109 to R116). -/

namespace Sys2Proof.Machine

/-- The rounded element and status bits of an exact result (06 R109). -/
def roundRes (c : Ctx) (r : Res) : Nat × Nat :=
  let (x, f) := roundTo c.etype c.rnd c.sat r.1
  (x, f ||| r.2)

/-- A lane's result of its elements (06 R109, R115; 05 R81): an invalid condition under TRAPNV faults
INVALID_OP, a division by zero under TRAPDIV faults DIVIDE, the first before the second. -/
def fpLane (c : Ctx) (rs : List (Nat × Nat)) : LaneRes :=
  let r := packRes (elemWidth c.etype) rs
  if modeTrapNv c.p.mode ∧ hasBit r.2 stNV then .fault .invalidOp 0 0
  else if modeTrapDiv c.p.mode ∧ hasBit r.2 stDZ then .fault .divide 0 0
  else .ok [r.1] r.2

/-- The values of the elements of a lane word. -/
def fpElems (c : Ctx) (x : Word) : List FVal := (elemsOf x.toNat (elemWidth c.etype)).map (elemVal c.etype)

/-- op vD, vA, vB on elements (06 R110). -/
def fpBinary (s : State) (m : Bool) (d a : Field) (b : Src) (f : Nat → FVal → FVal → Res) :
    Host.Outcome State Fault Refusal :=
  laneOp s (.vvv m false d a b) fpTypes d.toNat fun c l =>
    fpLane c (List.zipWith (fun x y => roundRes c (f c.rnd x y)) (fpElems c (c.v a.toNat l)) (fpElems c (c.vb b l)))

/-- op vD, vA, vB with the old vD as third operand (06 R110). -/
def fpTernary (s : State) (m : Bool) (d a : Field) (b : Src) (f : Nat → FVal → FVal → FVal → Res) :
    Host.Outcome State Fault Refusal :=
  laneOp s (.vvv m true d a b) fpTypes d.toNat fun c l =>
    fpLane c (List.zipWith (fun g z => roundRes c (g z))
      (List.zipWith (fun x y => f c.rnd x y) (fpElems c (c.v a.toNat l)) (fpElems c (c.vb b l)))
      (fpElems c (c.v d.toNat l)))

/-- op vD, vA on elements. -/
def fpUnary (s : State) (m : Bool) (d a : Field) (f : Nat → FVal → Res) : Host.Outcome State Fault Refusal :=
  laneOp s (.vv m d a) fpTypes d.toNat fun c l =>
    fpLane c ((fpElems c (c.v a.toNat l)).map fun x => roundRes c (f c.rnd x))

/-- The format in force. -/
def fmtOf (t : Nat) : FloatFmt := (floatFmt t).getD f32

/-- An element with its sign bit set as given; a NaN gives the canonical NaN, and NV when it signals
(06 R112). -/
def signElem (f : FloatFmt) (x : Nat) (neg : Bool) : Nat × Nat :=
  match fdecode f x with
  | .nan s => (f.canon.getD 0, if s then stNV else 0)
  | _ => (x % 2 ^ (f.ex + f.man) + b2n neg * 2 ^ (f.ex + f.man), 0)

/-- The sign bit of an element. -/
def signOf (f : FloatFmt) (x : Nat) : Bool := bitAt x (f.ex + f.man)

/-- A sign operation op vD, vA (06 R112). -/
def signOp (s : State) (m : Bool) (d a : Field) (neg : Bool → Bool) : Host.Outcome State Fault Refusal :=
  laneOp s (.vv m d a) fpTypes d.toNat fun c l =>
    let f := fmtOf c.etype
    fpLane c ((elemsOf (c.v a.toNat l).toNat (elemWidth c.etype)).map fun x => signElem f x (neg (signOf f x)))

/-- A floating-point compare (06 R111): cond on a pair, nv on a pair. Under TRAPNV an invalid lane faults
INVALID_OP and its bit is 0. -/
def fpCompare (s : State) (m : Bool) (d a : Field) (b : Src) (cond nv : FVal → FVal → Bool) :
    Host.Outcome State Fault Refusal :=
  maskOp s m d a b fpTypes fun c l =>
    let xs := fpElems c (c.v a.toNat l)
    let ys := fpElems c (c.vb b l)
    let bad := (List.zipWith nv xs ys).any id
    if modeTrapNv c.p.mode ∧ bad then .fault .invalidOp
    else .ok ((List.zipWith cond xs ys).all id) (if bad then stNV else 0)

/-- Neither operand is a NaN. -/
def ordered (x y : FVal) : Bool := !x.isNaN && !y.isNaN

/-- An operand is a signalling NaN. -/
def signals (x y : FVal) : Bool := anySNaN [x, y]

/-! ### The instructions -/

/-- VFADD (06 R110): x + y. -/
def execVfadd (m : Bool) (d a : Field) (b : Src) (s : State) : Host.Outcome State Fault Refusal :=
  fpBinary s m d a b fun r x y => addF r x y

/-- VFSUB (06 R110): x - y. -/
def execVfsub (m : Bool) (d a : Field) (b : Src) (s : State) : Host.Outcome State Fault Refusal :=
  fpBinary s m d a b fun r x y => addF r x (negVal y)

/-- VFMUL (06 R110): x * y. -/
def execVfmul (m : Bool) (d a : Field) (b : Src) (s : State) : Host.Outcome State Fault Refusal :=
  fpBinary s m d a b fun _ x y => mulF x y

/-- VFMA (06 R110): x * y + z, rounded once. -/
def execVfma (m : Bool) (d a : Field) (b : Src) (s : State) : Host.Outcome State Fault Refusal :=
  fpTernary s m d a b fun r x y z => fmaF r x y z

/-- VFMS (06 R110): x * y - z, rounded once. -/
def execVfms (m : Bool) (d a : Field) (b : Src) (s : State) : Host.Outcome State Fault Refusal :=
  fpTernary s m d a b fun r x y z => fmaF r x y (negVal z)

/-- VFNMA (06 R110): -(x * y) + z, rounded once. -/
def execVfnma (m : Bool) (d a : Field) (b : Src) (s : State) : Host.Outcome State Fault Refusal :=
  fpTernary s m d a b fun r x y z => fmaF r (negVal x) y z

/-- VFDIV (06 R110): x / y. -/
def execVfdiv (m : Bool) (d a : Field) (b : Src) (s : State) : Host.Outcome State Fault Refusal :=
  fpBinary s m d a b fun _ x y => divF x y

/-- VFMIN (06 R112). -/
def execVfmin (m : Bool) (d a : Field) (b : Src) (s : State) : Host.Outcome State Fault Refusal :=
  fpBinary s m d a b fun _ x y => minmaxF false x y

/-- VFMAX (06 R112). -/
def execVfmax (m : Bool) (d a : Field) (b : Src) (s : State) : Host.Outcome State Fault Refusal :=
  fpBinary s m d a b fun _ x y => minmaxF true x y

/-- VFABS (06 R112): clears the sign bit. -/
def execVfabs (m : Bool) (d a : Field) (s : State) : Host.Outcome State Fault Refusal :=
  signOp s m d a fun _ => false

/-- VFNEG (06 R112): inverts the sign bit. -/
def execVfneg (m : Bool) (d a : Field) (s : State) : Host.Outcome State Fault Refusal :=
  signOp s m d a fun n => !n

/-- VFCPSGN (06 R112): x's magnitude with y's sign bit. -/
def execVfcpsgn (m : Bool) (d a : Field) (b : Src) (s : State) : Host.Outcome State Fault Refusal :=
  laneOp s (.vvv m false d a b) fpTypes d.toNat fun c l =>
    let f := fmtOf c.etype
    let w := elemWidth c.etype
    fpLane c (List.zipWith (fun x y => signElem f x (signOf f y)) (elemsOf (c.v a.toNat l).toNat w)
      (elemsOf (c.vb b l).toNat w))

/-- VFCEQ (06 R111). -/
def execVfceq (m : Bool) (d a : Field) (b : Src) (s : State) : Host.Outcome State Fault Refusal :=
  fpCompare s m d a b (fun x y => ordered x y && decide (cmpVal x y = 0)) signals

/-- VFCLT (06 R111). -/
def execVfclt (m : Bool) (d a : Field) (b : Src) (s : State) : Host.Outcome State Fault Refusal :=
  fpCompare s m d a b (fun x y => ordered x y && decide (cmpVal x y < 0)) fun x y => !ordered x y

/-- VFCLE (06 R111). -/
def execVfcle (m : Bool) (d a : Field) (b : Src) (s : State) : Host.Outcome State Fault Refusal :=
  fpCompare s m d a b (fun x y => ordered x y && decide (cmpVal x y ≤ 0)) fun x y => !ordered x y

/-- VFCUN (06 R111). -/
def execVfcun (m : Bool) (d a : Field) (b : Src) (s : State) : Host.Outcome State Fault Refusal :=
  fpCompare s m d a b (fun x y => !ordered x y) signals

/-- VFCLASS (06 R113): one class bit in each element position; no status. -/
def execVfclass (m : Bool) (d a : Field) (s : State) : Host.Outcome State Fault Refusal :=
  laneOp s (.vv m d a) fpTypes d.toNat fun c l =>
    .ok [mapElems (elemWidth c.etype) (fclass (fmtOf c.etype)) (c.v a.toNat l)] 0

/-- VFSQRT (06 R110): the square root. -/
def execVfsqrt (m : Bool) (d a : Field) (s : State) : Host.Outcome State Fault Refusal :=
  fpUnary s m d a fun _ x => sqrtF x

/-- VFRINT (06 R114): an integral value of the same format (06 R114). -/
def execVfrint (m : Bool) (d a : Field) (s : State) : Host.Outcome State Fault Refusal :=
  fpUnary s m d a fun r x => rintF r x

/-- VFRCP (06 R116): 1 / x. -/
def execVfrcp (m : Bool) (d a : Field) (s : State) : Host.Outcome State Fault Refusal :=
  fpUnary s m d a fun _ x => rcpF x

/-- VFRSQ (06 R116): 1 / sqrt x. -/
def execVfrsq (m : Bool) (d a : Field) (s : State) : Host.Outcome State Fault Refusal :=
  fpUnary s m d a fun _ x => rsqF x

/-- VFEXP2 (06 R116): 2^x. -/
def execVfexp2 (m : Bool) (d a : Field) (s : State) : Host.Outcome State Fault Refusal :=
  fpUnary s m d a fun _ x => exp2F x

/-- VFLOG2 (06 R116): log2 x. -/
def execVflog2 (m : Bool) (d a : Field) (s : State) : Host.Outcome State Fault Refusal :=
  fpUnary s m d a fun _ x => log2F x

/-- VFSINPI (06 R116): sin(pi x). -/
def execVfsinpi (m : Bool) (d a : Field) (s : State) : Host.Outcome State Fault Refusal :=
  fpUnary s m d a fun _ x => sinpiF x

/-- VFCOSPI (06 R116): cos(pi x). -/
def execVfcospi (m : Bool) (d a : Field) (s : State) : Host.Outcome State Fault Refusal :=
  fpUnary s m d a fun _ x => cospiF x

/-- VFTANH (06 R116): tanh x. -/
def execVftanh (m : Bool) (d a : Field) (s : State) : Host.Outcome State Fault Refusal :=
  fpUnary s m d a fun _ x => tanhF x

end Sys2Proof.Machine
end

