-- ==== Sys2Proof/Machine/Cross.lean ====
section
/-! DEFINITION. Operations across the lanes of a warp (08 R146 to R154): shuffles, quad exchange, reduction
and scan, vote and match, lane read and write, register moves through ix. -/

namespace Sys2Proof.Machine

/-! ### Member sets (07 R141, R142; 08 R146) -/

/-- The member set as MODE gives it, before exited lanes are dropped. -/
def Ctx.memberSet (c : Ctx) : LaneMask := if modeMen c.p.mode then c.sr (modeMemb c.p.mode) else c.active

/-- The s-register of the member set, when it is read. -/
def Ctx.memberReads (c : Ctx) : List Nat := if modeMen c.p.mode then [256 + modeMemb c.p.mode] else []

/-- What a warp-wide operation does: src gives what a receiving lane reads, with the contributing set P; out what the
receiving lanes get. -/
structure WideBody where
  src : Ctx → LaneMask → Nat → List (Nat × Nat)
  out : Ctx → LaneMask → LaneMask → LaneOut

/-- A warp-wide operation executes with contributing set P and receiving set Q; the lanes of bad fault
MEMBER_MISMATCH, and a receiving lane that reads a lane word with an uncorrectable error SOFT_ERROR (19 R283). -/
def Ctx.runWide (c : Ctx) (sh : Shape) (p q bad : LaneMask) (body : WideBody) : State :=
  let reads := sh.reads ++ c.guardReads ++ c.memberReads
  let soft := c.softWhere (body.src c p) (lanesOf q)
  let out := body.out c p (q &&& ~~~soft)
  let faults := sortFaults (out.faults ++ faultsOf .memberMismatch (lanesOf bad) ++ faultsOf .softError (lanesOf soft))
  c.completeLanes (c.disarm soft) { sh with reads := reads } (q ||| bad) ⟨out.writes, faults⟩

/-- The lanes of a path that cannot wait go on as the slot's path; the others enter the group of (PC, U)
(07 R141 step 4). The lanes of bad, which take no further part, stay and fault
(notes/assumptions/13.md). -/
def Ctx.parkWide (c : Ctx) (sh : Shape) (u bad : LaneMask) (body : WideBody) : State :=
  let c1 := { c with w := c.w.updPath c.slot fun p => { p with lanes := p.lanes &&& ~~~bad } }
  if bad = 0 then
    c1.enterGroup (.wide c.p.pc u) false fun c' =>
      match c'.p.carry with
      | some (p, q) => c'.runWide sh p q 0 body
      | none => c'.s
  else
    let (w, done) := c1.w.enter c.slot (.wide c.p.pc u) (c.active &&& ~~~bad)
    if done then
      match (c.s.setWarp (w.updPath c.slot fun p => { p with lanes := p.lanes ||| bad })).ctxAt? c.ref c.slot with
      | some c' =>
        match c'.p.carry with
        | some (p, q) => c'.runWide sh p q bad body
        | none => c'.s
      | none => c.s
    else
      let s := c.s.setWarp (w.setPath c.slot (some { c.p with lanes := bad }))
      (s.retireTo c.ref c.slot bad c.p.pc none 64 (c.next sh.len)).bump.deliver c.ref c.slot .lane .memberMismatch
        (faultsOf .memberMismatch (lanesOf bad)) bad c.p.pc (c.next sh.len)

/-- What an operation over the lanes of a warp does when the registers of its guard and its member set are sound. -/
def Ctx.soundWide (c : Ctx) (sh : Shape) (k : State) : State :=
  if c.softScalar (c.guardReads ++ c.memberReads) then
    c.softFault { sh with reads := sh.reads ++ c.guardReads ++ c.memberReads }
  else k

/-- A warp-wide operation (07 R141, 08 R146). A path made by a completed group carries P and Q; a path that
arrives lands its writes, and executes at once when no lane of U stands elsewhere. -/
def wideOp (s : State) (sh : Shape) (typeOk : Ctx → Bool) (body : WideBody) : Host.Outcome State Fault Refusal :=
  issueOp s sh typeOk fun c0 => c0.soundWide sh <|
    match c0.p.carry with
    | some (p, q) => c0.runWide sh (p &&& ~~~c0.w.exited) (q &&& ~~~c0.w.exited) 0 body
    | none => c0.drained (
      let c := c0.landed
      let u0 := c.memberSet
      let u := u0 &&& ~~~c.w.exited
      let bad := c.active &&& ~~~u0
      if u &&& ~~~c.p.lanes = 0 ∨ c.p.lanes &&& ~~~bad = 0 then
        c.runWide sh (u &&& c.p.lanes) (c.active &&& u) bad body
      else c.parkWide sh u0 bad body)

/-- A warp-wide operation that writes one word per receiving lane. -/
def wideWord (s : State) (sh : Shape) (d : Field) (src : Ctx → LaneMask → Nat → List (Nat × Nat))
    (f : Ctx → LaneMask → Nat → Word) : Host.Outcome State Fault Refusal :=
  wideOp s sh anyType ⟨src, fun c p q => overLanes d.toNat (fun l => .ok [f c p l] 0) (lanesOf q)⟩

/-! ### Shuffles (08 R147, R148) -/

/-- The offset of a lane: a literal with bit 31 set is relative to the width where rel allows it. -/
def Ctx.offset (c : Ctx) (rel : Bool) (b : Src) (lane : Nat) : Nat :=
  match b with
  | .reg r => (c.v r.toNat lane).toNat
  | .lit w => if rel ∧ w.getLsbD 31 then Config.width / 2 ^ bits w.toNat 2 0 else w.toNat

/-- The lane that a shuffle reads in a receiving lane: the source lane where it contributes, else its own. -/
def shuffleLane (p : LaneMask) (l : Nat) : Option Nat → Nat
  | some j => if decide (j < Config.width) && p.getLsbD j then j else l
  | none => l

/-- A shuffle: src gives the source lane of a lane and its offset. -/
def shuffle (s : State) (m : Bool) (d a : Field) (b : Src) (rel : Bool) (src : Nat → Nat → Option Nat) :
    Host.Outcome State Fault Refusal :=
  wideWord s (.vvv m false d a b) d
    (fun c p l => (a.toNat, shuffleLane p l (src l (c.offset rel b l))) :: b.vregs.map (ownLane l))
    fun c p l => c.v a.toNat (shuffleLane p l (src l (c.offset rel b l)))

/-- VSHUP (08 R147): from lane l - c. -/
def execVshup (m : Bool) (d a : Field) (b : Src) (s : State) : Host.Outcome State Fault Refusal :=
  shuffle s m d a b true fun l n => if n ≤ l then some (l - n) else none

/-- VSHDN (08 R147): from lane l + c. -/
def execVshdn (m : Bool) (d a : Field) (b : Src) (s : State) : Host.Outcome State Fault Refusal :=
  shuffle s m d a b true fun l n => some (l + n)

/-- VSHXOR (08 R147): from lane l XOR c. -/
def execVshxor (m : Bool) (d a : Field) (b : Src) (s : State) : Host.Outcome State Fault Refusal :=
  shuffle s m d a b true fun l n => some (l ^^^ n)

/-- VSHIDX (08 R147): from lane c. -/
def execVshidx (m : Bool) (d a : Field) (b : Src) (s : State) : Host.Outcome State Fault Refusal :=
  shuffle s m d a b false fun _ n => some n

/-! ### Quad exchange (08 R149) -/

/-- VQSWAP (08 R149): each receiving lane reads a position of its quad; an exited lane gives 0, every other
lane its value (07 R142). It never parks. -/
def execVqswap (m : Bool) (d a : Field) (b : Src) (s : State) : Host.Outcome State Fault Refusal :=
  let sh := Shape.vvv m false d a b
  let quad (c : Ctx) (l : Nat) : Nat := l / 4 * 4 + bits (c.vb b l).toNat (2 * (l % 4) + 1) (2 * (l % 4))
  issueOp s sh anyType fun c0 => c0.soundWide sh <| c0.drained (
    let c := c0.landed
    let u0 := c.memberSet
    let p := u0 &&& ~~~c.w.exited &&& c.p.lanes
    c.runWide sh p (c.active &&& p) (c.active &&& ~~~u0)
      ⟨fun c _ l => (if c.w.exited.getLsbD (quad c l) then [] else [(a.toNat, quad c l)]) ++ b.vregs.map (ownLane l),
       fun c _ q => overLanes d.toNat (fun l =>
        .ok [if c.w.exited.getLsbD (quad c l) then 0 else c.v a.toNat (quad c l)] 0) (lanesOf q)⟩)

/-! ### Reduction and scan (08 R150) -/

/-- A value of the tree: EMPTY, or a word; and the status bits gathered. -/
abbrev TreeVal := Option Word × Nat

/-- Combine two words elementwise under a code and MODE. -/
def combWords (c : Ctx) (code : Nat) (x y : Word) : Word × Nat :=
  let t := c.etype
  let w := elemWidth t
  let ints (f : Nat → Nat → Nat) : Word × Nat := (zipElems w f x y, 0)
  let flts (f : FVal → FVal → Res) : Word × Nat :=
    packRes w (List.zipWith (fun a b => roundRes c (f a b)) (fpElems c x) (fpElems c y))
  if code = 3 then (x &&& y, 0)
  else if code = 4 then (x ||| y, 0)
  else if code = 5 then (x ^^^ y, 0)
  else if isFpType t then
    (if code = 0 then flts (addF c.rnd) else flts (minmaxF (decide (code = 2))))
  else if code = 0 then ints fun a b => (a + b) % 2 ^ w
  else ints (pick w (isSigned t) (decide (code = 2)))

/-- Comb with EMPTY, and the union of status bits. -/
def combTree (c : Ctx) (code : Nat) (x y : TreeVal) : TreeVal :=
  match x, y with
  | (none, f), (v, g) => (v, f ||| g)
  | (v, f), (none, g) => (v, f ||| g)
  | (some a, f), (some b, g) =>
    let (r, h) := combWords c code a b
    (some r, f ||| g ||| h)

/-- The leaves of a tree: V(A, i) for the lanes of P, EMPTY elsewhere. -/
def treeLeaves (c : Ctx) (a : Nat) (p : LaneMask) : List TreeVal :=
  (List.range Config.width).map fun i => (if p.getLsbD i then some (c.v a i) else none, 0)

/-- One level of a reduction: neighbours combined. -/
def redLevel (c : Ctx) (code : Nat) : List TreeVal → List TreeVal
  | x :: y :: r => combTree c code x y :: redLevel c code r
  | r => r

/-- The reduction's levels. -/
def redTree (c : Ctx) (code : Nat) : Nat → List TreeVal → List TreeVal
  | 0, xs => xs
  | n + 1, xs => redTree c code n (redLevel c code xs)

/-- One level of a scan at distance d. -/
def scanLevel (c : Ctx) (code d : Nat) (xs : List TreeVal) : List TreeVal :=
  xs.take d ++ List.zipWith (combTree c code) xs (xs.drop d)

/-- The scan's levels at distances d, 2d, … -/
def scanTree (c : Ctx) (code : Nat) : Nat → Nat → List TreeVal → List TreeVal
  | 0, _, xs => xs
  | n + 1, d, xs => scanTree c code n (2 * d) (scanLevel c code d xs)

/-- A receiving lane of VRED or VSCAN. -/
def treeLane (c : Ctx) (x : TreeVal) : LaneRes :=
  if modeTrapNv c.p.mode ∧ hasBit x.2 stNV then .fault .invalidOp 0 0 else .ok [x.1.getD 0] x.2

/-- The element types of VRED and VSCAN. -/
def treeTypes (c : Ctx) : Bool := isIntType c.etype || isFpType c.etype

/-- A register in every lane of P, as each receiving lane reads it. -/
def membersOf (a : Field) (_ : Ctx) (p : LaneMask) (_ : Nat) : List (Nat × Nat) := (lanesOf p).map fun i => (a.toNat, i)

/-- VRED (08 R150): the tree over 32 lanes. -/
def execVred (m : Bool) (d a : Field) (lit : Word) (s : State) : Host.Outcome State Fault Refusal :=
  wideOp s (.vvl m false d a) treeTypes ⟨membersOf a, fun c p q =>
    let x := (redTree c lit.toNat 5 (treeLeaves c a.toNat p)).headD (none, 0)
    overLanes d.toNat (fun _ => treeLane c x) (lanesOf q)⟩

/-- VSCAN (08 R150): the inclusive scan. -/
def execVscan (m : Bool) (d a : Field) (lit : Word) (s : State) : Host.Outcome State Fault Refusal :=
  wideOp s (.vvl m false d a) treeTypes ⟨fun c p l => (membersOf a c p l).filter fun x => decide (x.2 ≤ l), fun c p q =>
    let xs := scanTree c lit.toNat 5 1 (treeLeaves c a.toNat p)
    overLanes d.toNat (fun l => treeLane c (xs.getD l (none, 0))) (lanesOf q)⟩

/-! ### Vote and match (08 R151, R152) -/

/-- What a vote writes. -/
def voteWord (c : Ctx) (a kind : Nat) (p : LaneMask) : Word :=
  let yes := lanesWhere (fun l => decide (c.v a l ≠ 0)) (lanesOf p)
  match kind with
  | 0 => if yes = p then 1 else 0
  | 1 => if yes = 0 then 0 else 1
  | 2 => yes
  | _ => if (lanesOf p).all fun l => decide (c.v a l = c.v a (lowestLane p)) then 1 else 0

/-- VVOTE (08 R151): one write to sD when a lane receives. -/
def execVvote (m : Bool) (d a : Field) (lit : Word) (s : State) : Host.Outcome State Fault Refusal :=
  wideOp s ⟨m, 8, [a.toNat], [a.toNat]⟩ anyType ⟨membersOf a, fun c p q =>
    ⟨if q = 0 then [] else [(.s d.toNat, voteWord c a.toNat lit.toNat p)], []⟩⟩

/-- VMATCH (08 R152): the lanes of P that hold the same word. -/
def execVmatch (m : Bool) (d a : Field) (s : State) : Host.Outcome State Fault Refusal :=
  wideWord s (.vv m d a) d (fun c p l => (a.toNat, l) :: membersOf a c p l) fun c p l =>
    lanesWhere (fun j => decide (c.v a.toNat j = c.v a.toNat l)) (lanesOf p)

/-! ### Lane read and write (08 R153) -/

/-- VREADL (08 R153): S(D) := V(A, OpB mod 32), wherever that lane stands. -/
def execVreadl (m : Bool) (d a : Field) (b : Src) (s : State) : Host.Outcome State Fault Refusal :=
  issueOp s ⟨m, b.len, [a.toNat], a.toNat :: b.sregs⟩ anyType fun c => c.sound ⟨m, b.len, [], a.toNat :: b.sregs⟩ <|
    let i := (c.sb b).toNat % Config.width
    let soft := c.softLanes [a.toNat] (laneBit i)
    c.completeLanes (c.disarm soft) ⟨m, b.len, [a.toNat], a.toNat :: b.sregs⟩ c.active
      (if soft = 0 then ⟨[(.s d.toNat, c.v a.toNat i)], []⟩ else ⟨[], faultsOf .softError [i]⟩)

/-- VWRITEL (08 R153): V(D, i) := S(A) when lane i is Active. -/
def execVwritel (m : Bool) (d a : Field) (b : Src) (s : State) : Host.Outcome State Fault Refusal :=
  let sh : Shape := ⟨m, b.len, [d.toNat], sRd a :: b.sregs⟩
  issueOp s sh anyType fun c => c.guarded sh <| c.sound sh <|
    let i := (c.sb b).toNat % Config.width
    let ws := if c.active.getLsbD i then [(WTarget.v d.toNat i, c.sr a.toNat)] else []
    c.complete c.s { sh with reads := sh.reads ++ c.guardReads } c.active ws (c.next b.len)

/-! ### Indirect register moves (08 R154) -/

/-- A register move through ix: n is ix + k; every Active lane faults REG_BOUNDS when the allotment does
not hold it (detail k, address ix). -/
def indexedMove (s : State) (sh : Shape) (k : Nat) (src dst : Nat → Nat) : Host.Outcome State Fault Refusal :=
  issueOp s sh anyType fun c => c.guarded sh <|
    let n := c.p.ix.toNat + k
    let act := c.active
    let soft := if n < c.l.record.regs then c.softLanes [src n] act else 0
    let f (l : Nat) : LaneRes :=
      if c.l.record.regs ≤ n then .fault .regBounds k c.p.ix else .ok [c.v (src n) l] 0
    c.completeLanes (c.disarm soft) { sh with reads := (if n < c.l.record.regs then [src n] else []) ++ c.guardReads } act
      (overLanes (dst n) (withSoft soft f) (lanesOf act))

/-- VMOVX (08 R154): V(D) := V(ix + k). -/
def execVmovx (m : Bool) (d a : Field) (s : State) : Host.Outcome State Fault Refusal :=
  indexedMove s ⟨m, 4, [d.toNat], []⟩ a.toNat (fun n => n) fun _ => d.toNat

/-- VMOVXW (08 R154): V(ix + k) := V(A). -/
def execVmovxw (m : Bool) (d a : Field) (s : State) : Host.Outcome State Fault Refusal :=
  indexedMove s ⟨m, 4, [a.toNat], []⟩ d.toNat (fun _ => a.toNat) fun n => n

end Sys2Proof.Machine
end

