-- ==== Sys2Proof/Machine/Barrier.lean ====
section
/-! DEFINITION. The barrier instructions (08 R155 to R159) and frame ends that come before an instruction
acts (10 R185). -/

namespace Sys2Proof.Machine

/-- In tripod mode an instruction that ends the warp's frame before it acts: the first issue ends the frame
and leaves the PC; the issue after the commit acts (10 R185). -/
def Ctx.frameFirst (c : Ctx) (k : State) : State :=
  if c.l.record.tripod && !c.p.frameServed then
    (c.s.updWarp c.ref fun w =>
      ({ w with frame := w.frame.finish } : Warp).updPath c.slot fun p => { p with frameServed := true }).bump
  else k

/-- Whether an instruction brings a value back from local memory to a register. -/
def loadsValue : Instr → Bool
  | .ld8 .. | .ld8s .. | .ld16 .. | .ld16s .. | .ld32 .. | .ld64 .. | .ld128 .. | .sld32 .. | .sld64 .. | .ldacq32 ..
  | .aadd .. | .aand .. | .aor .. | .axor .. | .amin .. | .amax .. | .aminn .. | .amaxn .. | .aexch .. | .acas ..
  | .afadd .. | .afmin .. | .afmax .. => true
  | _ => false

/-- Every earlier load of the path has returned its value, as an arrival needs (08 R156): those writes land. -/
def Ctx.returned (c : Ctx) : State :=
  let isLoad (x : PendingWrite) : Bool :=
    match c.s.decodeAt c.l x.pc with
    | .instr i _ => x.target.isReg && loadsValue i
    | _ => false
  let done := c.p.writes.filter isLoad
  let rest := c.p.writes.filter fun x => !isLoad x
  if done = [] then c.s
  else
    let w := (Warp.landRegs c.s.free done.length 0 c.w done).setPath c.slot (some { c.p with writes := rest })
    (c.s.setWarp w).film w (landedImages c.s.free c.w w done rest)

/-- Arrive at a barrier, then wait for the recorded generation, as the instruction says (08 R157). -/
def Ctx.atBarrier (c : Ctx) (m : Bool) (u : BarUnit) (arrive wait : Bool) : State :=
  let b := c.s.barrier c.l c.ref u
  if arrive && b.arrived.contains c.ref then c.parkAt c.s (.arrive u)
  else
    let s := if arrive then c.returned.arriveBarrier c.l c.ref u else c.s
    let rec' := if arrive then some b.gen else b.recordedOf c.ref
    let s :=
      match wait, rec' with
      | true, some g =>
        if b.gen ≤ g then s.updPath c.ref c.slot fun p => { p with park := .barrier u g }
        else (s.retireTo c.ref c.slot c.active c.p.pc none 0 (c.next 4)).updPath c.ref c.slot fun p => p.mark m
      | _, _ => (s.retireTo c.ref c.slot c.active c.p.pc none 0 (c.next 4)).updPath c.ref c.slot fun p => p.mark m
    (if arrive then s.tryComplete c.l c.ref u else s).bump

/-- BARP on a die that runs generations again (24 R352): the warp arrives at the next of those. -/
def Ctx.atReplay (c : Ctx) (rp : BarpReplay) : State :=
  let g := c.l.barp.gen - rp.behind
  let arrive (y : BarpReplay) : BarpReplay :=
    if y.die = c.b.die then { y with arrived := y.arrived ++ [c.ref] } else y
  let s := c.returned.arriveSlots c.ref .package g
  let s := s.updLaunch c.l.uid fun x => { x with replays := x.replays.map arrive }
  let s := s.updPath c.ref c.slot fun p => { p with park := .barrier .package g }
  (s.tryReplay c.l.uid c.b.die).bump

/-- The barrier a warp meets: its unit, or for the package barrier the generations its die runs again. -/
def Ctx.meetBarrier (c : Ctx) (m : Bool) (u : BarUnit) (arrive wait : Bool) : State :=
  match (if u = .package then c.l.replayOn c.b.die else none) with
  | some rp => c.atReplay rp
  | none => c.atBarrier m u arrive wait

/-- A barrier instruction: lanes of the warp that stand elsewhere are waited for first, at the group of this
PC (08 R155). -/
def barrierOp (s : State) (m : Bool) (u : BarUnit) (arrive wait : Bool) : Host.Outcome State Fault Refusal :=
  withCtx s fun c =>
    if u = .package ∧ c.l.record.cores = false then c.issueFault .barrierBroken 4
    else if c.p.lanes = ~~~c.w.exited then c.frameFirst (c.meetBarrier m u arrive wait)
    else c.drained (c.landed.enterGroup (.barrier c.p.pc) false fun c' => c'.frameFirst (c'.meetBarrier m u arrive wait))

/-- BAR (08 R155, R157): arrives at block barrier d and waits. -/
def execBar (m : Bool) (d : Field) (s : State) : Host.Outcome State Fault Refusal :=
  barrierOp s m (.block d.toNat) true true

/-- BARA (08 R155, R157): arrives. -/
def execBara (m : Bool) (d : Field) (s : State) : Host.Outcome State Fault Refusal :=
  barrierOp s m (.block d.toNat) true false

/-- BARW (08 R155, R157): waits for the generation at which the warp last arrived. -/
def execBarw (m : Bool) (d : Field) (s : State) : Host.Outcome State Fault Refusal :=
  barrierOp s m (.block d.toNat) false true

/-- BARC (08 R158): the cluster barrier. -/
def execBarc (m : Bool) (s : State) : Host.Outcome State Fault Refusal := barrierOp s m .cluster true true

/-- BARP (08 R158): the package barrier, legal under CORES = 1 only. -/
def execBarp (m : Bool) (s : State) : Host.Outcome State Fault Refusal := barrierOp s m .package true true

end Sys2Proof.Machine
end

