-- ==== Sys2Proof/Machine/Watch.lean ====
section
/-! DEFINITION. Watchpoints of a loupe core as a thread access meets them (20 R302, R303; 23 R335). -/

namespace Sys2Proof.Machine

/-- A thread access that has passed its check: its lane, its local address and place, its size. -/
structure Access where
  lane : Nat
  x : Word
  place : Place
  off : Nat
  n : Nat
  deriving DecidableEq, Repr

/-- The kind of a thread access: RED forms count as atomics (11 R192, 20 R302). -/
inductive AccKind where
  | load | store | atomic | red
  deriving DecidableEq, Repr

/-! ### Warps that run -/

/-- A block issues: it is resident, not stopped or pre-empted, on a running die. -/
def State.blockIssues (s : State) (r : WarpRef) : Bool :=
  match s.block? r.launch r.block with
  | none => false
  | some b =>
    !b.stopped && !b.released && decide (b.pre ≠ .saving) && decide (b.pre ≠ .flushing) &&
    decide ((s.die b.die).st = .running)

/-- A warp is held at a watchpoint event whose predicates have yet to run. -/
def State.hitWaits (s : State) (r : WarpRef) : Bool := (s.die (s.dieOf r)).loupe.hits.any fun h => !h.engine && decide (h.ref = r)

/-- A warp whose block issues is not in a transfer, paused, or held at a watchpoint. -/
def State.warpRuns (s : State) (w : Warp) : Bool :=
  s.blockIssues w.ref && !w.ended && decide (w.loupe.pause = .none) && !s.hitWaits w.ref &&
  (match w.loupe.place with
    | .leaving _ _ => false
    | .returning => false
    | _ => true)

/-- A path is held at an instruction by a watchpoint event, or about to issue it again: what it reads stays as it was
(23 R335). -/
def Path.heldAt (p : Path) : Bool := p.drawn.isSome && decide (p.park = .none)

/-- Whether a path of a warp is. -/
def Warp.heldAt (w : Warp) : Bool := w.live.any fun x => x.2.heldAt

/-! ### Watchpoint fields (20 R302) -/

def wpValue (w : BitVec 128) : Word := BitVec.ofNat 32 (bits w.toNat 127 96)
def wpBase (w : BitVec 128) : Nat := bits w.toNat 95 64
def wpProg (w : BitVec 128) : Nat := bits w.toNat 31 26
def wpCmp (w : BitVec 128) : Nat := bits w.toNat 25 24
def wpPreden (w : BitVec 128) : Bool := w.getLsbD 23
def wpLen (w : BitVec 128) : Nat := bits w.toNat 16 12
def wpEng (w : BitVec 128) : Bool := w.getLsbD 11
def wpEnabled (w : BitVec 128) : Bool := w.getLsbD 0

/-- Whether a watchpoint watches a kind of access. -/
def wpKind (w : BitVec 128) : AccKind → Bool
  | .load => w.getLsbD 8
  | .store => w.getLsbD 9
  | .atomic => w.getLsbD 10
  | .red => w.getLsbD 10

/-- Whether one access, with the word compared, hits a watchpoint (20 R303). -/
def wpHit (w : BitVec 128) (k : AccKind) (a : Access) (word : Word) : Bool :=
  wpEnabled w && wpKind w k && overlaps a.x.toNat a.n (wpBase w) (2 ^ wpLen w) &&
  (match wpCmp w with
    | 1 => decide (word = wpValue w)
    | 2 => decide (word ≠ wpValue w)
    | _ => true)

/-- An access that a watchpoint may see: the word compared (20 R303), and the aligned word of its first byte as the
whole instruction would leave it, which the hit record holds (23 R335). -/
structure Watched where
  acc : Access
  word : Word
  left : Word
  deriving DecidableEq, Repr

/-- The lanes that hit a watchpoint. -/
def wpLanes (w : BitVec 128) (k : AccKind) : List Watched → LaneMask
  | [] => 0
  | a :: r => (if wpHit w k a.acc a.word then laneBit a.acc.lane else 0) ||| wpLanes w k r

/-- The watchpoints of a loupe core that an instruction hits, with the lanes of each. -/
def wpHits (wps : Table (BitVec 128)) (core : Nat) (k : AccKind) (as : List Watched) :
    List (Nat × Bool × LaneMask) :=
  (List.range 64).filterMap fun i =>
    match tget wps (64 * core + i) with
    | none => none
    | some w => let m := wpLanes w k as; if m = 0 then none else some (i, wpPreden w, m)

/-- A hit event from the watchpoints hit, in ascending number. -/
def Hit.make (seq : Nat) (c : Ctx) (core lslot : Nat) (hs : List (Nat × Bool × LaneMask)) (as : List Watched) : Hit where
  seq := seq
  ref := c.ref
  slot := c.slot
  pc := c.p.pc
  lcore := core
  lslot := lslot
  engine := false
  todo := (hs.filter fun h => h.2.1).map fun h => (h.1, h.2.2)
  lowest := (hs.head?.map Prod.fst).getD 0
  all := hs.foldl (fun m h => m ||| h.2.2) 0
  lanes := as.map fun a => (a.acc.lane, a.left, a.acc.x)
  anyTrue := false
  noPred := hs.any fun h => !h.2.1
  overrun := false
  running := false
  logs := 0
  last := c.w.loupe.lastClk
  tseq := c.w.loupe.tseq

/-- FLAGS of a watch record (23 R335): WATCH, TRUE, OVERRUN, PATH. -/
def Hit.flags (h : Hit) (path : Bool) : Nat := 2 + 4 * b2n h.anyTrue + 8 * b2n h.overrun + 32 * b2n path

/-- The result of a hit event is known (20 R303, 23 R335): its record is appended; the warp halts when a
watchpoint has no predicate or one returned true, else the held instruction proceeds. -/
def State.endHit (s : State) (h : Hit) : State :=
  match s.warp? h.ref with
  | none => s
  | some w =>
    let s := s.sheet h.ref h.all h.pc none h.lowest (h.flags (w.pathBit h.slot)) 2
    if h.noPred || h.anyTrue then s.updWarp h.ref fun w => { w with loupe := { w.loupe with pause := .watch h.slot } }
    else s.updPath h.ref h.slot fun p => { p with passed := true }

/-- The watchpoint event that has held the instruction of the issuing path. -/
def Ctx.drawn? (c : Ctx) : Option Drawn := if c.w.onLoupe?.isSome then c.p.drawn else none

/-- An instruction that a watchpoint event has held issues again with the free values it had, so that it does what
its hit record says (23 R335). -/
def Ctx.redrawn (c : Ctx) : Ctx :=
  match c.drawn? with
  | some d => { c with s := { c.s with free := d.free } }
  | none => c

/-- Run such an instruction; what comes after it has free values of its own. -/
def Ctx.redraw (c : Ctx) (k : Ctx → State) : State :=
  match c.drawn? with
  | some _ => let t := k c.redrawn; { t with free := max t.free (c.s.free + 1) }
  | none => k c

/-- The hit event of an access, if there is one: the warp is held at the instruction (20 R303). locked holds the addresses
of its lanes that have met a locked range. -/
def Ctx.watch (c : Ctx) (k : AccKind) (as : List Watched) (locked : List Word) : Option State :=
  match c.w.onLoupe? with
  | none => none
  | some (core, lslot) =>
    if c.p.passed then none
    else
      let x := (c.s.die c.b.die).loupe
      match wpHits x.wps core k as with
      | [] => none
      | hs =>
        let h := Hit.make x.hitSeq c core lslot hs as
        let s := c.s.updLoupe c.b.die fun x => { x with hitSeq := x.hitSeq + 1 }
        let s := s.updPath c.ref c.slot fun p => { p with drawn := some ⟨c.s.free, locked⟩ }
        if h.todo = [] then some (s.endHit h).bump
        else some (s.updLoupe c.b.die fun x => { x with hits := x.hits ++ [h] }).bump

end Sys2Proof.Machine
end

