-- ==== Sys2Proof/Machine/LocalMemory.lean ====
section
/-! DEFINITION. Local memory as threads use it (09 R160 to R166; 11 R192 to R209): loads, stores, spills,
atomics, reductions, fence, WAITF, FRAMEND and PUBLISH. An access is performed at its issue
(notes/assumptions/6.md). -/

namespace Sys2Proof.Machine

/-! ### Addresses and checks -/

/-- Whether a place is a block's own BSM. -/
def ownPlace (l : Launch) (block : Nat) (pl : Place) : Bool := decide (pl = .bsm l.uid block)

/-- Whether a lock of an operation still counts against a warp (10 R183; under tripod R188). -/
def LockStage.counts (st : LockStage) (tripod : Bool) (owner r : WarpRef) : Bool :=
  if !tripod then decide (st = .held)
  else if owner = r then decide (st = .held)
  else if owner.block = r.block then decide (st = .held ∨ st = .waited)
  else true

/-- Whether a locked range forbids an access (10 R183): a destination locks every kind, a source stores and
atomics. An operation that waits for room in the RLT has registered nothing yet. -/
def State.rangeLocked (s : State) (l : Launch) (r : WarpRef) (k : AccKind) (pl : Place) (off n : Nat) : Bool :=
  s.x.ops.any fun o =>
    o.posted && o.stage.counts l.record.tripod o.ref r &&
    o.locks.any fun z => decide (z.place = pl) && (z.dest || decide (k ≠ .load)) && overlaps off n z.lo z.len

/-- Whether a locked range forbids an access; an instruction that a watchpoint event has held does what it did at its
first checks (23 R335). -/
def Ctx.locked (c : Ctx) (k : AccKind) (x : Word) (pl : Place) (off n : Nat) : Bool :=
  match c.drawn? with
  | some d => if c.p.passed then d.locked.contains x else c.s.rangeLocked c.l c.ref k pl off n
  | none => c.s.rangeLocked c.l c.ref k pl off n

/-- Check (11 R192): the first test that fails, or the place. -/
def Ctx.check (c : Ctx) (k : AccKind) (x : Word) (n : Nat) : Except FaultKind (Place × Nat) :=
  match localPlace c.l c.ref.block x n with
  | none => .error .outOfRange
  | some (pl, off) =>
    if x.toNat % n ≠ 0 then .error .misaligned
    else if c.l.record.tripod ∧
        ((bits x.toNat 31 28 = 1 ∧ !ownPlace c.l c.ref.block pl) ∨ (k = .atomic ∧ 2 ≤ modeScope c.p.mode)) then
      .error .tripodScope
    else if c.locked k x pl off n then .error .rangeLocked
    else .ok (pl, off)

/-- The accesses of lanes that pass the check, and the entries of those that fail (19 R286: detail the size,
address x). -/
def Ctx.gather (c : Ctx) (k : AccKind) (n : Nat) (addr : Nat → Word) : List Nat → List Access × List LaneEntry
  | [] => ([], [])
  | l :: r =>
    let (as, fs) := c.gather k n addr r
    match c.check k (addr l) n with
    | .ok (pl, off) =>
      if k ≠ .store ∧ c.s.softAt pl off n then (as, ⟨l, .softError, 0, 0⟩ :: fs) else (⟨l, addr l, pl, off, n⟩ :: as, fs)
    | .error e => (as, ⟨l, e, n, addr l⟩ :: fs)

/-! ### Performing accesses -/

/-- The bytes that a load of the warp returns (10 R175, R186). -/
def State.loadBytes (s : State) (l : Launch) (r : WarpRef) (pl : Place) (off n : Nat) : List Byte :=
  match s.warp? r with
  | some w => s.warpView l w pl off n
  | none => []

/-- The word at a place as the warp sees it. -/
def State.loadWord (s : State) (l : Launch) (r : WarpRef) (pl : Place) (off : Nat) : Word :=
  BitVec.ofNat 32 (leNat (s.loadBytes l r pl off 4))

/-- The aligned word that holds an access's first byte (20 R303). -/
def State.watchWord (s : State) (l : Launch) (r : WarpRef) (a : Access) : Word := s.loadWord l r a.place (a.off / 4 * 4)

/-- Pieces of at most 8 bytes, each single-copy atomic (10 R172). -/
def splitPiece (a : Access) (bs : List Byte) : List (Access × List Byte) :=
  if bs.length ≤ 8 then [(a, bs)]
  else [({ a with n := 8 }, bs.take 8), ({ a with off := a.off + 8, n := 8 }, bs.drop 8)]

/-- The order of pieces: ascending lanes, but free where two meet at one place (10 R171, R181). -/
def pieceOrder (free : Nat) (ps : List (Access × List Byte)) : List (Access × List Byte) :=
  let keys := ps.map fun p => (p.1.place, p.1.off)
  if keys.eraseDups.length = keys.length then ps
  else ps.mergeSort fun p q => decide (Config.freeRank free p.1.off p.1.lane ≤ Config.freeRank free q.1.off q.1.lane)

/-- Write pieces in order. -/
def State.writePieces' (s : State) : List (Access × List Byte) → State
  | [] => s
  | (a, bs) :: r => (s.writePlace a.place a.off bs).writePieces' r

/-- Bytes of the commit buffer that an access of n bytes takes (10 R185). -/
def bufCost (n : Nat) : Nat := 8 + (n + 7) / 8 * 8

/-- The commit buffer of a warp: 8 KiB (10 R185). -/
def bufSize : Nat := 8192

/-- Append to the warp's commit buffer. -/
def State.buffer (s : State) (r : WarpRef) (cost : Nat) (es : List BufEntry) : State :=
  s.updWarp r fun w => { w with frame := { w.frame with used := w.frame.used + cost, buf := w.frame.buf ++ es } }

/-- The block's external-write flag, set at issue by accesses outside its own BSM (19 R291). -/
def Ctx.external (c : Ctx) (s : State) (as : List Access) : State :=
  if as.all fun a => ownPlace c.l c.ref.block a.place then s
  else s.updBlock c.ref.launch c.ref.block fun b => { b with ext := true }

/-- Stores of an instruction: performed, or in tripod mode buffered in ascending lane order. -/
def Ctx.stores (c : Ctx) (ps : List (Access × List Byte)) : State :=
  let s := c.external c.s (ps.map Prod.fst)
  if c.l.record.tripod then
    s.buffer c.ref ((ps.map fun p => bufCost p.2.length).foldl (· + ·) 0) (ps.map fun p => .store p.1.place p.1.off p.2)
  else s.writePieces' (pieceOrder c.s.free (ps.map fun p => splitPiece p.1 p.2).flatten)

/-- Read-modify-writes in an order: the state and what each lane read (11 R199). -/
def Ctx.rmws (c : Ctx) (f : Nat → Word → Word) : State → List (Access × List Byte) → State × List (Nat × Word)
  | s, [] => (s, [])
  | s, (a, _) :: r =>
    let old := s.loadWord c.l c.ref a.place a.off
    let bs := leBytes 4 (f a.lane old).toNat
    let s := if c.l.record.tripod then s.buffer c.ref (bufCost 4) [.store a.place a.off bs] else s.writePlace a.place a.off bs
    let (s, olds) := c.rmws f s r
    (s, (a.lane, old) :: olds)

/-- The atomics of an instruction. -/
def Ctx.atomics (c : Ctx) (as : List Access) (f : Nat → Word → Word) : State × List (Nat × Word) :=
  let ps : List (Access × List Byte) := as.map fun a => (a, [])
  c.rmws f (c.external c.s as) (if c.l.record.tripod then ps else pieceOrder c.s.free ps)

/-- The reductions of an instruction: performed, or in tripod mode buffered (11 R202, R203). -/
def Ctx.reductions (c : Ctx) (as : List Access) (o : RedOp) (b : Nat → Word) : State :=
  if c.l.record.tripod then
    (c.external c.s as).buffer c.ref (bufCost 4 * as.length) (as.map fun a => .red a.place a.off o c.etype (b a.lane))
  else (c.atomics as fun l old => o.combine c.etype old (b l)).1

/-! ### Bound forests under plain writes (15 R246, R248) -/

/-- A forest as a block reaches it: its records, its log. -/
structure ForestAt where
  l : Launch
  block : Nat
  f : Forest
  rec' : Place × Nat
  log : Place × Nat
  deriving DecidableEq, Repr

/-- Bytes of a forest's records and of its log. -/
def Forest.recBytes (f : Forest) : Nat := 8 * f.count
def Forest.logBytes (f : Forest) : Nat := 16 + 16 * f.logCap

/-- Place a forest. -/
def Forest.at? (f : Forest) (l : Launch) (block : Nat) : Option ForestAt :=
  match localPlace l block f.base f.recBytes, localPlace l block f.logBase f.logBytes with
  | some r, some g => some ⟨l, block, f, r, g⟩
  | _, _ => none

/-- Two forests share a record or a byte of a log. -/
def ForestAt.meets (a b : ForestAt) : Bool :=
  let share (x : Place × Nat) (n : Nat) (y : Place × Nat) (m : Nat) : Bool := decide (x.1 = y.1) && overlaps x.2 n y.2 m
  share a.rec' a.f.recBytes b.rec' b.f.recBytes || share a.log a.f.logBytes b.log b.f.logBytes ||
  share a.rec' a.f.recBytes b.log b.f.logBytes || share a.log a.f.logBytes b.rec' b.f.recBytes

/-- The forests that live warps of a launch have bound. -/
def State.boundForests (s : State) (l : Launch) : List ForestAt :=
  s.x.warps.filterMap fun w =>
    if w.ref.launch = l.uid ∧ !w.ended then w.forest.bind fun f => f.at? l w.ref.block else none

/-- The element where the parents of a forest's bytes lead from an element, within a number of steps. -/
def State.rootFrom (s : State) (t : ForestAt) : Nat → Nat → Nat
  | 0, x => x
  | n + 1, x =>
    let p := leNat (s.blockView t.l t.block t.rec'.1 (t.rec'.2 + 8 * x) 4)
    if p = x ∨ t.f.count ≤ p then x else s.rootFrom t n p

/-- The elements whose records [off, off + n) of a place meets. -/
def ForestAt.elemsIn (t : ForestAt) (pl : Place) (off n : Nat) : List Nat :=
  if t.rec'.1 = pl ∧ overlaps off n t.rec'.2 t.f.recBytes then
    let lo := (off - t.rec'.2) / 8
    let hi := min t.f.count ((off + n - t.rec'.2 + 7) / 8)
    (List.range (hi - lo)).map fun i => lo + i
  else []

/-- What a plain write of [off, off + n) spoils of a forest, as the bytes stand: the records it meets and the roots of
their classes, and the log. -/
def State.spoils (s : State) (t : ForestAt) (pl : Place) (off n : Nat) : List Nat :=
  let es := t.elemsIn pl off n
  (es ++ es.map (s.rootFrom t t.f.count)).map (fun i => t.rec'.2 + 8 * i) ++
  if t.log.1 = pl ∧ overlaps off n t.log.2 t.f.logBytes then [t.log.2] else []

/-- A place after plain writes took the state from s to s': what they spoil of bound forests is remembered; splice
results of those classes are undefined from then on (15 R248). -/
def State.broken (s s' : State) (l : Launch) (pl : Place) (off n : Nat) : State :=
  match pl with
  | .bsm _ _ => s'
  | .spad u k =>
    let es := ((s.boundForests l).map fun t => s.spoils t pl off n ++ s'.spoils t pl off n).flatten
    if es = [] then s' else s'.updSpan u k fun x => { x with broken := (x.broken ++ es).eraseDups }

/-- The state that the accesses of an instruction leave, with what they spoil of bound forests; in tripod mode the
commit of their frame does that. -/
def Ctx.brokenBy (c : Ctx) (k : AccKind) (s' : State) (as : List Access) : State :=
  if k = .load ∨ c.l.record.tripod then s' else as.foldl (fun t a => c.s.broken t c.l a.place a.off a.n) s'

/-! ### Instructions over lanes -/

/-- Buffered writes that do not fit in the rest of the frame's buffer (10 R185). -/
def Ctx.overfull (c : Ctx) (k : AccKind) (as : List Access) : Bool :=
  c.l.record.tripod && decide (k ≠ .load) &&
  decide (bufSize < c.w.frame.used + (as.map fun a => bufCost a.n).foldl (· + ·) 0)

/-- End the frame; the instruction opens the next one (10 R185). -/
def Ctx.nextFrame (c : Ctx) : State := (c.s.updWarp c.ref fun w => { w with frame := w.frame.finish }).bump

/-- What watchpoints see of accesses that leave the state s: a store is compared with the word as it leaves it, a load
or an atomic with the word before (20 R303). -/
def Ctx.watched (c : Ctx) (s : State) (k : AccKind) (as : List Access) : List Watched :=
  as.map fun a =>
    let left := s.watchWord c.l c.ref a
    ⟨a, if k = .store then left else c.s.watchWord c.l c.ref a, left⟩

/-- The addresses of lanes that have met a locked range. -/
def lockedAt (es : List LaneEntry) : List Word := (es.filter fun e => decide (e.kind = .rangeLocked)).map LaneEntry.addr

/-- A memory instruction over the Active lanes: addr gives each lane's address, run performs the accesses
that pass and gives the register writes; the other lanes fault (11 R193, R194, R199). -/
def memOp (s : State) (sh : Shape) (typeOk : Ctx → Bool) (k : AccKind) (n : Nat) (addr : Ctx → Nat → Word)
    (run : Ctx → List Access → State × List (WTarget × Word)) : Host.Outcome State Fault Refusal :=
  issueOp s sh typeOk fun c => c.guarded sh <| c.redraw fun c =>
    let act := c.active
    let soft := c.softLanes sh.reads act
    let (as, fs) := c.gather k n (addr c) (lanesOf (act &&& ~~~soft))
    if c.overfull k as then c.nextFrame
    else
      let (s', ws) := run c as
      match c.watch k (c.watched s' k as) (lockedAt fs) with
      | some held => held
      | none =>
        let faults := sortFaults (fs ++ faultsOf .softError (lanesOf soft))
        c.completeLanes ({ c with s := c.brokenBy k s' as }.disarm soft) { sh with reads := sh.reads ++ c.guardReads } act ⟨ws, faults⟩

/-- The address of a load or store: Wrap32(V(A) + OpB) (11 R193). -/
def laneAddr (a : Field) (b : Src) (c : Ctx) (l : Nat) : Word := c.v a.toNat l + c.sb b

/-- Words of a byte list. -/
def wordsOf : List Byte → List Word
  | b0 :: b1 :: b2 :: b3 :: r => BitVec.ofNat 32 (leNat [b0, b1, b2, b3]) :: wordsOf r
  | _ => []

/-- Consecutive registers from n on. -/
def regRun (n k : Nat) : List Nat := (List.range k).map fun i => n + i

/-- A vector load of n bytes into k registers; conv makes their words of the bytes (11 R193). -/
def loadOp (s : State) (m : Bool) (d a : Field) (b : Src) (n k : Nat) (conv : List Byte → List Word) :
    Host.Outcome State Fault Refusal :=
  memOp s ⟨m, b.len, regRun d.toNat k ++ [a.toNat], a.toNat :: b.sregs⟩ anyType .load n (laneAddr a b) fun c as =>
    (c.s, (as.map fun x => laneWrites x.lane d.toNat (conv (c.s.loadBytes c.l c.ref x.place x.off x.n))).flatten)

/-- One word, zero-extended or sign-extended. -/
def extend (n : Nat) (signed : Bool) (bs : List Byte) : List Word := [BitVec.ofInt 32 (asInt (leNat bs) (8 * n) signed)]

/-- A vector store of n bytes from k registers, lowest first (11 R194). -/
def storeOp (s : State) (m : Bool) (d a : Field) (b : Src) (n k : Nat) : Host.Outcome State Fault Refusal :=
  memOp s ⟨m, b.len, regRun d.toNat k ++ [a.toNat], regRun d.toNat k ++ a.toNat :: b.sregs⟩ anyType .store n
    (laneAddr a b) fun c as =>
      (c.stores (as.map fun x => (x, ((regRun d.toNat k).map fun r => leBytes 4 (c.v r x.lane).toNat).flatten.take n)), [])

/-- A returning atomic: new gives the word written (11 R199). -/
def atomicOp (s : State) (m rd : Bool) (d a : Field) (b : Src) (typeOk : Ctx → Bool)
    (new : Ctx → Nat → Word → Word) : Host.Outcome State Fault Refusal :=
  memOp s (.vvv m rd d a b) typeOk .atomic 4 (fun c l => c.v a.toNat l) fun c as =>
    let (s', olds) := c.atomics as (new c)
    (s', olds.map fun o => (.v d.toNat o.1, o.2))

/-- A reduction (11 R202). -/
def redOp (s : State) (m : Bool) (a : Field) (b : Src) (typeOk : Ctx → Bool) (o : RedOp) : Host.Outcome State Fault Refusal :=
  memOp s ⟨m, b.len, a.toNat :: b.vregs, a.toNat :: b.vregs⟩ typeOk .red 4 (fun c l => c.v a.toNat l) fun c as =>
    (c.reductions as o fun l => c.vb b l, [])

/-- S32 or N32 (11 R202). -/
def wordTypes (c : Ctx) : Bool := decide (c.etype = 0) || decide (c.etype = 1)

/-- AFMIN and AFMAX: 06 R112 on elements, no status (11 R201). -/
def fpAtomicPick (larger : Bool) (c : Ctx) (old b : Word) : Word := fpAtomic c.etype (minmaxF larger) old b

/-! ### Scalar accesses (11 R196) -/

/-- A scalar access of the path at Wrap32(S(A) + OpB): a failing check faults the path; of a BSM word with a soft error
that it reads, each of its lanes faults (19 R283; notes/assumptions/45.md). -/
def scalarMem (s : State) (sh : Shape) (k : AccKind) (n : Nat) (a : Field) (b : Src)
    (run : Ctx → Access → State × List (WTarget × Word)) : Host.Outcome State Fault Refusal :=
  withCtx s fun c => c.sound sh <| c.redraw fun c =>
    let x := c.sr a.toNat + c.sb b
    match c.check k x n with
    | .error e => c.pathFault c.s e n x sh
    | .ok (pl, off) =>
      let acc : Access := ⟨lowestLane c.p.lanes, x, pl, off, n⟩
      if k ≠ .store ∧ c.s.softAt pl off n then c.softFault sh
      else if c.overfull k [acc] then c.nextFrame
      else
        let (s', ws) := run c acc
        match c.watch k (c.watched s' k [acc]) [] with
        | some held => held
        | none => c.complete (c.brokenBy k s' [acc]) sh c.active ws (c.next b.len)

/-- A scalar load of k words. -/
def scalarLoad (s : State) (m : Bool) (d a : Field) (b : Src) (k : Nat) : Host.Outcome State Fault Refusal :=
  scalarMem s ⟨m, b.len, [], sRd a :: b.sregs⟩ .load (4 * k) a b fun c x =>
    (c.s, ((wordsOf (c.s.loadBytes c.l c.ref x.place x.off x.n)).zipIdx d.toNat).map fun w => (.s w.2, w.1))

/-- A scalar store of k words. -/
def scalarStore (s : State) (m : Bool) (d a : Field) (b : Src) (k : Nat) : Host.Outcome State Fault Refusal :=
  scalarMem s ⟨m, b.len, [], sRd a :: b.sregs ++ (regRun d.toNat k).map (256 + ·)⟩ .store (4 * k) a b fun c x =>
    (c.stores [(x, ((regRun d.toNat k).map fun r => leBytes 4 (c.sr r).toNat).flatten)], [])

/-! ### WAITF (11 R205, R206) -/

/-- The six comparisons of WAITF on signed words. -/
def waitCmp (cmp : Nat) (w v : Word) : Bool :=
  match cmp with
  | 0 => decide (w = v)
  | 1 => decide (w ≠ v)
  | 2 => decide (w.toInt < v.toInt)
  | 3 => decide (w.toInt ≤ v.toInt)
  | 4 => decide (v.toInt < w.toInt)
  | _ => decide (v.toInt ≤ w.toInt)

/-- The registers that an issue of a WAITF reads: sA and sA + 1 at the first one, none at those that read the word again
with what it waits with (11 R205). -/
def Ctx.waitReads (c : Ctx) (a : Field) : List Nat := if c.p.waitOn.isNone then [sRd a, sRd a + 1] else []

/-- The reads of a WAITF from its first check on; x and v are what it waits with, sA, sA + 1 where it read them. -/
def Ctx.waitRead (c : Ctx) (m : Bool) (cmp : Nat) (a : Field) (x v t : Word) : State :=
  let sh : Shape := ⟨m, 8, [], c.waitReads a⟩
  let start := c.p.waitStart.getD c.s.time
  match c.check .load x 4 with
  | .error e => c.pathFault c.s e 4 x sh
  | .ok (pl, off) =>
    let acc : Access := ⟨lowestLane c.p.lanes, x, pl, off, 4⟩
    let w := c.s.loadWord c.l c.ref pl off
    if c.s.softAt pl off 4 then c.softFault sh
    else
      match c.watch .load (c.watched c.s .load [acc]) [] with
      | some held => held.updPath c.ref c.slot fun p => { p with waitStart := some start, park := .none }
      | none =>
        if waitCmp cmp w v then c.controlDone c.s sh none (c.next 8)
        else if t.toNat ≤ (c.s.time - start).toNat then c.pathFault c.s .waitTimeout 0 x sh
        else
          let s := c.traceHazards c.s c.active sh.reads []
          (s.updPath c.ref c.slot fun p => { p with
            waitStart := some start, waitOn := some (x, v), park := .waitf x (c.s.wokenAt pl c.ref c.slot)
            passed := false, starve := 0, starved := false }).bump

/-- WAITF (11 R205): in tripod mode it ends the frame before its first read (R206). -/
def execWaitf (m : Bool) (d a : Field) (lit : Word) (s : State) : Host.Outcome State Fault Refusal :=
  withCtx s fun c => c.frameFirst <| c.sound ⟨m, 8, [], c.waitReads a⟩ <| c.redraw fun c =>
    let (x, v) := c.p.waitOn.getD (c.sr a.toNat, c.sr (a.toNat + 1))
    c.waitRead m d.toNat a x v lit

/-- The word that a parked WAITF of a path waits for has been written since its last read (11 R205). -/
def Ctx.wordWritten (c : Ctx) (x : Word) (seen : Nat) : Bool :=
  match localPlace c.l c.ref.block x 4 with
  | some (pl, _) => decide (seen < c.s.wokenAt pl c.ref c.slot)
  | none => false

/-- WAITF_WAKE: the awaited word has been written, and the WAITF reads again (notes/assumptions/27.md). In tripod mode
commits wake it (11 R206). -/
def execWaitfWake (w : WarpRef) (slot : Bool) (s : State) : Host.Outcome State Fault Refusal :=
  match s.ctxAt? w slot with
  | none => .fault (.notEnabled "WAITF_WAKE")
  | some c =>
    match c.p.park with
    | .waitf x seen =>
      if c.l.record.tripod || !c.wordWritten x seen then .fault (.notEnabled "WAITF_WAKE")
      else .next (s.updPath w slot fun p => { p with park := .none })
    | _ => .fault (.notEnabled "WAITF_WAKE")

/-- The timeout literal of the WAITF at a PC. -/
def State.waitLimit (s : State) (l : Launch) (pc : Word) : Option Word :=
  match s.decodeAt l pc with
  | .instr (.waitf _ _ _ t) _ => some t
  | _ => none

/-- WAITF_TIMEOUT: CLK - start has reached the timeout; the path reads once more, and faults WAIT_TIMEOUT
unless the word satisfies it now (11 R205). A read that a watchpoint event holds is made when the WAITF issues
again. A warp that is stopped, saved, in a transfer, paused or held reads nothing until it runs. -/
def execWaitfTimeout (w : WarpRef) (slot : Bool) (s : State) : Host.Outcome State Fault Refusal :=
  match s.ctxAt? w slot with
  | none => .fault (.notEnabled "WAITF_TIMEOUT")
  | some c =>
    match c.p.park, s.decodeAt c.l c.p.pc, c.p.waitOn with
    | .waitf _ _, .instr (.waitf m d a t) _, some (x, v) =>
      if s.warpRuns c.w ∧ t.toNat ≤ (s.time - c.p.waitStart.getD s.time).toNat then .next (c.waitRead m d.toNat a x v t)
      else .fault (.notEnabled "WAITF_TIMEOUT")
    | _, _, _ => .fault (.notEnabled "WAITF_TIMEOUT")

/-! ### FENCE, FRAMEND, PUBLISH -/

/-- FENCE (11 R204): the path parks until its earlier accesses are performed at the scope; in tripod mode it
only retires. -/
def execFence (m : Bool) (s : State) : Host.Outcome State Fault Refusal :=
  withCtx s fun c =>
    if c.l.record.tripod then c.controlDone c.s ⟨m, 4, [], []⟩ none (c.next 4) else c.parkAt c.s .fence

/-- FENCE_COMPLETE: accesses are performed at issue, so the fence may end at any time. -/
def execFenceComplete (w : WarpRef) (slot : Bool) (s : State) : Host.Outcome State Fault Refusal :=
  match s.ctxAt? w slot with
  | none => .fault (.notEnabled "FENCE_COMPLETE")
  | some c => if c.p.park = .fence then .next (c.waitDone s 4) else .fault (.notEnabled "FENCE_COMPLETE")

/-- FRAMEND (11 R207): the last instruction of its frame; NOP outside tripod mode. -/
def execFramend (m : Bool) (s : State) : Host.Outcome State Fault Refusal :=
  withCtx s fun c =>
    let s := c.controlDone c.s ⟨m, 4, [], []⟩ none (c.next 4)
    if c.l.record.tripod then s.updWarp c.ref fun w => { w with frame := w.frame.finish } else s

/-- PUBLISH (11 R208): the window must be open and of the launch's world; the path waits until the image has
been replaced. -/
def execPublish (_m : Bool) (b : Src) (s : State) : Host.Outcome State Fault Refusal :=
  withCtx s fun c => c.frameFirst <|
    let v := c.sb b
    let n := bits v.toNat 15 0
    let sh : Shape := ⟨false, b.len, [], b.sregs⟩
    c.sound sh <| match tget (s.iface c.l.iface).windows n with
    | none => c.pathFault c.s .outOfRange 0 v sh
    | some x =>
      if x.world ≠ c.l.record.world then c.pathFault c.s .permission 0 0 sh
      else
        let s := c.traceHazards c.s c.active b.sregs []
        c.parkAt (s.updBlock c.ref.launch c.ref.block fun k => { k with ext := true }) (.publish n)

/-- The bytes of a window, read by the control die (10 R190). DESIGN CHOICE (notes/assumptions/19.md): where a page of
the window no longer translates, the image holds the bytes before it, and nothing faults. -/
def State.windowImage (s : State) (i : Nat) (x : Window) : Memory := writeBytes [] 0 (s.readVa none (s.mmu i) x.world x.va x.bytes).bytes

/-- PUBLISH_COMPLETE (10 R190): the image becomes the window's contents, then the version counter in host
memory advances by one. A window opened with ACK waits until the image it replaces, image 0 at first, is
acknowledged (27 R378). DESIGN CHOICE (notes/assumptions/19.md): where the window has been closed meanwhile, the PUBLISH
issues again, and faults OUT_OF_RANGE. A PUBLISH that a recovered die sends again is discarded, and only ends; the answer is
a message to the die (24 R351, R352). -/
def execPublishComplete (w : WarpRef) (slot : Bool) (s : State) : Host.Outcome State Fault Refusal :=
  match s.ctxAt? w slot with
  | none => .fault (.notEnabled "PUBLISH_COMPLETE")
  | some c =>
    match c.p.park with
    | .publish n =>
      match tget (s.iface c.l.iface).windows n with
      | none => .next (s.updPath w slot fun p => { p with park := .none })
      | some x =>
        match s.toControl c.b.die with
        | (false, s) => .next (c.waitDone s (decodedLen (s.decodeAt c.l c.p.pc)))
        | (true, s) =>
          if s.recovering || x.ack && decide (x.acked ≤ x.version) then .fault (.notEnabled "PUBLISH_COMPLETE")
          else
            let x' := { x with image := s.windowImage c.l.iface x, version := (x.version + 1) % 2 ^ 64 }
            let s := s.updIface c.l.iface fun f => { f with windows := tput f.windows n x' }
            let s := (s.writeHost x.counterPa (leBytes 8 x'.version)).notify c.b.die x.world 0
            .next (c.waitDone s (decodedLen (s.decodeAt c.l c.p.pc)))
    | _ => .fault (.notEnabled "PUBLISH_COMPLETE")

/-! ### Spill and fill (11 R198) -/

/-- VSPILL (11 R198): every lane of vA onto the spill stack; a lane with a soft error takes it along, and faults where it is
one of the path's (19 R283, R284). -/
def execVspill (m : Bool) (a : Field) (s : State) : Host.Outcome State Fault Refusal :=
  let sh : Shape := ⟨m, 4, [a.toNat], [a.toNat]⟩
  issueOp s sh anyType fun c =>
    let soft := c.softLanes [a.toNat] (BitVec.allOnes 32)
    if c.l.record.spill ≤ c.w.spill.length then c.pathFault c.s .spillOverflow 0 0 sh
    else
      let x := (List.range 32).map fun l => c.v a.toNat l
      let marks (w : Warp) : List (Nat × Nat) :=
        (w.spillSoft.filter fun e => decide (e.1 ≠ w.spill.length)) ++ (lanesOf soft).map fun l => (w.spill.length, l)
      let s := (c.disarm soft).updWarp c.ref fun w => { w with spill := x :: w.spill, spillSoft := marks w }
      c.completeLanes s sh c.active ⟨[], faultsOf .softError (lanesOf (soft &&& c.p.lanes))⟩

/-- VFILL (11 R198): the top of the spill stack into the Active lanes of vD; a lane whose slot has a soft error faults
(19 R283). -/
def execVfill (m : Bool) (d : Field) (s : State) : Host.Outcome State Fault Refusal :=
  let sh : Shape := ⟨m, 4, [d.toNat], []⟩
  issueOp s sh anyType fun c =>
    match c.w.spill with
    | [] => c.pathFault c.s .spillUnderflow 0 0 sh
    | x :: r =>
      c.guarded sh <|
      let soft := maskOf ((c.w.spillSoft.filter fun e => decide (e.1 = r.length)).map Prod.snd) &&& c.active
      c.completeLanes (c.s.updWarp c.ref fun w => { w with spill := r }) { sh with reads := c.guardReads } c.active
        ⟨(lanesOf (c.active &&& ~~~soft)).map fun l => (WTarget.v d.toNat l, x.getD l 0), faultsOf .softError (lanesOf soft)⟩

/-! ### The loads, stores, atomics and reductions -/

/-- LD8: a byte, zero-extended (11 R193). -/
def execLd8 (m : Bool) (d a : Field) (b : Src) (s : State) : Host.Outcome State Fault Refusal :=
  loadOp s m d a b 1 1 (extend 1 false)

/-- LD8S: a byte, sign-extended (11 R193). -/
def execLd8s (m : Bool) (d a : Field) (b : Src) (s : State) : Host.Outcome State Fault Refusal :=
  loadOp s m d a b 1 1 (extend 1 true)

/-- LD16: a half, zero-extended (11 R193). -/
def execLd16 (m : Bool) (d a : Field) (b : Src) (s : State) : Host.Outcome State Fault Refusal :=
  loadOp s m d a b 2 1 (extend 2 false)

/-- LD16S: a half, sign-extended (11 R193). -/
def execLd16s (m : Bool) (d a : Field) (b : Src) (s : State) : Host.Outcome State Fault Refusal :=
  loadOp s m d a b 2 1 (extend 2 true)

/-- LD32: a word (11 R193). -/
def execLd32 (m : Bool) (d a : Field) (b : Src) (s : State) : Host.Outcome State Fault Refusal :=
  loadOp s m d a b 4 1 wordsOf

/-- LD64: two words into vD, vD+1 (11 R193). -/
def execLd64 (m : Bool) (d a : Field) (b : Src) (s : State) : Host.Outcome State Fault Refusal :=
  loadOp s m d a b 8 2 wordsOf

/-- LD128: four words into vD to vD+3 (11 R193). -/
def execLd128 (m : Bool) (d a : Field) (b : Src) (s : State) : Host.Outcome State Fault Refusal :=
  loadOp s m d a b 16 4 wordsOf

/-- LDACQ32 (11 R197): LD32 as an acquire. -/
def execLdacq32 (m : Bool) (d a : Field) (b : Src) (s : State) : Host.Outcome State Fault Refusal :=
  loadOp s m d a b 4 1 wordsOf

/-- ST8: the low 1 byte of vD (11 R194). -/
def execSt8 (m : Bool) (d a : Field) (b : Src) (s : State) : Host.Outcome State Fault Refusal :=
  storeOp s m d a b 1 1

/-- ST16: the low 2 bytes of vD (11 R194). -/
def execSt16 (m : Bool) (d a : Field) (b : Src) (s : State) : Host.Outcome State Fault Refusal :=
  storeOp s m d a b 2 1

/-- ST32: the low 4 bytes of vD (11 R194). -/
def execSt32 (m : Bool) (d a : Field) (b : Src) (s : State) : Host.Outcome State Fault Refusal :=
  storeOp s m d a b 4 1

/-- ST64: the low 8 bytes of vD to vD+1 (11 R194). -/
def execSt64 (m : Bool) (d a : Field) (b : Src) (s : State) : Host.Outcome State Fault Refusal :=
  storeOp s m d a b 8 2

/-- ST128: the low 16 bytes of vD to vD+3 (11 R194). -/
def execSt128 (m : Bool) (d a : Field) (b : Src) (s : State) : Host.Outcome State Fault Refusal :=
  storeOp s m d a b 16 4

/-- STREL32 (11 R197): ST32 as a release. -/
def execStrel32 (m : Bool) (d a : Field) (b : Src) (s : State) : Host.Outcome State Fault Refusal :=
  storeOp s m d a b 4 1

/-- SLD32 (11 R196). -/
def execSld32 (m : Bool) (d a : Field) (b : Src) (s : State) : Host.Outcome State Fault Refusal :=
  scalarLoad s m d a b 1

/-- SLD64 (11 R196). -/
def execSld64 (m : Bool) (d a : Field) (b : Src) (s : State) : Host.Outcome State Fault Refusal :=
  scalarLoad s m d a b 2

/-- SST32 (11 R196). -/
def execSst32 (m : Bool) (d a : Field) (b : Src) (s : State) : Host.Outcome State Fault Refusal :=
  scalarStore s m d a b 1

/-- SST64 (11 R196). -/
def execSst64 (m : Bool) (d a : Field) (b : Src) (s : State) : Host.Outcome State Fault Refusal :=
  scalarStore s m d a b 2

/-- AADD: Wrap32(old + b) (11 R200). -/
def execAadd (m : Bool) (d a : Field) (b : Src) (s : State) : Host.Outcome State Fault Refusal :=
  atomicOp s m false d a b anyType fun c l old => old + c.vb b l

/-- AAND: old AND b (11 R200). -/
def execAand (m : Bool) (d a : Field) (b : Src) (s : State) : Host.Outcome State Fault Refusal :=
  atomicOp s m false d a b anyType fun c l old => old &&& c.vb b l

/-- AOR: old OR b (11 R200). -/
def execAor (m : Bool) (d a : Field) (b : Src) (s : State) : Host.Outcome State Fault Refusal :=
  atomicOp s m false d a b anyType fun c l old => old ||| c.vb b l

/-- AXOR: old XOR b (11 R200). -/
def execAxor (m : Bool) (d a : Field) (b : Src) (s : State) : Host.Outcome State Fault Refusal :=
  atomicOp s m false d a b anyType fun c l old => old ^^^ c.vb b l

/-- AMIN: the smaller, signed (11 R200). -/
def execAmin (m : Bool) (d a : Field) (b : Src) (s : State) : Host.Outcome State Fault Refusal :=
  atomicOp s m false d a b anyType fun c l old => minS old (c.vb b l)

/-- AMAX: the larger, signed (11 R200). -/
def execAmax (m : Bool) (d a : Field) (b : Src) (s : State) : Host.Outcome State Fault Refusal :=
  atomicOp s m false d a b anyType fun c l old => maxS old (c.vb b l)

/-- AMINN: the smaller, unsigned (11 R200). -/
def execAminn (m : Bool) (d a : Field) (b : Src) (s : State) : Host.Outcome State Fault Refusal :=
  atomicOp s m false d a b anyType fun c l old => minU old (c.vb b l)

/-- AMAXN: the larger, unsigned (11 R200). -/
def execAmaxn (m : Bool) (d a : Field) (b : Src) (s : State) : Host.Outcome State Fault Refusal :=
  atomicOp s m false d a b anyType fun c l old => maxU old (c.vb b l)

/-- AEXCH: b (11 R200). -/
def execAexch (m : Bool) (d a : Field) (b : Src) (s : State) : Host.Outcome State Fault Refusal :=
  atomicOp s m false d a b anyType fun c l _ => c.vb b l

/-- ACAS: b when old is the compare value V(D), else old (11 R200). -/
def execAcas (m : Bool) (d a : Field) (b : Src) (s : State) : Host.Outcome State Fault Refusal :=
  atomicOp s m true d a b anyType fun c l old => if old = c.v d.toNat l then c.vb b l else old

/-- AFADD: the sum under RNE (11 R201). -/
def execAfadd (m : Bool) (d a : Field) (b : Src) (s : State) : Host.Outcome State Fault Refusal :=
  atomicOp s m false d a b fpTypes fun c l old => fpAtomicAdd c.etype old (c.vb b l)

/-- AFMIN: as VFMIN (11 R201). -/
def execAfmin (m : Bool) (d a : Field) (b : Src) (s : State) : Host.Outcome State Fault Refusal :=
  atomicOp s m false d a b fpTypes fun c l old => fpAtomicPick false c old (c.vb b l)

/-- AFMAX: as VFMAX (11 R201). -/
def execAfmax (m : Bool) (d a : Field) (b : Src) (s : State) : Host.Outcome State Fault Refusal :=
  atomicOp s m false d a b fpTypes fun c l old => fpAtomicPick true c old (c.vb b l)

/-- REDADD (11 R202). -/
def execRedadd (m : Bool) (a : Field) (b : Src) (s : State) : Host.Outcome State Fault Refusal :=
  redOp s m a b anyType .add

/-- REDAND (11 R202). -/
def execRedand (m : Bool) (a : Field) (b : Src) (s : State) : Host.Outcome State Fault Refusal :=
  redOp s m a b anyType .and

/-- REDOR (11 R202). -/
def execRedor (m : Bool) (a : Field) (b : Src) (s : State) : Host.Outcome State Fault Refusal :=
  redOp s m a b anyType .or

/-- REDXOR (11 R202). -/
def execRedxor (m : Bool) (a : Field) (b : Src) (s : State) : Host.Outcome State Fault Refusal :=
  redOp s m a b anyType .xor

/-- REDMIN (11 R202). -/
def execRedmin (m : Bool) (a : Field) (b : Src) (s : State) : Host.Outcome State Fault Refusal :=
  redOp s m a b wordTypes .min

/-- REDMAX (11 R202). -/
def execRedmax (m : Bool) (a : Field) (b : Src) (s : State) : Host.Outcome State Fault Refusal :=
  redOp s m a b wordTypes .max

/-- REDFADD (11 R202). -/
def execRedfadd (m : Bool) (a : Field) (b : Src) (s : State) : Host.Outcome State Fault Refusal :=
  redOp s m a b fpTypes .fadd

end Sys2Proof.Machine
end

