-- ==== Sys2Proof/Machine/Engine.lean ====
section
/-! DEFINITION. Engine operations: batches, range-lock entries, the order of a warp's operations, how an
operation begins and ends (10 R182, R183; 13 R214 to R217; 16 R258 to R262). -/

namespace Sys2Proof.Machine

/-! ### Batch numbers (13 R215) -/

/-- BATCH and BDONE. -/
def Warp.batch (w : Warp) : Nat := w.closes % 65536
def Warp.bdone (w : Warp) : Nat := w.doneCloses % 65536

/-- (a - b) mod 2^16. -/
def sub16 (a b : Nat) : Nat := (a + 65536 - b % 65536) % 65536

/-- A batch number that lies ahead of BATCH. -/
def Warp.ahead (w : Warp) (n : Nat) : Bool := decide (1 ≤ sub16 n w.batch) && decide (sub16 n w.batch ≤ 2 ^ 15 - 1)

/-- BCLOSE must wait. -/
def Warp.closeFull (w : Warp) : Bool := decide (sub16 w.batch w.bdone = 2 ^ 15 - 1)

/-- How many closes the batches up to a passed number n cover; 0 when n names none (13 R215). -/
def Warp.upTo (w : Warp) (n : Nat) : Nat := w.closes - sub16 w.batch n

/-- BDONE has reached a batch number: the batch it names, if any, has completed. DEDUCED: the comparison of
16 R260, and R215's rule for a number that names no batch (notes/assumptions/15.md). -/
def Warp.reached (w : Warp) (n : Nat) : Bool := decide (w.upTo n ≤ w.doneCloses)

/-- Batch errors that no WAITB has reported, in the batches up to n. -/
def Warp.errorsUpTo (w : Warp) (n : Nat) : List BatchError := w.errors.filter fun e => decide (e.closeNo ≤ w.upTo n) || e.atNext

/-- The earliest error of a list in issue order. -/
def firstError : List BatchError → Option BatchError
  | [] => none
  | e :: r =>
    match firstError r with
    | none => some e
    | some x => if x.op < e.op then some x else some e

/-! ### What operations touch -/

/-- Whether an operation is a command of the 64 that may be pending (13 R214, 16 R270). -/
def Work.isCommand : Work → Bool
  | .copy _ => true
  | .relab _ _ => true
  | .step _ _ => true
  | _ => false

/-- Fields of the copy command words (13 R218). -/
def Staging.kind (w : Staging) : Nat := bits w.w0.toNat 3 0
def Staging.rows (w : Staging) : Nat := bits w.w0.toNat 63 48
def Staging.rowLen (w : Staging) : Nat := bits w.w0.toNat 31 12
def Staging.aop (w : Staging) : Nat := bits w.w0.toNat 39 32
def Staging.esz (w : Staging) : Nat := bits w.w0.toNat 11 10
def Staging.noret (w : Staging) : Bool := w.w0.getLsbD 8
def Staging.filter (w : Staging) : Bool := w.w0.getLsbD 7
def Staging.sealed (w : Staging) : Bool := w.w0.getLsbD 6
def Staging.scale (w : Staging) : Bool := w.w0.getLsbD 5
def Staging.expand (w : Staging) : Bool := w.w0.getLsbD 4
def Staging.src (w : Staging) : Nat := w.w1.toNat
def Staging.dst (w : Staging) : Nat := w.w2.toNat
def Staging.spitch (w : Staging) : Nat := bits w.w3.toNat 31 0
def Staging.dpitch (w : Staging) : Nat := bits w.w3.toNat 63 32

/-- Bytes of a source row: kept values and metadata under EXPAND24 (13 R220). -/
def Staging.srcRow (w : Staging) : Nat :=
  if w.expand then w.rowLen / 2 + w.rowLen / (8 * (w.esz + 1)) else w.rowLen

/-- Groups of a row under EXPAND24. -/
def Staging.groups (w : Staging) : Nat := w.rowLen / (4 * (w.esz + 1))

/-- From the first byte to the last (13 R219). -/
def Staging.srcExtent (w : Staging) : Nat := (w.rows - 1) * w.spitch + w.srcRow
def Staging.dstExtent (w : Staging) : Nat := (w.rows - 1) * w.dpitch + w.rowLen

/-- First slot and count of the slots an operation names; N and K slots of a descriptor (14 R229). -/
def descSbase (d : Word) : Nat := bits d.toNat 5 0
def descKs (d : Word) : Nat := bits d.toNat 9 7 + 1
def descNs (d : Word) : Nat := bits d.toNat 11 10 + 1
def descKoff (d : Word) : Nat := bits d.toNat 17 12
def descLayer (d : Word) : Nat := bits d.toNat 25 18
def descScb (d : Word) : Nat := bits d.toNat 31 26

/-- Fields of a format slot (05 R86). -/
def slotA (f : BitVec 128) : Nat := bits f.toNat 3 0
def slotB (f : BitVec 128) : Nat := bits f.toNat 7 4
def slotAcc (f : BitVec 128) : Bool := f.getLsbD 8
def slotOut (f : BitVec 128) : Nat := bits f.toNat 15 12
def slotScale (f : BitVec 128) : Nat := bits f.toNat 18 16
def slotScaleBf (f : BitVec 128) : Bool := f.getLsbD 19
def slotFd (f : BitVec 128) : Nat := bits f.toNat 23 20
def slotFu (f : BitVec 128) : Nat := bits f.toNat 27 24
def slotRed (f : BitVec 128) : Bool := f.getLsbD 28

/-- Bytes of a slice and of its D part. -/
def sliceD (f : BitVec 128) : Nat := 2048 * (elemWidth (slotFd f) / 8)
def sliceBytes (f : BitVec 128) : Nat := sliceD f + 2048 * (elemWidth (slotFu f) / 8)

/-- The slices of a row's filter term: k-block, n-block, half. -/
def MmaJob.slices (j : MmaJob) (rank32 : Bool) : List (Nat × Nat × Nat) :=
  ((List.range (descNs j.desc)).map fun nb =>
    ((List.range (if rank32 then 2 else 1)).map fun h =>
      (List.range (descKs j.desc)).map fun i => (descKoff j.desc + i, nb, h)).flatten).flatten

/-- The VA of a slice (14 R238). -/
def sliceVa (f : BitVec 128) (la : Latch) (k : Nat × Nat × Nat) : Nat :=
  la.layerBase + ((k.1 * 256 + k.2.1) * (if la.rank32 then 2 else 1) + k.2.2) * sliceBytes f

/-- The slices that the filter terms of an MMA read. -/
def MmaJob.sliceRanges (j : MmaJob) (f : BitVec 128) : List (Nat × Nat) :=
  ((j.latches.getD []).map fun la =>
    if la.bad.isSome then [] else (j.slices la.rank32).map fun k => (sliceVa f la k, sliceBytes f)).flatten

/-- Whether a type is of 16 bits. -/
def wide16 (t : Nat) : Bool := decide (t = 7) || decide (t = 8)

/-- Slots per tile (14 R229). -/
def tileSlots (t : Nat) : Nat := if wide16 t then 2 else 1

/-- The format slot of a launch. -/
def LaunchRecord.fslot (r : LaunchRecord) (n : Nat) : BitVec 128 := (r.slots[n]?).getD 0

/-- Main-memory ranges of an operation, by VA. -/
def Work.mainRanges (r : LaunchRecord) : Work → List (Nat × Nat)
  | .copy w =>
    if w.sealed then [(w.src, w.rowLen), (w.w3.toNat, w.rowLen / 256)]
    else if w.kind = 5 then [(w.dst, 8)]
    else (if w.kind = 2 ∨ w.kind = 4 then [(w.src, w.srcExtent)] else []) ++
      (if w.kind = 3 ∨ w.kind = 4 then [(w.dst, w.dstExtent)] else [])
  | .step _ w =>
    let n := bits w.w0.toNat 63 32
    (if w.src = 0 then [] else [(w.src, 4 * n)]) ++ (if w.dst = 0 then [] else [(w.dst, 4 * n)])
  | .mma j => j.sliceRanges (r.fslot j.fslot)
  | _ => []

/-- An MMA that has yet to read the filter table. -/
def Work.unread : Work → Bool
  | .mma j => j.latches.isNone
  | _ => false

/-- Slots that an operation names. -/
def Work.slots (r : LaunchRecord) : Work → List Nat
  | .mload n word =>
    (List.range (tileSlots (slotB (r.fslot (bits word.toNat 2 0))))).map fun i => n + i
  | .mma j => (List.range (tileSlots (slotB (r.fslot j.fslot)) * descKs j.desc * descNs j.desc)).map fun i =>
      descSbase j.desc + i
  | _ => []

/-- Strips that an operation names. -/
def Work.strips : Work → List Nat
  | .mma j => (List.range (descNs j.desc)).map fun i => j.acc + i
  | .mzero n => [n]
  | .mdrain n _ _ _ => [n]
  | _ => []

/-- Two lists share an element. -/
def meet (a b : List Nat) : Bool := a.any fun x => b.contains x

/-- Two lists of ranges share a byte. -/
def rangesMeet (a b : List (Nat × Nat)) : Bool := a.any fun x => b.any fun y => overlaps x.1 x.2 y.1 y.2

/-- Two lists of locks share a byte. -/
def locksMeet (a b : List Lock) : Bool :=
  a.any fun x => b.any fun y => decide (x.place = y.place) && overlaps x.lo x.len y.lo y.len

/-- Whether a SCALE copy and an MMA of one warp are ordered (14 R225). -/
def scaleMeet (a b : Work) : Bool :=
  match a, b with
  | .copy w, .mma _ => w.scale
  | .copy w, .copy v => w.scale && v.scale
  | .mma _, .copy w => w.scale
  | _, _ => false

/-- The local ranges of an operation, an MMA's unposted ones included. -/
def EngineOp.allLocks (o : EngineOp) : List Lock :=
  o.locks ++ (match o.work with | .mma j => j.unposted.map Prod.snd | _ => [])

/-- The entries of a table that a walk may use for a VA: the present one, and those read before (09 R170). -/
def State.entriesAt (s : State) (i : Mmu) (level va table : Nat) : List Nat :=
  if s.tableOk i table then s.tableEntry i table (va / 2 ^ levelShift level % 4096) :: s.readBefore i.iface level va table else []

/-- The leaves that an access of a die may use for a VA until an invalidation completes: those of its cache and of the
walks (09 R170). -/
def State.leavesAt (s : State) (d : Nat) (i : Mmu) (va : Nat) : List Walk :=
  ((s.cachedLeaf d i.iface va).map fun e => Walk.leaf e.leaf.toNat e.big).toList ++
  ((s.entriesAt i 0 va i.table).map fun e0 =>
    if !isTableEntry e0 then []
    else ((s.entriesAt i 1 va (entryPa e0)).map fun e1 =>
      if !isTableEntry e1 then [s.leafOf i true e1]
      else (s.entriesAt i 2 va (entryPa e1)).map fun e2 => s.leafOf i false e2).flatten).flatten

/-- The bytes that ranges of an operation may take in physical memory. -/
def State.physRanges (s : State) (o : EngineOp) (rs : List (Nat × Nat)) : List (Nat × Nat) :=
  ((rs.map fun x => pieces x.1 x.2).flatten.map fun p =>
    (s.leavesAt (s.dieOf o.ref) o.mmu p.1).filterMap fun w =>
      match w with
      | .leaf e big => some (s.leafAddr o.mmu e big p.1, p.2)
      | _ => none).flatten

/-- Whether the main-memory accesses of two operations meet, under whatever VAs (10 R182 item 2). What an MMA reads of
the filter table is not known before it has read it. -/
def State.mainMeet (s : State) (l : Launch) (a b : EngineOp) : Bool :=
  let ra := a.work.mainRanges l.record
  let rb := b.work.mainRanges l.record
  (a.work.unread && decide (rb ≠ [])) || (b.work.unread && decide (ra ≠ [])) ||
  (decide (ra ≠ []) && decide (rb ≠ []) && (rangesMeet ra rb || rangesMeet (s.physRanges a ra) (s.physRanges b rb)))

/-- Whether two operations of a warp must perform in issue order (10 R182 item 2, 14 R225, 25 R359). -/
def State.opsMeet (s : State) (l : Launch) (a b : EngineOp) : Bool :=
  locksMeet a.allLocks b.allLocks || s.mainMeet l a b ||
  meet (a.work.slots l.record) (b.work.slots l.record) || meet a.work.strips b.work.strips || scaleMeet a.work b.work ||
  (match a.work, b.work with | .step _ _, .step _ _ => true | _, _ => false)

/-- Whether an operation may perform now: it has registered its ranges, every earlier operation of its
warp that it is ordered after has finished, and no recovering die keeps its main-memory accesses waiting. -/
def State.mayPerform (s : State) (l : Launch) (o : EngineOp) : Bool :=
  o.posted && !o.finished && (decide (o.work.mainRanges l.record = []) || !s.recovering) &&
  s.x.ops.all fun e => !(decide (e.ref = o.ref) && decide (e.id < o.id) && !e.finished && s.opsMeet l e o)

/-! ### Range-lock entries (10 R183) -/

/-- The core key of a warp's block. -/
def Block.coreKey (b : Block) : Nat := State.coreKey b.die b.site b.core

/-- Entries of a core that pending operations hold. -/
def State.rltUsed (s : State) (core : Nat) : Nat :=
  ((s.x.ops.filter fun o => o.posted && !o.finished).map fun o =>
    (o.locks.filter fun z => decide (z.core = core)).length).foldl (· + ·) 0

/-- Whether n more entries fit. -/
def State.rltRoom (s : State) (core n : Nat) : Bool := decide (s.rltUsed core + n ≤ Config.rltPerCore)

/-- A lock on n bytes at a local address; none when the range breaks 09 R161. -/
def Ctx.lockAt (c : Ctx) (x : Word) (n : Nat) (dest : Bool) : Option Lock :=
  (localPlace c.l c.ref.block x n).map fun p => ⟨x, p.1, p.2, n, dest, c.b.coreKey⟩

/-! ### Beginning an operation -/

/-- Whether a command is a compare-and-swap on main memory (13 R221). -/
def Work.isCas : Work → Bool
  | .copy w => decide (w.kind = 5) && decide (w.aop = 9)
  | _ => false

/-- What an operation holds of local memory from its issue on: in tripod mode the warp's view of its source
ranges and of a RELAB's values (13 R222, 15 R254), and the compare value of a compare-and-swap, which lies where the old word will land
(13 R221). -/
def Ctx.snapshot (c : Ctx) (s : State) (work : Work) (locks : List Lock) : List BufEntry :=
  let keep (z : Lock) : BufEntry := .store z.place z.lo (s.loadBytes c.l c.ref z.place z.lo z.len)
  let read (z : Lock × Nat) : Bool := !z.1.dest || (match work with | .relab _ _ => decide (z.2 = 2) | _ => false)
  if work.isCas then locks.map keep
  else if !c.l.record.tripod then []
  else (locks.zipIdx.filter read).map fun z => keep z.1

/-- The lanes of a warp that have not exited. -/
def Warp.liveLanes (w : Warp) : LaneMask := ~~~w.exited

/-- The loupe core and slot of a warp that runs on one, with its transfer number. -/
def Warp.transfer? (w : Warp) : Option (Nat × Nat × Nat) := w.onLoupe?.map fun x => (x.1, x.2, w.loupe.tseq)

/-- A new operation of the issuing path, in its open batch. -/
def Ctx.newOp (c : Ctx) (s : State) (work : Work) (locks : List Lock) (posted : Bool) : EngineOp where
  id := s.nextOp
  ref := c.ref
  closeNo := c.w.closes + 1
  pc := c.p.pc
  mask := c.w.liveLanes
  work := work
  locks := locks
  stage := .held
  posted := posted
  finished := false
  err := none
  pendingWrites := []
  view := c.snapshot s work locks
  mmu := s.mmu c.l.iface
  ftbase := (s.iface c.l.iface).ftbase
  lcore := c.w.transfer?

/-- Add an operation to the pending ones. -/
def State.addOp (s : State) (o : EngineOp) : State := { s with nextOp := s.nextOp + 1, x := { s.x with ops := s.x.ops ++ [o] } }

/-- An engine operation that is refused at issue: it joins the open batch and completes it in error
(13 R214). -/
def Ctx.failOp (c : Ctx) (s : State) (k : FaultKind) (addr : Word) : State :=
  let e : BatchError := ⟨c.w.closes + 1, s.nextOp, k, addr, c.p.pc, c.w.liveLanes, [], false⟩
  { s with nextOp := s.nextOp + 1 }.updWarp c.ref fun w => { w with errors := w.errors ++ [e] }

/-- The instruction that issued an operation completes. -/
def Ctx.issued (c : Ctx) (s : State) (sh : Shape) : State := c.complete s sh c.active [] (c.next sh.len)

/-- Issue a valid operation: it starts when its ranges are registered, else the path waits at the
instruction (16 R258). An operation that writes the scratchpad or main memory sets the external-write flag
(19 R291). -/
def Ctx.issueOp (c : Ctx) (s : State) (sh : Shape) (work : Work) (locks : List Lock) (external : Bool) : State :=
  let s := if external then s.updBlock c.ref.launch c.ref.block fun b => { b with ext := true } else s
  if s.rltRoom c.b.coreKey locks.length then c.issued (s.addOp (c.newOp s work locks true)) sh
  else
    let o := c.newOp s work locks false
    c.parkAt (c.traceHazards (s.addOp o) c.active sh.reads []) (.rlt o.id)

/-- An instruction that issues an operation: refused with a kind and address, or begun when the warp's earlier splice
operations have been applied (10 R182 item 1, 16 R268). -/
def Ctx.engineIssue (c : Ctx) (sh : Shape) (work : Work) (external : Bool)
    (v : Except (FaultKind × Word) (List Lock)) : State :=
  c.sound sh <| c.drained (match v with
    | .error (k, a) => c.issued (c.failOp c.s k a) sh
    | .ok locks => c.issueOp c.s sh work locks external)

/-- A destination lies in the scratchpad. -/
def spadDest (locks : List Lock) : Bool :=
  locks.any fun z => z.dest && (match z.place with | .spad _ _ => true | _ => false)

/-! ### Waits that end -/

/-- End a park whose instruction issues again. -/
def Path.unpark (p : Path) (k : Park) : Path := if p.park = k then { p with park := .none } else p

/-- End a park of both live paths. -/
def State.unpark (s : State) (r : WarpRef) (k : Park) : State :=
  s.updWarp r fun w => { w with p0 := w.p0.map fun p => p.unpark k, p1 := w.p1.map fun p => p.unpark k }

/-- A path whose batches BDONE has reached, or that waits for BCLOSE's room where there is some, issues again
(13 R215, R216). -/
def Path.wakeBatch (w : Warp) (p : Path) : Path :=
  match p.park with
  | .batch n => if w.reached n then { p with park := .none } else p
  | .closeRoom => if w.closeFull then p else { p with park := .none }
  | _ => p

/-- The batch numbers of a warp have moved. -/
def State.wakeBatches (s : State) (r : WarpRef) : State :=
  s.updWarp r fun w => { w with p0 := w.p0.map (Path.wakeBatch w), p1 := w.p1.map (Path.wakeBatch w) }

/-- Operations other than MMAs that wait for entries of a core register while there is room, in issue
order. -/
def State.registerWaiting (s : State) (core : Nat) : List EngineOp → State
  | [] => s
  | o :: r =>
    if !o.posted && (o.locks.all fun z => decide (z.core = core)) && s.rltRoom core o.locks.length then
      ((s.updOp o.id fun x => { x with posted := true }).endWaits o.ref (.rlt o.id)).registerWaiting core r
    else s.registerWaiting core r

/-! ### The requests of an MMA (14 R231) -/

/-- The entries of an MRT in use: waiting requests and those of passes. -/
def MatrixEngine.mrtUsed (e : MatrixEngine) : Nat :=
  e.mrt.length + (e.passes.map fun p => p.quarters.length).foldl (· + ·) 0

/-- The lanes of quarter q. -/
def quarterLanes (q : Nat) : LaneMask := BitVec.ofNat 32 (0xFF * 2 ^ (8 * q))

/-- The quarters of an MMA that have not been posted. -/
def EngineOp.unposted (o : EngineOp) : List (Nat × Lock) :=
  match o.work with
  | .mma j => j.unposted
  | _ => []

/-- The first unposted quarter of an MMA is registered: it waits for the MRT alone (16 R264). -/
def EngineOp.registered (o : EngineOp) : Bool := (o.unposted.head?.map fun x => o.locks.contains x.2).getD true

/-- Post the first unposted quarter, whose range is registered: its request waits in the MRT. -/
def State.postQuarter (s : State) (l : Launch) (b : Block) (o : EngineOp) (j : MmaJob) (q : Nat) : State :=
  let s := s.updOp o.id fun x => { x with work := .mma { j with unposted := j.unposted.tail } }
  s.updEngine b.die b.site fun e => { e with mrt := e.mrt ++ [⟨o.id, q, j.rows &&& quarterLanes q, l.record.prio, s.time⟩] }

/-- Post an MMA's quarters in ascending order: each is registered when the core's RLT has room, and then posted when the
MRT has (16 R264). The first number bounds the steps. -/
def State.postQuarters (s : State) (l : Launch) (b : Block) : Nat → Nat → State
  | 0, _ => s
  | n + 1, id =>
    match s.op? id with
    | none => s
    | some o =>
      match o.work with
      | .mma j =>
        match j.unposted with
        | [] => s
        | (q, z) :: _ =>
          if !o.locks.contains z then
            if s.rltRoom z.core 1 then
              State.postQuarters (s.updOp id fun x => { x with locks := x.locks ++ [z] }) l b n id
            else s
          else if (s.engine b.die b.site).mrtUsed + 1 ≤ Config.mrtEntries then (s.postQuarter l b o j q).postQuarters l b n id
          else s
      | _ => s

/-- A path parked at an instruction is to fault when it has gone on. -/
def Path.faultsAfter (k : Park) (e : LateFault) (p : Path) : Path := if p.park = k then { p with late := p.late ++ [e] } else p

/-- The lanes of a waiting MMA whose FVEC word held a soft error fault when its instruction completes (19 R283, R284). -/
def State.softMma (s : State) (o : EngineOp) (soft : LaneMask) : State :=
  if soft = 0 then s
  else
    let f := Path.faultsAfter (.mrt o.id) ⟨o.pc, .lane, .softError, faultsOf .softError (lanesOf soft), soft⟩
    s.updWarp o.ref fun w => { w with
      p0 := w.p0.map f, p1 := w.p1.map f, frozen := w.frozen.map fun z => { z with p0 := z.p0.map f, p1 := z.p1.map f } }

/-- The lanes of an operation's MMA that are to fault. -/
def EngineOp.softRows (o : EngineOp) : LaneMask :=
  match o.work with
  | .mma j => j.soft
  | _ => 0

/-- An MMA that waits posts what it can; when all is posted its instruction retires. -/
def State.postWaitingMma (s : State) (o : EngineOp) : State :=
  match s.launch? o.ref.launch, s.block? o.ref.launch o.ref.block with
  | some l, some b =>
    let s := s.postQuarters l b 8 o.id
    if ((s.op? o.id).map EngineOp.unposted).getD [] = [] then (s.softMma o o.softRows).endWaits o.ref (.mrt o.id) else s
  | _, _ => s

/-- Every MMA that waits posts what it can, in issue order. -/
def State.postWaiting (s : State) : List EngineOp → State
  | [] => s
  | o :: r => if o.unposted = [] then s.postWaiting r else (s.postWaitingMma o).postWaiting r

/-! ### Ending an operation -/

/-- An operation finishes: its ranges are released (in tripod mode when its WAITB and commit allow,
10 R188), an error joins the warp's unreported ones, waiting paths and commands go on; an error that the
ended warp can no longer report is recorded (13 R217). -/
def State.finishOp (s : State) (id : Nat) (err : Option BatchError) : State :=
  match s.op? id with
  | none => s
  | some o =>
    let tripod := ((s.launch? o.ref.launch).map fun l => l.record.tripod).getD false
    let s := if tripod then s.updOp id fun o => { o with finished := true }
      else { s with x := { s.x with ops := s.x.ops.filter fun x => decide (x.id ≠ id) } }
    let s := match err with
      | none => s
      | some e => s.updWarp o.ref fun w => { w with errors := w.errors ++ [e] }
    let s := if o.work.isCommand then s.unpark o.ref .room else s
    let s := match s.block? o.ref.launch o.ref.block with
      | some b => s.registerWaiting b.coreKey s.x.ops
      | none => s
    let s := s.postWaiting s.x.ops
    match s.warp? o.ref with
    | some w => if w.ended then s.reportBatches o.ref [o.closeNo] else s
    | none => s

/-- An error of an operation. -/
def EngineOp.error (o : EngineOp) (k : FaultKind) (addr : Nat) : BatchError :=
  ⟨o.closeNo, o.id, k, BitVec.ofNat 32 addr, o.pc, o.mask, [], false⟩

/-! ### Local memory as engines use it (13 R222) -/

/-- Bytes of a place as an operation reads them: its view at issue under tripod, else memory. -/
def State.opRead (s : State) (l : Launch) (o : EngineOp) (pl : Place) (off n : Nat) : List Byte :=
  if l.record.tripod then applyBuf pl off (s.blockView l o.ref.block pl off n) o.view else s.readPlace pl off n

/-- Write bytes as an operation; what they spoil of bound forests is remembered (15 R248). Under tripod they wait for the
commit. -/
def State.opWrite (s : State) (l : Launch) (o : EngineOp) (pl : Place) (off : Nat) (bs : List Byte) : State :=
  if l.record.tripod then s.updOp o.id fun x => { x with pendingWrites := x.pendingWrites ++ [.store pl off bs] }
  else s.broken (s.writePlace pl off bs) l pl off bs.length

/-! ### Engine writes under watchpoints (20 R306) -/

/-- Watchpoints of a loupe core that engine writes into ranges hit: number and PREDEN. -/
def engHits (wps : Table (BitVec 128)) (core : Nat) (rs : List (Nat × Nat)) : List (Nat × Bool) :=
  (List.range 64).filterMap fun i =>
    match tget wps (64 * core + i) with
    | none => none
    | some w =>
      if wpEnabled w && wpEng w && rs.any fun r => overlaps r.1 r.2 (wpBase w) (2 ^ wpLen w) then some (i, wpPreden w)
      else none

/-- A hit event of an engine write; no lanes are named. -/
def engHit (seq : Nat) (ref : WarpRef) (pc : Word) (last : Option DWord) (tseq core lslot : Nat)
    (hs : List (Nat × Bool)) : Hit where
  seq := seq
  ref := ref
  slot := false
  pc := pc
  lcore := core
  lslot := lslot
  engine := true
  todo := (hs.filter Prod.snd).map fun h => (h.1, 0)
  lowest := (hs.head?.map Prod.fst).getD 0
  all := 0
  lanes := []
  anyTrue := false
  noPred := hs.any fun h => !h.2
  overrun := false
  running := false
  logs := 0
  last := last
  tseq := tseq

/-- The warp of a hit is still on the loupe core: it has not been home since (20 R306). -/
def State.hitPresent (s : State) (h : Hit) : Bool :=
  match s.warp? h.ref with
  | some w => decide (w.onLoupe?.map Prod.fst = some h.lcore) && decide (w.loupe.tseq = h.tseq)
  | none => false

/-- The pause of a warp that an engine write has hit. -/
def Pause.atEngine : Pause → Pause
  | .fault fc slot pc npc m => .fault fc slot pc npc m
  | .watch slot => .watch slot
  | _ => .engWatch

/-- The end of an engine hit event on a die: its watch record; the warp, if it is there, halts before its
next issue when a watchpoint has no predicate or one returned true; a pause at a fault or at a watchpoint of its own
stays. -/
def State.endEngHit (s : State) (d : Nat) (h : Hit) : State :=
  let flags := 2 + 4 * b2n h.anyTrue + 8 * b2n h.overrun
  if s.hitPresent h then
    let s := s.sheet h.ref h.all h.pc none h.lowest flags 2
    if h.noPred || h.anyTrue then s.updWarp h.ref fun w => { w with loupe := { w.loupe with pause := w.loupe.pause.atEngine } }
    else s
  else
    let clk := s.loupeClk d
    let w := s.warp? h.ref
    let dclk := dclkOf s.free clk ((w.map fun w => w.loupe.lastClk).getD h.last)
    let now : Option DWord := some (BitVec.ofNat 64 clk)
    let s := s.updWarp h.ref fun w => { w with loupe := { w.loupe with lastClk := now } }
    s.updLoupe d fun x =>
      { x.append (sheetRecord h.all h.pc dclk h.lowest (flags + 16) 2 (slotByte h.lcore h.lslot) h.tseq) with
        hits := x.hits.map fun y => if y.ref = h.ref then { y with last := now } else y }

/-- Writes of an engine on a die into local ranges, by an operation that a warp issued while it was on a loupe core,
meet that core's watchpoints. -/
def State.engineWrites (s : State) (d : Nat) (ref : WarpRef) (pc : Word) (lcore : Option (Nat × Nat × Nat))
    (rs : List (Nat × Nat)) : State :=
  match lcore with
  | none => s
  | some (core, lslot, tseq) =>
    let x := (s.die d).loupe
    match engHits x.wps core rs with
    | [] => s
    | hs =>
      let h := engHit x.hitSeq ref pc ((s.warp? ref).bind fun w => w.loupe.lastClk) tseq core lslot hs
      let s := s.updLoupe d fun x => { x with hitSeq := x.hitSeq + 1 }
      if h.todo = [] then s.endEngHit d h else s.updLoupe d fun x => { x with hits := x.hits ++ [h] }

/-- The first n bytes of an operation's local destinations have been written. -/
def State.engWatch (s : State) (o : EngineOp) (n : Nat) : State :=
  s.engineWrites (s.dieOf o.ref) o.ref o.pc o.lcore
    ((o.locks.filter fun z => z.dest && decide (n ≠ 0)).map fun z => (z.x.toNat, min n z.len))

end Sys2Proof.Machine
end

