-- ==== Sys2Proof/Machine/Copy.lean ====
section
/-! DEFINITION. The copy engine (13 R218 to R222): validation of a command, plain, expanding, scale and sealed
copies, main-memory atomics. -/

namespace Sys2Proof.Machine

/-! ### Validation at EGO -/

/-- The flags that a KIND does not allow, and fields set out of place (13 R218, R220). -/
def Staging.badFlags (w : Staging) : Bool :=
  w.filter || (w.sealed && decide (w.kind ≠ 2)) || (w.scale && decide (w.kind ≠ 1 ∧ w.kind ≠ 2)) ||
  (w.expand && decide (w.kind ≠ 1 ∧ w.kind ≠ 2)) || decide (2 ≤ w.esz) || (decide (w.esz ≠ 0) && !w.expand) ||
  (decide (w.kind ≠ 5) && (w.noret || decide (w.aop ≠ 0))) || (w.sealed && (w.scale || w.expand))

/-- A source or destination field beyond its address form. -/
def fieldTooLong (isLocal : Bool) (v : Nat) : Bool := if isLocal then decide (2 ^ 32 ≤ v) else decide (2 ^ 52 ≤ v)

/-- The field checks of a command (13 R218, R220, R221): BAD_COMMAND when one fails. -/
def Staging.badFields (w : Staging) : Bool :=
  decide (w.kind = 0 ∨ 6 ≤ w.kind) || decide (bits w.w0.toNat 47 40 ≠ 0) || w.w0.getLsbD 9 ||
  decide (w.rows = 0) || decide (w.rowLen = 0) || w.badFlags ||
  (if w.kind = 5 then
    decide (w.rows ≠ 1) || decide (w.rowLen ≠ 8) || decide (10 ≤ w.aop) || (decide (w.aop = 9) && w.noret) ||
    (w.noret && decide (w.src ≠ 0)) || fieldTooLong true w.src || fieldTooLong false w.dst
  else if w.sealed then
    decide (w.rows ≠ 1) || decide (w.rowLen % 4096 ≠ 0) || decide (w.src % 4096 ≠ 0) || decide (w.dst % 16 ≠ 0) ||
    decide (w.w3.toNat % 16 ≠ 0) || fieldTooLong false w.w3.toNat || fieldTooLong false w.src || fieldTooLong true w.dst
  else
    (decide (1 < w.rows) && decide (w.dpitch < w.rowLen)) ||
    fieldTooLong (decide (w.kind = 1 ∨ w.kind = 3)) w.src ||
    (if w.scale then decide (2 ^ 16 ≤ w.dst) else fieldTooLong (decide (w.kind = 1 ∨ w.kind = 2)) w.dst) ||
    (w.expand && decide (w.rowLen % (8 * (w.esz + 1)) ≠ 0)))

/-- Bytes of the local image of a sealed copy: its sectors and their tags (13 R220). -/
def Staging.sealedBytes (w : Staging) : Nat := w.rowLen + w.rowLen / 256

/-- The local ranges of a command: address, bytes, whether a destination. -/
def Staging.localRanges (w : Staging) : List (Nat × Nat × Bool) :=
  if w.kind = 5 then (if w.noret then [] else [(w.src, 8, true)])
  else if w.sealed then [(w.dst, w.sealedBytes, true)]
  else
    (if w.kind = 1 ∨ w.kind = 3 then [(w.src, w.srcExtent, false)] else []) ++
    (if (w.kind = 1 ∨ w.kind = 2) ∧ !w.scale then [(w.dst, w.dstExtent, true)] else [])

/-- Locks on local ranges; OUT_OF_RANGE with its address for the first that breaks 09 R161. -/
def Ctx.locksFor (c : Ctx) : List (Nat × Nat × Bool) → Except (FaultKind × Word) (List Lock)
  | [] => .ok []
  | (x, n, d) :: r =>
    match c.lockAt (BitVec.ofNat 32 x) n d, c.locksFor r with
    | none, _ => .error (.outOfRange, BitVec.ofNat 32 x)
    | some _, .error e => .error e
    | some z, .ok zs => .ok (z :: zs)

/-- A range in another block's BSM, which tripod mode refuses (10 R187). -/
def Ctx.foreign (c : Ctx) (zs : List Lock) : Bool :=
  c.l.record.tripod && zs.any fun z => match z.place with
    | .bsm l b => !decide (l = c.l.uid ∧ b = c.ref.block)
    | .spad _ _ => false

/-- Validation of a copy command at EGO (13 R214, R218 to R222). The spec gives the checks no order; DESIGN CHOICE
(notes/assumptions/29.md): fields, alignment, ranges, TRIPOD_SCOPE last. DEDUCED (24.md): TRIPOD_SCOPE has ADDR 0. -/
def Ctx.copyCheck (c : Ctx) (w : Staging) : Except (FaultKind × Word) (List Lock) :=
  if w.badFields then .error (.badCommand, 0)
  else if w.kind = 5 ∧ w.dst % 8 ≠ 0 then .error (.misaligned, BitVec.ofNat 32 w.dst)
  else if w.kind = 5 ∧ w.src % 8 ≠ 0 then .error (.misaligned, BitVec.ofNat 32 w.src)
  else if w.scale ∧ 65536 < w.dst + w.dstExtent then .error (.outOfRange, BitVec.ofNat 32 w.dst)
  else
    match c.locksFor w.localRanges with
    | .error e => .error e
    | .ok zs =>
      if (c.l.record.tripod ∧ w.kind = 5 ∧ (!w.noret ∨ 8 ≤ w.aop)) ∨ c.foreign zs then .error (.tripodScope, 0)
      else .ok zs

/-- A command that writes the scratchpad or main memory (19 R291). -/
def Staging.external (w : Staging) (zs : List Lock) : Bool := decide (3 ≤ w.kind) || spadDest zs

/-! ### Rows (13 R219, R220) -/

/-- A row of 2:4 sparse groups made dense; the offset of the metadata byte that breaks the order of its
indices otherwise. -/
def expandRow (esize rowLen : Nat) (bs : List Byte) : Nat → Nat → Except Nat (List Byte)
  | 0, _ => .ok []
  | n + 1, g =>
    let meta' := ((bs[rowLen / 2 + g / 2]?).getD 0).toNat
    let nib := if g % 2 = 0 then meta' % 16 else meta' / 16
    let i0 := nib % 4
    let i1 := nib / 4
    if i0 < i1 then
      let v (k : Nat) : List Byte := (bs.drop (esize * (2 * g + k))).take esize
      let cell (p : Nat) : List Byte := if p = i0 then v 0 else if p = i1 then v 1 else List.replicate esize 0
      match expandRow esize rowLen bs n (g + 1) with
      | .error e => .error e
      | .ok rest => .ok (cell 0 ++ cell 1 ++ cell 2 ++ cell 3 ++ rest)
    else .error (rowLen / 2 + g / 2)

/-- Where an operation runs: its launch, its block. -/
structure OpCtx where
  l : Launch
  b : Block
  o : EngineOp
  deriving DecidableEq, Repr

/-- An operation with its surroundings. -/
def State.opCtx? (s : State) (id : Nat) : Option OpCtx :=
  match s.op? id with
  | none => none
  | some o =>
    match s.launch? o.ref.launch, s.block? o.ref.launch o.ref.block with
    | some l, some b => some ⟨l, b, o⟩
    | _, _ => none

/-- A result of engine work: a fault with its address, and the state. -/
abbrev Moved := Option (FaultKind × Nat) × State

/-- The bytes of source row i. -/
def State.copyRead (s : State) (c : OpCtx) (w : Staging) (i : Nat) : List Byte × Moved :=
  let at' := w.src + i * w.spitch
  if w.kind = 1 ∨ w.kind = 3 then
    match (c.o.locks.find? fun z => !z.dest) with
    | some z => (s.opRead c.l c.o z.place (z.lo + i * w.spitch) w.srcRow, none, s)
    | none => ([], none, s)
  else
    let r := s.readVa (some c.b.die) c.o.mmu c.l.record.world at' w.srcRow
    (r.bytes, r.fault, r.s)

/-- Whether the scale memory of an engine may be written for a block: it belongs to the launch cluster that owns the
engine (14 R223); a SCALE copy of a block beside it writes nothing there (notes/assumptions/29.md). -/
def MatrixEngine.scaleOf (e : MatrixEngine) (l : Launch) (block : Nat) : Bool :=
  match e.owner with
  | some (u, n) => decide (u = l.uid) && decide (n = l.record.clusterOf block)
  | none => true

/-- Write destination row i. DESIGN CHOICE (notes/assumptions/47.md): a SCALE copy's rows are written at its completion in
tripod mode too, not at the commit; no rule makes scale memory a local write. -/
def State.copyWrite (s : State) (c : OpCtx) (w : Staging) (i : Nat) (bs : List Byte) : Moved :=
  let off := i * w.dpitch
  if w.scale then
    (none, s.updEngine c.b.die c.b.site fun e =>
      if e.scaleOf c.l c.o.ref.block then { e with scale := writeBytes e.scale (w.dst + off) bs } else e)
  else if w.kind = 1 ∨ w.kind = 2 then
    match (c.o.locks.find? fun z => z.dest) with
    | some z => (none, s.opWrite c.l c.o z.place (z.lo + off) bs)
    | none => (none, s)
  else s.writeVa (some c.b.die) c.o.mmu c.l.record.world (some c.o.id) (w.dst + off) bs

/-- Rows in ascending order: each read whole before any byte of it is written; a fault stops the command
(13 R219). The first number counts the rows left; the last one of the result, the rows that are complete. -/
def State.copyRows (s : State) (c : OpCtx) (w : Staging) : Nat → Nat → Moved × Nat
  | 0, i => ((none, s), i)
  | n + 1, i =>
    let (bs, f, s) := s.copyRead c w i
    match f with
    | some e => ((some e, s), i)
    | none =>
      let dense := if w.expand then expandRow (w.esz + 1) w.rowLen bs w.groups 0 else .ok bs
      match dense with
      | .error k => ((some (.sparseMeta, w.src + i * w.spitch + k), s), i)
      | .ok out =>
        match s.copyWrite c w i out with
        | (some e, s) => ((some e, s), i)
        | (none, s) => s.copyRows c w n (i + 1)

/-- A sealed copy: the sectors and then their tags, verbatim (13 R220). -/
def State.copySealed (s : State) (c : OpCtx) (w : Staging) : Moved :=
  let a := s.readVa (some c.b.die) c.o.mmu c.l.record.world w.src w.rowLen
  match a.fault with
  | some e => (some e, a.s)
  | none =>
    let t := a.s.readVa (some c.b.die) c.o.mmu c.l.record.world w.w3.toNat (w.rowLen / 256)
    match t.fault, (c.o.locks.find? fun z => z.dest) with
    | some e, _ => (some e, t.s)
    | none, some z => (none, t.s.opWrite c.l c.o z.place z.lo (a.bytes ++ t.bytes))
    | none, none => (none, t.s)

/-- End an operation after its work: a fault becomes its error. The first n bytes of its local destinations have been
written; watchpoints see them, in tripod mode at the commit that applies them (20 R306). -/
def State.endWork (s : State) (l : Launch) (o : EngineOp) (n : Nat) (f : Option (FaultKind × Nat)) : State :=
  (if l.record.tripod then s else s.engWatch o n).finishOp o.id (f.map fun e => o.error e.1 e.2)

/-- Bytes of the destination that n complete rows reach over (13 R219). -/
def Staging.written (w : Staging) (n : Nat) : Nat := if n = 0 then 0 else (n - 1) * w.dpitch + w.rowLen

/-- COPY_ENGINE_COMPLETION: a copy of KIND 1 to 4 runs (13 R219) and its ranges are released. -/
def execCopyEngineCompletion (op : Nat) (s : State) : Host.Outcome State Fault Refusal :=
  match s.opCtx? op with
  | none => .fault (.notEnabled "COPY_ENGINE_COMPLETION")
  | some c =>
    match c.o.work with
    | .copy w =>
      if w.kind ≠ 5 ∧ s.mayPerform c.l c.o then
        let ((f, s), n) := if w.sealed then (s.copySealed c w, 0) else s.copyRows c w w.rows 0
        let n := if w.sealed then (if f.isNone then w.sealedBytes else 0) else w.written n
        .next (s.endWork c.l ((s.op? op).getD c.o) n f)
      else .fault (.notEnabled "COPY_ENGINE_COMPLETION")
    | _ => .fault (.notEnabled "COPY_ENGINE_COMPLETION")

/-! ### Main-memory atomics (13 R221) -/

/-- The new value of a 64-bit atomic: old, operand, compare value. -/
def atomicNew (aop : Nat) (old b cmp : DWord) : DWord :=
  match aop with
  | 0 => old + b
  | 1 => old &&& b
  | 2 => old ||| b
  | 3 => old ^^^ b
  | 4 => if old.toInt ≤ b.toInt then old else b
  | 5 => if old.toInt ≤ b.toInt then b else old
  | 6 => if old.toNat ≤ b.toNat then old else b
  | 7 => if old.toNat ≤ b.toNat then b else old
  | 8 => b
  | _ => if old = cmp then b else old

/-- The read-modify-write; host memory and a leaf without ATOM, RD and W fault PERMISSION. -/
def State.atomicRmw (s : State) (c : OpCtx) (w : Staging) : Moved :=
  match s.transVia (some c.b.die) c.o.mmu w.dst .atom c.l.record.world with
  | (.fault k, s) => (some (k, w.dst), s)
  | (.ok pa, s) =>
    if !s.isDram pa then (some (.permission, w.dst), s)
    else
      match s.portRefuses (some c.b.die) c.l.record.world pa with
      | some d => (some (.permission, w.dst), s.logRefused c.l.iface (some c.b.die) d c.l.record.world)
      | none =>
        let (bs, s) := s.readPage (some c.b.die) c.l.record.world pa 8
        let old := BitVec.ofNat 64 (leNat bs)
        let cmp := BitVec.ofNat 64 (match c.o.view with | .store _ _ bs :: _ => leNat bs | _ => 0)
        let s := s.writePage (some c.b.die) c.l.record.world (some c.o.id) pa
          (leBytes 8 (atomicNew w.aop old w.w3 cmp).toNat)
        match w.noret, (c.o.locks.find? fun z => z.dest) with
        | false, some z => (none, s.opWrite c.l c.o z.place z.lo (leBytes 8 old.toNat))
        | _, _ => (none, s)

/-- MAIN_MEMORY_ATOMIC_COMPLETION: a command of KIND 5 performs and lands the old word (13 R221). -/
def execMainMemoryAtomicCompletion (op : Nat) (s : State) : Host.Outcome State Fault Refusal :=
  match s.opCtx? op with
  | none => .fault (.notEnabled "MAIN_MEMORY_ATOMIC_COMPLETION")
  | some c =>
    match c.o.work with
    | .copy w =>
      if w.kind = 5 ∧ s.mayPerform c.l c.o then
        let (f, s) := s.atomicRmw c w
        .next (s.endWork c.l ((s.op? op).getD c.o) (if f.isNone then 8 else 0) f)
      else .fault (.notEnabled "MAIN_MEMORY_ATOMIC_COMPLETION")
    | _ => .fault (.notEnabled "MAIN_MEMORY_ATOMIC_COMPLETION")

end Sys2Proof.Machine
end

