-- ==== Sys2Proof/Machine/MatrixSum.lean ====
section
/-! DEFINITION. The exact arithmetic of a matrix pass: elements of rows and tiles (14 R227), sheet sums
(R235), shapes (R236), filter terms (R240), scales (05 R84). -/

namespace Sys2Proof.Machine

/-! ### Elements -/

/-- A format slot's condition on types (05 R87). -/
def slotTypesOk (a b : Nat) (acc : Bool) : Bool :=
  let f8 (t : Nat) : Bool := decide (9 ≤ t) && decide (t ≤ 13)
  if acc then (decide (a = 4) && decide (b = 4 ∨ b = 14 ∨ b = 15)) || (decide (a = 14) && decide (b = 14 ∨ b = 4))
  else (f8 a && f8 b) || (decide (a = 8) && decide (b = 8)) || (decide (a = 7) && decide (b = 7))

/-- A format slot's condition on OTYPE (05 R87). -/
def slotOutOk (out : Nat) (acc : Bool) : Bool :=
  if acc then decide (out = 0 ∨ out = 2 ∨ out = 4 ∨ out = 6) else decide (6 ≤ out) && decide (out ≤ 10)

/-- The filter types of a slot are both absent or each one of four (05 R87). -/
def slotFilterOk (fd fu : Nat) (acc : Bool) : Bool :=
  let ok (t : Nat) : Bool := decide (7 ≤ t) && decide (t ≤ 10)
  (decide (fd = 0) && decide (fu = 0)) || (!acc && ok fd && ok fu)

/-- Bytes of a row of n elements of a type (14 R227, R229). -/
def packedBytes (t n : Nat) : Nat :=
  if t = 15 then (n + 4) / 5 else n * elemWidth t / 8

/-- Element n of a packed row (14 R227). -/
def packedElem (t : Nat) (row : List Byte) (n : Nat) : FVal :=
  let byte (i : Nat) : Nat := ((row[i]?).getD 0).toNat
  if t = 15 then
    let v := (trits (byte (n / 5))).1.getD (n % 5) 0
    .fin (decide (v < 0)) v.natAbs 0
  else
    match elemWidth t with
    | 4 => elemVal t (byte (n / 2) / 16 ^ (n % 2) % 16)
    | 16 => elemVal t (byte (2 * n) + 256 * byte (2 * n + 1))
    | _ => elemVal t (byte n)

/-- The elements lo to lo + n - 1 of a row. -/
def packedElems (t : Nat) (row : List Byte) (lo n : Nat) : List FVal := (List.range n).map fun k => packedElem t row (lo + k)

/-- An exact result as a value; matrix sums are exact. -/
def Exact.val : Exact → FVal
  | .nan s => .nan s
  | .inf n => .inf n
  | .fin n m e _ => .fin n m e

/-! ### Sheets (14 R235) -/

/-- The exponent of a nonzero finite value's leading bit. -/
def leadExp (m : Nat) (e : Int) : Int := (Nat.log2 m : Int) + e

/-- The largest leading exponent of the nonzero finite values of a list. -/
def maxLead : List FVal → Option Int
  | [] => none
  | .fin _ m e :: r =>
    if m = 0 then maxLead r
    else some (match maxLead r with | none => leadExp m e | some x => max x (leadExp m e))
  | _ :: r => maxLead r

/-- A value truncated toward zero to a multiple of 2^q. -/
def truncTo (q : Int) : FVal → FVal
  | .fin n m e => if e < q then .fin n (m / 2 ^ (q - e).toNat) q else .fin n m e
  | x => x

/-- The products of a sheet. -/
def products (a b : List FVal) : List FVal := List.zipWith (fun x y => (mulVal x y).1) a b

/-- A zero whose sign is minus only when every product is a minus zero. -/
def negZeros (ps : List FVal) : Bool := ps.all fun | .fin n m _ => n && decide (m = 0) | _ => false

/-- The exact sum of a sheet's products, truncated first for 16-bit types. A zero is -0 only when every
product is -0. -/
def sheetSum (wide : Bool) (ps : List FVal) : FVal :=
  let cut := if wide then (match maxLead ps with | some e => ps.map (truncTo (e - 63)) | none => ps) else ps
  match (sumVals 0 cut).1.val with
  | .fin n m e => if m = 0 then .fin (negZeros ps) 0 0 else .fin n m e
  | x => x

/-- A sheet's exact scaled value (R235). -/
def scaledSum (s sa sb : FVal) : FVal := (mulVal (mulVal s sa).1 sb).1

/-- A value rounded once to F32 under RNE. -/
def toF32 (v : FVal) : Word := roundF32 0 v.exact

/-! ### Scales (05 R84) -/

/-- The value 1, where a scale is absent (05 R85). -/
def scaleOne : FVal := .fin false 1 0

/-- A scale element from its bytes. -/
def scaleVal (bf : Bool) (bs : List Byte) : FVal :=
  if bf then elemVal 8 (leNat (bs.take 2))
  else
    let e := leNat (bs.take 1)
    if e = 255 then .nan false else .fin false 1 ((e : Int) - 127)

/-! ### Shapes (14 R236) -/

/-- The sum of a list into a word, in order, each addition rounded. -/
def linearSum (a : Word) : List Word → Word
  | [] => a
  | x :: r => linearSum (addF32 0 a x) r

/-- One round of a pairwise tree: an unpaired last element is carried up. -/
def pairUp : List Word → List Word
  | x :: y :: r => addF32 0 x y :: pairUp r
  | l => l

/-- A pairwise tree; the number bounds its rounds. -/
def treeSum : Nat → List Word → Word
  | 0, l => l.headD 0
  | n + 1, l => if l.length ≤ 1 then l.headD 0 else treeSum n (pairUp l)

/-- The elements whose position is m modulo 4, from position k on. -/
def everyFourth (m : Nat) : Nat → List Word → List Word
  | _, [] => []
  | k, x :: r => if k % 4 = m then x :: everyFourth m (k + 1) r else everyFourth m (k + 1) r

/-- A part of SPLIT4: linear from its first element; none when it is absent. -/
def splitPart (m : Nat) (ws : List Word) : Option Word :=
  match everyFourth m 0 ws with
  | [] => none
  | x :: r => some (linearSum x r)

/-- The sum of two parts, an absent one taking no part. -/
def addPart (x y : Option Word) : Option Word :=
  match x, y with
  | some a, some b => some (addF32 0 a b)
  | some a, none => some a
  | none, y => y

/-- The exact scaled sheet values of a row and column enter an accumulator word under a shape. -/
def foldSheets (shape : Nat) (a : Word) (ss : List FVal) : Word :=
  let ws := ss.map toF32
  match ss, shape with
  | [], _ => a
  | _, 0 => linearSum a ws
  | _, 1 => addF32 0 a (treeSum 8 ws)
  | _, 2 =>
    addF32 0 a ((addPart (addPart (splitPart 0 ws) (splitPart 1 ws)) (addPart (splitPart 2 ws) (splitPart 3 ws))).getD 0)
  | _, _ => addF32 0 a (roundF32 0 (sumVals 0 ss).1)

/-- The integer of an exact value with exponent 0. -/
def intVal : FVal → Int
  | .fin n m _ => if n then -(m : Int) else m
  | _ => 0

/-- S32: Wrap32 of the accumulator and all products (R235). -/
def intSum (a : Word) (ps : List FVal) : Word := a + BitVec.ofInt 32 ((ps.map intVal).foldl (· + ·) 0)

/-! ### Filter terms (14 R240) -/

/-- h_c: a row against a column of D, start 0, no scales. -/
def filterH (wide : Bool) (shape : Nat) (a d : List FVal) : Word :=
  let n := if wide then 32 else 64
  let sheet (j : Nat) : FVal := sheetSum wide (products ((a.drop (n * j)).take n) ((d.drop (n * j)).take n))
  foldSheets shape 0 ((List.range (a.length / n)).map sheet)

/-- The first round of the tree over exact products. -/
def pairExact : List FVal → List Word
  | x :: y :: r => roundF32 0 (sumVals 0 [x, y]).1 :: pairExact r
  | [x] => [toF32 x]
  | [] => []

/-- A word with the filter term added: f = Round(ALPHA * tree(h_c * U[c][n])). -/
def filterAdd (a alpha : Word) (h : List Word) (u : List FVal) : Word :=
  let t := treeSum 8 (pairExact (List.zipWith (fun x y => (mulVal (f32Val x) y).1) h u))
  addF32 0 a (roundF32 0 (mulF (f32Val alpha) (f32Val t)).1)

end Sys2Proof.Machine
end

