-- ==== Sys2Proof/Machine/Matrix.lean ====
section
/-! DEFINITION. The matrix engine (14): stationary loads, the MMA with its requests, passes and filter terms,
MZERO and MDRAIN, the periodic bank check; the matrix instructions of 16 R263 to R265. -/

namespace Sys2Proof.Machine

/-! ### Format slots (05 R87) -/

/-- Whether a format slot is legal. -/
def slotLegal (f : BitVec 128) : Bool :=
  decide (bits f.toNat 127 29 = 0) && decide (bits f.toNat 11 9 = 0) &&
  slotTypesOk (slotA f) (slotB f) (slotAcc f) && slotOutOk (slotOut f) (slotAcc f) &&
  decide (slotScale f ≤ 6) && (!slotAcc f || decide (slotScale f = 0)) &&
  (decide (slotScale f ≠ 0) || !slotScaleBf f) && slotFilterOk (slotFd f) (slotFu f) (slotAcc f)

/-- Whether a launch has a slot with RED (14 R242). -/
def LaunchRecord.red (r : LaunchRecord) : Bool := r.slots.any slotRed

/-! ### Tripod mode (14 R244) -/

/-- A strip that belongs to another warp of the block. -/
def Ctx.foreignStrip (c : Ctx) (strips : List Nat) : Bool :=
  c.l.record.tripod && strips.any fun n => decide (n % max c.l.record.warps 1 ≠ c.ref.warp)

/-- A slot that another warp has filled, or is filling, and that is not yet open to this one. -/
def Ctx.foreignSlot (c : Ctx) (slots : List Nat) : Bool :=
  let e := c.s.engine c.b.die c.b.site
  c.l.record.tripod &&
  (slots.any fun n =>
    (match tget e.slots n with
      | some sl => decide (sl.filler ≠ c.ref) && decide (sl.fillStage ≠ 3)
      | none => false) ||
    c.s.x.ops.any fun o => decide (o.ref ≠ c.ref) && decide (o.ref.launch = c.l.uid) &&
      decide (c.l.record.clusterOf o.ref.block = c.l.record.clusterOf c.ref.block) && !o.finished &&
      (match o.work with
        | .mload _ _ => (o.work.slots c.l.record).contains n
        | _ => false))

/-! ### MLOADB (14 R226 to R228, 16 R263) -/

/-- Fields of the MLOADB word. -/
def mloadAddr (w : Word) : Nat := w.toNat / 256 * 256
def mloadSealed (w : Word) : Bool := w.getLsbD 3
def mloadFslot (w : Word) : Nat := bits w.toNat 2 0

/-- Bytes of a tile. -/
def tileBytes (t : Nat) : Nat := 128 * packedBytes t 128

/-- Sectors of a sealed tile. -/
def tileSectors (t : Nat) : Nat := (tileBytes t + 4095) / 4096

/-- A seal descriptor (14 R228). -/
structure SealDesc where
  tid : Nat
  sect : Nat
  img : Nat
  tag : Nat
  bad : Bool
  deriving DecidableEq, Repr

/-- The descriptor of 32 bytes; one with a reserved bit set or an unaligned address is bad. -/
def sealDesc (bs : List Byte) : SealDesc :=
  let x := leNat bs
  let img := bits x 159 128
  let tag := bits x 191 160
  ⟨bits x 63 0, bits x 95 64, img, tag,
   decide (bits x 255 192 ≠ 0) || decide (bits x 127 96 ≠ 0) || decide (img % 16 ≠ 0) || decide (tag % 16 ≠ 0)⟩

/-- The source ranges of an MLOADB: the tile, or the descriptor, sectors and tags. DESIGN CHOICE (notes/assumptions/30.md):
the descriptor is read for them at the issue, also where an earlier pending operation of the warp has still to write it; what
the load uses is read when it performs. -/
def Ctx.mloadRanges (c : Ctx) (w : Word) (t : Nat) : Except (FaultKind × Word) (List (Nat × Nat × Bool)) :=
  let a := mloadAddr w
  if !mloadSealed w then .ok [(a, tileBytes t, false)]
  else if c.l.record.world = 0 then .error (.permission, 0)
  else
    match localPlace c.l c.ref.block (BitVec.ofNat 32 a) 32 with
    | none => .error (.outOfRange, BitVec.ofNat 32 a)
    | some (pl, off) =>
      let d := sealDesc (c.s.loadBytes c.l c.ref pl off 32)
      let n := tileSectors t
      if d.bad then .error (.badCommand, 0)
      else .ok [(a, 32, false), (d.img, 4096 * n, false), (d.tag, 16 * n, false)]

/-- Validation of an MLOADB at issue. -/
def Ctx.mloadCheck (c : Ctx) (slot : Nat) (w : Word) : Except (FaultKind × Word) (List Lock) :=
  let f := c.l.record.fslot (mloadFslot w)
  let t := slotB f
  let names := (List.range (tileSlots t)).map fun i => slot + i
  if c.l.record.accn = 0 then .error (.slotInvalid, 0)
  else if bits w.toNat 7 4 ≠ 0 then .error (.badCommand, 0)
  else if !slotLegal f then .error (.slotInvalid, 0)
  else if slotRed f ∧ 32 < slot + tileSlots t then .error (.slotInvalid, 0)
  else if wide16 t ∧ slot % 2 = 1 then .error (.slotInvalid, 0)
  else
    match c.mloadRanges w t with
    | .error e => .error e
    | .ok rs =>
      match c.locksFor rs with
      | .error e => .error e
      | .ok zs => if c.foreign zs || c.foreignSlot names then .error (.tripodScope, 0) else .ok zs

/-- MLOADB (16 R263): the stationary load joins the open batch. -/
def execMloadb (m : Bool) (d a : Field) (s : State) : Host.Outcome State Fault Refusal :=
  withCtx s fun c =>
    let w := c.sr a.toNat
    c.engineIssue ⟨m, 4, [], [sRd a]⟩ (.mload d.toNat w) false (c.mloadCheck d.toNat w)

/-! ### The stationary port -/

/-- The bank that a path parked at a SELFTEST tests (21 R325). -/
def Path.testedBank (p : Path) : Option Nat :=
  match p.park with
  | .selftest _ b 0 => if bits b.toNat 2 0 = 4 then some (bits b.toNat 13 8) else none
  | _ => none

/-- The banks of an engine that a running SELFTEST tests. -/
def State.testedBanks (s : State) (d site : Nat) : List Nat :=
  (s.x.warps.map fun w =>
    match s.block? w.ref.launch w.ref.block with
    | some b => if b.die = d ∧ b.site = site then w.allPaths.filterMap Path.testedBank else []
    | none => []).flatten

/-- Banks of an engine that no slot holds, no test uses and that are not fenced (14 R224, R243; 21 R325). -/
def State.freeBanks (s : State) (d site : Nat) : List Nat :=
  let e := s.engine d site
  let fused := ((s.ctl.map.dies[d]?).map DieFuses.fences).getD []
  let held := (e.banks.map fun b => b.2.1 :: b.2.2.toList).flatten ++ s.testedBanks d site
  (List.range 64).filter fun n => !(held.contains n) && !(e.fenced.contains n) && !(fused.contains (site, n))

/-- The binding of a slot: the one it has, else the lowest free bank, and a mirror bank under RED. -/
def State.bindSlot (s : State) (d site n : Nat) (red : Bool) : Option State :=
  let set (s : State) (b : Nat × Option Nat) : State := s.updEngine d site fun e => { e with banks := tput e.banks n b }
  match tget (s.engine d site).banks n, s.freeBanks d site with
  | some (b, some m), _ => some (set s (b, some m))
  | some (b, none), fs => if !red then some s else (match fs with | m :: _ => some (set s (b, some m)) | [] => none)
  | none, b :: fs =>
    if !red then some (set s (b, none)) else (match fs with | m :: _ => some (set s (b, some m)) | [] => none)
  | none, [] => none

/-- Bind every slot of a list. -/
def State.bindSlots (s : State) (d site : Nat) (red : Bool) : List Nat → Option State
  | [] => some s
  | n :: r =>
    match s.bindSlot d site n red with
    | some s => s.bindSlots d site red r
    | none => none

/-- The IV of a sealed sector (14 R228). -/
def sectorIv (tid sect : Nat) : Nat := tid % 2 ^ 64 * 2 ^ 32 + sect % 2 ^ 32

/-- Open the sectors of a tile in order; the index of the first whose tag fails. The number counts the
sectors left. -/
def openSectors (key : BitVec 256) (tid sect : Nat) (img tags : List Byte) : Nat → Nat → Except Nat (List Byte)
  | 0, _ => .ok []
  | n + 1, i =>
    let ct := (img.drop (4096 * i)).take 4096
    match gcmOpen key (sectorIv tid (sect + i)) ct ((tags.drop (16 * i)).take 16) with
    | none => .error i
    | some pt =>
      match openSectors key tid sect img tags n (i + 1) with
      | .error k => .error k
      | .ok r => .ok (pt ++ r)

/-- What a stationary load brings to its bank: the tile bytes, or the fault with its address. -/
def State.tileOf (s : State) (c : OpCtx) (w : Word) (t : Nat) : Except (FaultKind × Nat) (List Byte) :=
  let read (z : Lock) : List Byte := s.opRead c.l c.o z.place z.lo z.len
  match c.o.locks with
  | z :: [] =>
    let bs := read z
    if t = 15 then
      match bs.findIdx? fun b => decide (243 ≤ b.toNat) with
      | some i => .error (.invalidOp, mloadAddr w + i)
      | none => .ok bs
    else .ok bs
  | dz :: iz :: tz :: _ =>
    let d := sealDesc (read dz)
    let key := ((s.iface c.l.iface).session.map Session.weightKey).getD 0
    match openSectors key d.tid d.sect (read iz) (read tz) (tileSectors t) 0 with
    | .error i => .error (.sealTag, d.img + 4096 * i)
    | .ok bs =>
      let bs := bs.take (tileBytes t)
      if t = 15 then
        match bs.findIdx? fun b => decide (243 ≤ b.toNat) with
        | some i => .error (.invalidOp, d.img + i)
        | none => .ok bs
      else .ok bs
  | _ => .ok []

/-- Whether a pass in flight reads one of some slots. -/
def State.slotsInPass (s : State) (d site : Nat) (slots : List Nat) : Bool :=
  (s.engine d site).passes.any fun p => p.quarters.any fun q =>
    match s.op? q.op with
    | none => false
    | some o => meet slots (((s.launch? o.ref.launch).map fun l => o.work.slots l.record).getD [])

/-- Empty slots; their banks stay bound. -/
def MatrixEngine.emptySlots (e : MatrixEngine) (ns : List Nat) : MatrixEngine :=
  { e with slots := ns.foldl tdel e.slots }

/-- Fill the slots of a tile: the second slot of a 16-bit tile holds no bytes of its own. -/
def MatrixEngine.fillSlots (e : MatrixEngine) (o : EngineOp) (w : Word) (t : Nat) (red : Bool) (tile : List Byte) :
    List Nat → Bool → MatrixEngine
  | [], _ => e
  | n :: r, second =>
    let sl : Slot :=
      { word := w, btype := t, red := red, tile := if second then [] else tile, second := second
        sealed := mloadSealed w, filler := o.ref, fillClose := o.closeNo, fillStage := 0, barKeys := [] }
    let sound := e.soft.filter fun x => decide (x ≠ 16 + n)
    ({ e with slots := tput e.slots n sl, soft := sound } : MatrixEngine).fillSlots o w t red tile r true

/-- A stationary load performs: the tile is read, checked, and written to the bank bound to its slot; on a
failure in the port the slot is left empty (14 R224, R227, R228). -/
def State.loadTile (s : State) (c : OpCtx) (w : Word) : Moved :=
  let f := c.l.record.fslot (mloadFslot w)
  let names := c.o.work.slots c.l.record
  match s.tileOf c w (slotB f) with
  | .error e => (some e, s.updEngine c.b.die c.b.site fun e => e.emptySlots names)
  | .ok tile =>
    match s.bindSlots c.b.die c.b.site (slotRed f) names with
    | none => (some (.slotInvalid, 0), s.updEngine c.b.die c.b.site fun e => e.emptySlots names)
    | some s => (none, s.updEngine c.b.die c.b.site fun e => e.fillSlots c.o w (slotB f) (slotRed f) tile names false)

/-- STATIONARY_LOAD_COMPLETION: a load performs, while no pass reads its slots (14 R225). -/
def execStationaryLoadCompletion (op : Nat) (s : State) : Host.Outcome State Fault Refusal :=
  match s.opCtx? op with
  | none => .fault (.notEnabled "STATIONARY_LOAD_COMPLETION")
  | some c =>
    match c.o.work with
    | .mload _ w =>
      if s.mayPerform c.l c.o && !s.slotsInPass c.b.die c.b.site (c.o.work.slots c.l.record) then
        let (f, s) := s.loadTile c w
        .next (s.endWork c.l c.o 0 f)
      else .fault (.notEnabled "STATIONARY_LOAD_COMPLETION")
    | _ => .fault (.notEnabled "STATIONARY_LOAD_COMPLETION")

/-! ### MMA at issue (14 R229, R230; 16 R264) -/

/-- BTYPE and RED of a slot as an MMA of a warp meets it at issue: its own pending loads count as filled
(14 R225). -/
def Ctx.slotHolds (c : Ctx) (n : Nat) : Option (Nat × Bool) :=
  let own := c.s.x.ops.filter fun o => decide (o.ref = c.ref) && !o.finished &&
    (match o.work with | .mload _ _ => (o.work.slots c.l.record).contains n | _ => false)
  match own.getLast? with
  | some o =>
    match o.work with
    | .mload _ w => let f := c.l.record.fslot (mloadFslot w); some (slotB f, slotRed f)
    | _ => none
  | none => (tget (c.s.engine c.b.die c.b.site).slots n).map fun sl => (sl.btype, sl.red)

/-- The length of a scale group along K; 0 where the mode has none (05 R85). -/
def scaleGroup (mode : Nat) : Nat :=
  match mode with
  | 3 => 32
  | 4 => 64
  | 5 => 128
  | _ => 0

/-- Bytes of the scale region of an MMA (14 R234). -/
def scaleRegion (f : BitVec 128) (ks ns : Nat) : Nat :=
  let z := if slotScaleBf f then 2 else 1
  match slotScale f with
  | 0 => 0
  | 1 => 32 * z
  | 2 => 128 * ns * z
  | 6 => (ks + ns * ks) * z
  | m => (32 + 128 * ns) * (128 * ks / scaleGroup m) * z

/-- The quarters of a row mask. -/
def quartersOf (rows : LaneMask) : List Nat := (List.range 4).filter fun q => decide (rows &&& quarterLanes q ≠ 0)

/-- The source ranges of an MMA's quarters; the address of the first outside its space otherwise. -/
def Ctx.quarterLocks (c : Ctx) (addr pa : Nat) : List Nat → Except (FaultKind × Word) (List (Nat × Lock))
  | [] => .ok []
  | q :: r =>
    let x := addr + 8 * q * pa
    match (if x < 2 ^ 32 then c.lockAt (BitVec.ofNat 32 x) (8 * pa) false else none), c.quarterLocks addr pa r with
    | none, _ => .error (.outOfRange, BitVec.ofNat 32 x)
    | some _, .error e => .error e
    | some z, .ok zs => .ok ((q, z) :: zs)

/-- Validation of an MMA in the order of 14 R230, with the tripod rules of R244 where they fix the outcome;
the result lists its quarters and their ranges. -/
def Ctx.mmaCheck (c : Ctx) (j : MmaJob) (fvec : Nat) : Except (FaultKind × Word) (List (Nat × Lock)) :=
  let f := c.l.record.fslot j.fslot
  let ks := descKs j.desc
  let ns := descNs j.desc
  let n := tileSlots (slotB f) * ks * ns
  let sb := descSbase j.desc
  let names := (List.range n).map fun i => sb + i
  if c.l.record.accn = 0 then .error (.slotInvalid, 0)
  else if !slotLegal f || (decide (fvec ≠ 63) && decide (slotFd f = 0)) then .error (.slotInvalid, 0)
  else if c.foreignSlot names then .error (.tripodScope, 0)
  else if (names.filter fun k => decide (k < 64)).any fun k => decide (c.slotHolds k ≠ some (slotB f, slotRed f)) then
    .error (.slotInvalid, 0)
  else if wide16 (slotB f) ∧ sb % 2 = 1 then .error (.slotInvalid, 0)
  else if 64 < sb + n ∨ (if slotRed f then 16 else 32) < n then .error (.slotInvalid, 0)
  else if j.desc.getLsbD 6 then .error (.badCommand, 0)
  else if c.l.record.accn < j.acc + ns then .error (.outOfRange, 0)
  else
    match c.quarterLocks j.addr.toNat (packedBytes (slotA f) (128 * ks)) (quartersOf j.rows) with
    | .error e => .error e
    | .ok qs =>
      if 65536 < 1024 * descScb j.desc + scaleRegion f ks ns then .error (.outOfRange, BitVec.ofNat 32 (1024 * descScb j.desc))
      else if c.foreign (qs.map Prod.snd) || c.foreignStrip ((List.range ns).map fun i => j.acc + i) then
        .error (.tripodScope, 0)
      else .ok qs

/-- Note the format slot of the last MMA into strips (16 R265). -/
def State.noteAcc (s : State) (b : Block) (acc : Option Bool) (strips : List Nat) : State :=
  s.updEngine b.die b.site fun e =>
    { e with strips := strips.foldl (fun t n =>
      let k := b.stripBase + n
      tput t k { (tget t k).getD Strip.fresh with lastAcc := acc }) e.strips }

/-- The MMA instruction completes; the lanes of soft fault (19 R283, R284). -/
def Ctx.mmaDone (c : Ctx) (s : State) (sh : Shape) (soft : LaneMask) : State :=
  if soft = 0 then c.issued s sh else c.completeLanes s sh c.active ⟨[], faultsOf .softError (lanesOf soft)⟩

/-- What an entry of the filter table gives for a row, or why the row has no filter term (14 R239). -/
def latchEntry (f : BitVec 128) (world layer row id x : Nat) : Latch :=
  let ok := bitAt x 0 && decide (bits x 35 32 = world) && decide (bits x 11 8 = slotFd f) &&
    decide (bits x 15 12 = slotFu f) && decide (layer ≤ bits x 43 36)
  { row := row, id := id, gen := bits x 127 96, alpha := BitVec.ofNat 32 (bits x 95 64)
    ptr := bits x 179 128 + 8 * layer, layerBase := 0, rank32 := bitAt x 1
    bad := if ok then none else some (.filterInvalid, 0) }

/-- A latch that refuses its row. -/
def latchBad (row id : Nat) (k : FaultKind) (addr : Nat) : Latch :=
  { row := row, id := id, gen := 0, alpha := 0, ptr := 0, layerBase := 0, rank32 := false, bad := some (k, addr) }

/-- Read the entry of a row's filter, and the slice base of its layer. -/
def State.readLatch (s : State) (c : OpCtx) (j : MmaJob) (row : Nat) (id : Word) : Latch × State :=
  let f := c.l.record.fslot j.fslot
  if 65535 < id.toNat then (latchBad row id.toNat .filterInvalid 0, s)
  else
    let r := s.readVa (some c.b.die) c.o.mmu c.l.record.world (c.o.ftbase.toNat + 64 * id.toNat) 64
    match r.fault with
    | some (k, a) => (latchBad row id.toNat k a, r.s)
    | none =>
      let la := latchEntry f c.l.record.world (descLayer j.desc) row id.toNat (leNat r.bytes)
      if la.bad.isSome then (la, r.s)
      else
        let t := r.s.readVa (some c.b.die) c.o.mmu c.l.record.world la.ptr 8
        match t.fault with
        | some (k, a) => ({ la with bad := some (k, a) }, t.s)
        | none => ({ la with layerBase := leNat t.bytes % 2 ^ 52 }, t.s)

/-- Read the entries of rows in ascending order. -/
def State.readLatches (s : State) (c : OpCtx) (j : MmaJob) : List (Nat × Word) → List Latch × State
  | [] => ([], s)
  | (row, id) :: r =>
    if id = 0 then s.readLatches c j r
    else
      let (la, s) := s.readLatch c j row id
      let (las, s) := s.readLatches c j r
      (la :: las, s)

/-- The bytes of main memory that latches have been read from. -/
def latchReads (ftbase : Nat) (las : List Latch) : List (Nat × Nat) :=
  (las.map fun la => (ftbase + 64 * la.id, 64) :: if la.bad.isSome ∧ la.ptr = 0 then [] else [(la.ptr, 8)]).flatten

/-- Destinations of an operation in main memory. -/
def Work.mainDests : Work → List (Nat × Nat)
  | .copy w => if w.kind = 5 then [(w.dst, 8)] else if w.kind = 3 ∨ w.kind = 4 then [(w.dst, w.dstExtent)] else []
  | .step _ w => if w.dst = 0 then [] else [(w.dst, 4 * bits w.w0.toNat 63 32)]
  | _ => []

/-- An earlier operation of the warp has yet to write bytes that an operation has just read (10 R182 item 2). -/
def State.readsTooSoon (s : State) (o : EngineOp) (rs : List (Nat × Nat)) : Bool :=
  s.x.ops.any fun e => decide (e.ref = o.ref) && decide (e.id < o.id) && !e.finished && decide (e.work.mainDests ≠ []) &&
    (rangesMeet e.work.mainDests rs || rangesMeet (s.physRanges e e.work.mainDests) (s.physRanges o rs))

/-- An MMA reads its rows' entries of the filter table at its issue and latches their generations (14 R239); where an
earlier operation of the warp has yet to write what it would read, it reads when that has finished (10 R182). -/
def Ctx.mmaLatch (c : Ctx) (s : State) (o : EngineOp) (j : MmaJob) : MmaJob × State :=
  let (las, t) := s.readLatches ⟨c.l, c.b, o⟩ j j.ids
  if s.readsTooSoon o (latchReads o.ftbase.toNat las) then ({ j with latches := none, ready := false }, s)
  else ({ j with latches := some las, ready := decide (las = []) }, t)

/-- A valid MMA begins: its quarters are posted as room allows, and the path waits for the rest. -/
def Ctx.mmaBegin (c : Ctx) (s : State) (sh : Shape) (j : MmaJob) (qs : List (Nat × Lock)) (soft : LaneMask) : State :=
  let j := { j with unposted := qs, left := qs.map Prod.fst, soft := soft }
  let s := s.noteAcc c.b (some (slotAcc (c.l.record.fslot j.fslot))) ((List.range (descNs j.desc)).map fun i => j.acc + i)
  if qs = [] then c.mmaDone s sh soft
  else
    let o := { c.newOp s (.mma j) (qs.map Prod.snd) true with locks := [] }
    let (j, s) := c.mmaLatch s o j
    let s := (s.addOp { o with work := .mma j }).postQuarters c.l c.b 8 o.id
    if ((s.op? o.id).map EngineOp.unposted).getD [] = [] then c.mmaDone s sh soft
    else c.parkAt (c.traceHazards s c.active sh.reads []) (.mrt o.id)

/-- MMA (16 R264): its rows are the Active lanes; the filter IDs, the descriptor and the guard are read at
issue. A lane whose FVEC word an INJECT spoils faults, and its row takes no part. -/
def execMma (m : Bool) (acc : BitVec 4) (adesc : BitVec 6) (fslot : BitVec 3) (shape : BitVec 2) (fvec : BitVec 6)
    (s : State) : Host.Outcome State Fault Refusal :=
  let vr := if fvec.toNat = 63 then [] else [fvec.toNat]
  issueOp s ⟨m, 4, vr, (256 + adesc.toNat) :: (256 + adesc.toNat + 1) :: vr⟩ anyType fun c =>
    let sh : Shape := ⟨m, 4, vr, (256 + adesc.toNat) :: (256 + adesc.toNat + 1) :: (vr ++ c.guardReads)⟩
    let soft := c.softLanes vr c.active
    let rows := c.active &&& ~~~soft
    let j : MmaJob :=
      { addr := c.sr adesc.toNat, desc := c.sr (adesc.toNat + 1), acc := acc.toNat, fslot := fslot.toNat
        shape := shape.toNat, rows := rows
        ids := (lanesOf rows).map fun l => (l, if fvec.toNat = 63 then 0 else c.v fvec.toNat l)
        latches := none, ready := false, unposted := [], left := [], soft := 0 }
    c.sound sh <| c.drained (match c.mmaCheck j fvec.toNat with
      | .error (k, a) => c.mmaDone (c.failOp (c.disarm soft) k a) sh soft
      | .ok qs => c.mmaBegin (c.disarm soft) sh j qs soft)

/-! ### The arbiter (14 R232) -/

/-- The job of an operation. -/
def EngineOp.job? (o : EngineOp) : Option MmaJob :=
  match o.work with
  | .mma j => some j
  | _ => none

/-- Change the job of an operation. -/
def State.updJob (s : State) (id : Nat) (f : MmaJob → MmaJob) : State :=
  s.updOp id fun o => match o.work with
    | .mma j => { o with work := .mma (f j) }
    | _ => o

/-- The strips of a block that a job names, as strips of the engine. -/
def MmaJob.engineStrips (j : MmaJob) (b : Block) : List Nat :=
  (List.range (descNs j.desc)).map fun i => b.stripBase + j.acc + i

/-- The operations that precede an MMA's quarter in its warp have performed as far as the quarter needs:
an earlier MMA on a shared strip only for the same rows (14 R225), and a request of it in the same pass has. -/
def State.quarterReady (s : State) (l : Launch) (o : EngineOp) (q : Nat) (fused : List Quarter) : Bool :=
  s.x.ops.all fun e =>
    !(decide (e.ref = o.ref) && decide (e.id < o.id) && !e.finished && s.opsMeet l e o) ||
    (match e.work with
      | .mma j => !(j.left.contains q) || fused.any fun x => decide (x.op = e.id) && decide (x.q = q)
      | _ => false)

/-- A filter replay is pending for a row of a quarter (14 R232, R241). -/
def State.replayPending (s : State) (e : MatrixEngine) (strips : List Nat) (rows : LaneMask) : Bool :=
  e.replays.any fun r =>
    rows.getLsbD r.row &&
    (match s.opCtx? r.op with
      | some c => meet strips ((c.o.job?.map fun j => j.engineStrips c.b).getD [])
      | none => false)

/-- The banks that compute for some slots: under RED the mirrors too (14 R242). -/
def MatrixEngine.banksOf (e : MatrixEngine) (red : Bool) (slots : List Nat) : List Nat :=
  (slots.map fun n => match tget e.banks n with | some (b, m) => b :: (if red then m.toList else []) | none => []).flatten

/-- The banks that compute for an operation. -/
def MatrixEngine.opBanks (e : MatrixEngine) (c : OpCtx) : List Nat :=
  e.banksOf ((c.o.job?.map fun j => slotRed (c.l.record.fslot j.fslot)).getD false) (c.o.work.slots c.l.record)

/-- The banks that compute. -/
def State.busyBanks (s : State) (e : MatrixEngine) : List Nat :=
  (e.passes.map fun p =>
    match p.quarters.head?.bind fun q => s.opCtx? q.op with
    | some c => e.opBanks c
    | none => []).flatten

/-- A slot that fails the check at a grant. -/
def MatrixEngine.slotFails (e : MatrixEngine) (f : BitVec 128) (n : Nat) : Bool :=
  match tget e.slots n with
  | none => true
  | some sl => decide (sl.btype ≠ slotB f) || decide (sl.red ≠ slotRed f)

/-- A waiting request with its operation. -/
structure Request where
  q : Quarter
  c : OpCtx
  j : MmaJob
  deriving DecidableEq, Repr

/-- A waiting request's surroundings. -/
def State.request? (s : State) (q : Quarter) : Option Request :=
  match s.opCtx? q.op with
  | none => none
  | some c =>
    match c.o.job? with
    | some j => some ⟨q, c, j⟩
    | none => none

/-- Whether a request may be granted beside those of a pass, as far as its rows go: its filter entries are there, its
warp's earlier operations have performed, no replay is pending. -/
def State.rowsReady (s : State) (e : MatrixEngine) (r : Request) (fused : List Quarter) : Bool :=
  r.j.ready && s.quarterReady r.c.l r.c.o r.q.q fused && !s.replayPending e (r.j.engineStrips r.c.b) r.q.rows

/-- Whether its banks are free, and stay at 32 or fewer with it. -/
def State.banksReady (s : State) (e : MatrixEngine) (r : Request) : Bool :=
  let own := e.opBanks r.c
  let busy := s.busyBanks e
  !meet own busy && decide (own.length + busy.length ≤ 32)

/-- Requests in the arbiter's order: those that have waited 256 clocks, then by PRIO, then by age. -/
def arbiterOrder (now : DWord) (qs : List Quarter) : List Quarter :=
  let old (q : Quarter) : Bool := decide (256 ≤ (now - q.since).toNat)
  (qs.filter old) ++ ([3, 2, 1, 0].map fun p => qs.filter fun q => !old q && decide (q.prio = p)).flatten

/-- Whether two jobs fuse. -/
def MmaJob.fuses (i j : MmaJob) : Bool :=
  decide (descSbase i.desc = descSbase j.desc) && decide (descKs i.desc = descKs j.desc) &&
  decide (descNs i.desc = descNs j.desc) && decide (i.fslot = j.fslot) && decide (i.shape = j.shape)

/-- Two requests add into a row of one strip. -/
def Request.sameRows (a b : Request) : Bool :=
  decide (a.q.rows &&& b.q.rows ≠ 0) && meet (a.j.engineStrips a.c.b) (b.j.engineStrips b.c.b)

/-- The requests that fuse with a granted one, of a list in age order: at most n in all. Requests that share a row
fuse too; a pass adds its quarters in the order of posting. -/
def State.fuseWith (s : State) (e : MatrixEngine) (g : Request) (n : Nat) : List Request → List Quarter → List Quarter
  | [], acc => acc
  | r :: rs, acc =>
    if acc.length < n ∧ r.q ≠ g.q ∧ g.j.fuses r.j ∧ s.rowsReady e r acc then s.fuseWith e g n rs (acc ++ [r.q])
    else s.fuseWith e g n rs acc

/-- An error found while an MMA runs: the first stands; rows of the same kind join it (14 R239). -/
def EngineOp.noteError (o : EngineOp) (k : FaultKind) (addr : Nat) (rows : List (Nat × Word)) : EngineOp :=
  match o.err with
  | none => { o with err := some { o.error k addr with rows := rows } }
  | some e => if e.kind = k then { o with err := some { e with rows := (e.rows ++ rows).mergeSort fun a b => a.1 ≤ b.1 } } else o

/-- An MMA is complete when every quarter has been through a pass and no replay of it is pending
(14 R231). -/
def State.endMma (s : State) (id : Nat) : State :=
  match s.opCtx? id with
  | none => s
  | some c =>
    let e := s.engine c.b.die c.b.site
    match c.o.job? with
    | some j => if j.left = [] && !(e.replays.any fun r => decide (r.op = id)) then s.finishOp id c.o.err else s
    | none => s

/-- End every MMA of a list that is complete. -/
def State.endMmas (s : State) : List Nat → State
  | [] => s
  | o :: r => (s.endMma o).endMmas r

/-- Requests that are not run because a slot fails (14 R232): each leaves the MRT, its MMA in error. -/
def State.dropRequests (s : State) (d site : Nat) : List Request → State
  | [] => s
  | r :: rs =>
    let s := s.updEngine d site fun e => { e with mrt := e.mrt.filter fun q => !(decide (q.op = r.q.op) && decide (q.q = r.q.q)) }
    let s := s.updJob r.q.op fun j => { j with left := j.left.filter fun q => decide (q ≠ r.q.q) }
    (s.updOp r.q.op fun o => o.noteError .slotInvalid 0 []).dropRequests d site rs

/-- MRT_GRANT (14 R232): the first request that can be granted is checked against its slots, then fused and
granted, or fails with every waiting request that names a failing slot. -/
def execMrtGrant (die site : Nat) (s : State) : Host.Outcome State Fault Refusal :=
  let e := s.engine die site
  let reqs (qs : List Quarter) : List Request := qs.filterMap s.request?
  let ready := (reqs (arbiterOrder s.time e.mrt)).filter fun r => s.rowsReady e r []
  match ready.find? fun r => s.banksReady e r with
  | none => .fault (.notEnabled "MRT_GRANT")
  | some g =>
    let f := g.c.l.record.fslot g.j.fslot
    let bad := (g.c.o.work.slots g.c.l.record).filter fun n => e.slotFails f n
    if bad ≠ [] then
      let hit := (reqs e.mrt).filter fun r => meet bad (r.c.o.work.slots r.c.l.record)
      let s := s.dropRequests die site hit
      .next ((s.endMmas ((hit.map fun r => r.q.op).eraseDups)).postWaiting s.x.ops)
    else
      let all := s.fuseWith e g 16 (reqs e.mrt) [g.q]
      let quarters := e.mrt.filter all.contains
      .next ({ s with nextOp := s.nextOp + 1 }.updEngine die site fun e =>
        { e with
          mrt := e.mrt.filter fun q => !(all.contains q)
          passes := e.passes ++ [(⟨s.nextOp, quarters⟩ : Pass)] })

/-! ### A pass -/

/-- The row of A of a lane, as the operation reads it. -/
def State.aRow (s : State) (r : Request) (lane : Nat) : List Byte :=
  let f := r.c.l.record.fslot r.j.fslot
  let pa := packedBytes (slotA f) (128 * descKs r.j.desc)
  match localPlace r.c.l r.c.o.ref.block (r.j.addr + BitVec.ofNat 32 (lane * pa)) pa with
  | some (pl, off) => s.opRead r.c.l r.c.o pl off pa
  | none => []

/-- Column n of the tiles of an n-block, over the instruction's K. -/
def MatrixEngine.bColumn (e : MatrixEngine) (j : MmaJob) (t nb n : Nat) : List FVal :=
  let p := packedBytes t 128
  let ks := descKs j.desc
  ((List.range ks).map fun kb =>
    let tile := ((tget e.slots (descSbase j.desc + tileSlots t * (nb * ks + kb))).map Slot.tile).getD []
    (List.range 128).map fun k => packedElem t ((tile.drop (k * p)).take p) n).flatten

/-- The scale element at an address of scale memory. -/
def MatrixEngine.scaleAt (e : MatrixEngine) (bf : Bool) (a : Nat) : FVal := scaleVal bf (readBytes e.scale a 2)

/-- The A and B scales of a row, a column of the instruction and a K offset (14 R234). -/
def MatrixEngine.scalesFor (e : MatrixEngine) (f : BitVec 128) (j : MmaJob) (row nb n k : Nat) : FVal × FVal :=
  let x := 1024 * descScb j.desc
  let z := if slotScaleBf f then 2 else 1
  let ks := descKs j.desc
  let col := 128 * nb + n
  let at' (i : Nat) : FVal := e.scaleAt (slotScaleBf f) (x + i * z)
  match slotScale f with
  | 0 => (scaleOne, scaleOne)
  | 1 => (at' row, scaleOne)
  | 2 => (scaleOne, at' col)
  | 6 => (at' (k / 128), at' (ks + nb * ks + k / 128))
  | m =>
    let ga := 128 * ks / scaleGroup m
    let g := k / scaleGroup m
    (at' (row * ga + g), at' (32 * ga + col * ga + g))

/-- Length of a sheet (14 R235). -/
def sheetLen (f : BitVec 128) : Nat :=
  let n := if wide16 (slotA f) || wide16 (slotB f) then 32 else 64
  if scaleGroup (slotScale f) = 0 then n else min n (scaleGroup (slotScale f))

/-- The main term of a row and column added to a word (14 R235, R236). -/
def MatrixEngine.mainTerm (e : MatrixEngine) (f : BitVec 128) (j : MmaJob) (a : List FVal) (row nb n : Nat) (acc : Word) : Word :=
  let b := e.bColumn j (slotB f) nb n
  if slotAcc f then intSum acc (products a b)
  else
    let len := sheetLen f
    let sheet (i : Nat) : FVal :=
      let ps := products ((a.drop (len * i)).take len) ((b.drop (len * i)).take len)
      let sc := e.scalesFor f j row nb n (len * i)
      scaledSum (sheetSum (wide16 (slotA f) || wide16 (slotB f)) ps) sc.1 sc.2
    foldSheets j.shape acc ((List.range (a.length / len)).map sheet)

/-- Change the 128 words of a row of a strip, and of its shadow in a launch with redundancy (14 R242). -/
def Strip.mapRow (st : Strip) (red : Bool) (row : Nat) (f : Nat → Word → Word) : Strip :=
  let go (t : Regs) : Regs := (List.range 128).foldl (fun t n => put0 t (128 * row + n) (f n (get0 t (128 * row + n)))) t
  { st with words := go st.words, shadow := if red then go st.shadow else st.shadow }

/-- Change a row of a strip of an engine. -/
def State.mapStrip (s : State) (r : Request) (nb row : Nat) (f : Nat → Word → Word) : State :=
  s.updEngine r.c.b.die r.c.b.site fun e =>
    let k := r.c.b.stripBase + r.j.acc + nb
    let st := ((tget e.strips k).getD Strip.fresh).mapRow r.c.l.record.red row f
    { e with strips := tput e.strips k { st with lastSlot := tput st.lastSlot row (descSbase r.j.desc) } }

/-! ### Filter terms (14 R238 to R241) -/

/-- Whether a cached slice serves a row (14 R241). -/
def CacheEntry.serves (x : CacheEntry) (world layer : Nat) (la : Latch) (k : Nat × Nat × Nat) : Bool :=
  decide (x.world = world) && decide (x.id = la.id) && decide (x.layer = layer) && decide (x.kb = k.1) &&
  decide (x.nb = k.2.1) && decide (x.half = k.2.2) && decide (x.gen = la.gen)

/-- The slice of a key. -/
def sliceOf (got : List CacheEntry) (k : Nat × Nat × Nat) : List Byte :=
  ((got.find? fun x => decide (x.kb = k.1) && decide (x.nb = k.2.1) && decide (x.half = k.2.2)).map CacheEntry.bytes).getD []

/-- Column c of D over the instruction's K, from the slices of an n-block. -/
def dColumn (f : BitVec 128) (j : MmaJob) (got : List CacheEntry) (nb c : Nat) : List FVal :=
  ((List.range (descKs j.desc)).map fun i =>
    let sl := (sliceOf got (descKoff j.desc + i, nb, c / 16)).take (sliceD f)
    (List.range 128).map fun k => packedElem (slotFd f) sl (16 * k + c % 16)).flatten

/-- Column n of U, from the slices of k-block KOFF. -/
def uColumn (f : BitVec 128) (j : MmaJob) (got : List CacheEntry) (rank nb n : Nat) : List FVal :=
  (List.range rank).map fun c =>
    let sl := (sliceOf got (descKoff j.desc, nb, c / 16)).drop (sliceD f)
    packedElem (slotFu f) sl (128 * (c % 16) + n)

/-- Apply the filter terms of a row to every n-block (14 R240). -/
def State.filterRow (s : State) (r : Request) (la : Latch) (got : List CacheEntry) (a : List FVal) : List Nat → State
  | [] => s
  | nb :: rest =>
    let f := r.c.l.record.fslot r.j.fslot
    let wide := wide16 (slotA f) || wide16 (slotFd f)
    let rank := if la.rank32 then 32 else 16
    let h := (List.range rank).map fun c => filterH wide r.j.shape a (dColumn f r.j got nb c)
    (s.mapStrip r nb la.row fun n x => filterAdd x la.alpha h (uColumn f r.j got rank nb n)).filterRow r la got a rest

/-- The row of a filter error as its fault record names it (19 R286). -/
def filterErrRow (row id acc : Nat) : Nat × Word := (row, BitVec.ofNat 32 (id % 65536 * 65536 + acc))

/-- Note a failing filter: the error names the strip and the row (14 R239). -/
def State.filterError (s : State) (op row id acc : Nat) (k : FaultKind) (addr : Nat) : State :=
  s.updOp op fun o => o.noteError k addr [filterErrRow row id acc]

/-- The elements of a lane's row of A. -/
def State.aElems (s : State) (r : Request) (lane : Nat) : List FVal :=
  packedElems (slotA (r.c.l.record.fslot r.j.fslot)) (s.aRow r lane) 0 (128 * descKs r.j.desc)

/-- The filter term of a row after its main term: applied, refused, or waiting for slices. -/
def State.filterTerm (s : State) (r : Request) (a : List FVal) (row : Nat) : State :=
  match (r.j.latches.getD []).find? fun la => decide (la.row = row) with
  | none => s
  | some la =>
    match la.bad with
    | some (k, addr) => s.filterError r.q.op row la.id r.j.acc k addr
    | none =>
      let e := s.engine r.c.b.die r.c.b.site
      let need := r.j.slices la.rank32
      let has (k : Nat × Nat × Nat) : Option CacheEntry :=
        e.cache.find? fun x => x.serves r.c.l.record.world (descLayer r.j.desc) la k
      let got := need.filterMap has
      let missing := need.filter fun k => (has k).isNone
      if missing = [] then s.filterRow r la got a (List.range (descNs r.j.desc))
      else s.updEngine r.c.b.die r.c.b.site fun e => { e with replays := e.replays ++ [⟨r.q.op, row, la, missing, got⟩] }

/-- The main terms of a row, then its filter term. -/
def State.passRow (s : State) (r : Request) (row : Nat) : State :=
  let f := r.c.l.record.fslot r.j.fslot
  let a := s.aElems r row
  let e := s.engine r.c.b.die r.c.b.site
  let s := (List.range (descNs r.j.desc)).foldl
    (fun s nb => s.mapStrip r nb row fun n x => e.mainTerm f r.j a row nb n x) s
  s.filterTerm r a row

/-- The rows of a request. -/
def State.passRows (s : State) (r : Request) : List Nat → State
  | [] => s
  | row :: rest => (s.passRow r row).passRows r rest

/-- A slot or strip of a request holds an uncorrectable error: it gets no term, and its batch is in error (19 R283,
notes/assumptions/45.md). -/
def MatrixEngine.softFor (e : MatrixEngine) (r : Request) : Bool :=
  meet e.soft ((r.c.o.work.slots r.c.l.record).map (16 + ·) ++ r.j.engineStrips r.c.b)

/-- The quarters of a pass, in the order in which they were posted, and those it leaves: one that adds into a row which
still awaits its filter term, of a request before it, stays until that has arrived (14 R225, R241; 17 R276). -/
def State.passQuarters (s : State) : List Quarter → State × List Quarter
  | [] => (s, [])
  | q :: rest =>
    match s.request? q with
    | none => s.passQuarters rest
    | some r =>
      if s.replayPending (s.engine r.c.b.die r.c.b.site) (r.j.engineStrips r.c.b) q.rows then (s, q :: rest)
      else
      let s := if (s.engine r.c.b.die r.c.b.site).softFor r then s.updOp q.op fun o => o.noteError .softError 0 []
        else s.passRows r (lanesOf q.rows)
      (s.updJob q.op fun j => { j with left := j.left.filter fun n => decide (n ≠ q.q) }).passQuarters rest

/-- Some quarters add into a row that a pass granted before is still to add into, or that awaits a replay: rows take
their passes in grant order, each main term and then its filter term (14 R225, R241). -/
def State.passHeld (s : State) (e : MatrixEngine) (id : Nat) (qs : List Quarter) : Bool :=
  let mine := qs.filterMap s.request?
  let before := ((e.passes.takeWhile fun p => decide (p.id ≠ id)).map Pass.quarters).flatten.filterMap s.request?
  mine.any fun r => s.replayPending e (r.j.engineStrips r.c.b) r.q.rows || before.any fun b => b.sameRows r

/-- PASS_COMPLETION (14 R232, R241): the rows receive their terms and the MRT entries free. -/
def execPassCompletion (die site pass : Nat) (s : State) : Host.Outcome State Fault Refusal :=
  match (s.engine die site).passes.find? fun p => decide (p.id = pass) with
  | none => .fault (.notEnabled "PASS_COMPLETION")
  | some p =>
    if s.passHeld (s.engine die site) pass p.quarters then .fault (.notEnabled "PASS_COMPLETION")
    else
      let (s, left) := s.passQuarters p.quarters
      let keep (x : Pass) : Option Pass := if x.id ≠ pass then some x else if left = [] then none else some { x with quarters := left }
      let s := s.updEngine die site fun e => { e with passes := e.passes.filterMap keep }
      let s := s.endMmas ((p.quarters.map Quarter.op).eraseDups)
      .next (s.postWaiting s.x.ops)

/-- An MMA that has not read the filter table may read it: the earlier operations of its warp that it must follow have
finished. -/
def State.mayLatch (s : State) (c : OpCtx) : Bool :=
  s.x.ops.all fun e => !(decide (e.ref = c.o.ref) && decide (e.id < c.o.id) && !e.finished && s.mainMeet c.l e c.o)

/-- FILTER_ENTRY_READ (14 R239): the entries of an MMA arrive at its engine. Their generations were latched at its
issue, or are now, where an earlier operation of the warp still had to write them. -/
def execFilterEntryRead (op : Nat) (s : State) : Host.Outcome State Fault Refusal :=
  match s.opCtx? op with
  | none => .fault (.notEnabled "FILTER_ENTRY_READ")
  | some c =>
    match c.o.job? with
    | none => .fault (.notEnabled "FILTER_ENTRY_READ")
    | some j =>
      if j.ready then .fault (.notEnabled "FILTER_ENTRY_READ")
      else if j.latches.isSome then .next (s.updJob op fun j => { j with ready := true })
      else if !s.mayLatch c then .fault (.notEnabled "FILTER_ENTRY_READ")
      else
        let (las, s) := s.readLatches c j j.ids
        .next (s.updJob op fun j => { j with latches := some las, ready := true })

/-- The generations that unfinished MMAs refer to. -/
def State.latchedGens (s : State) (world id : Nat) : List Nat :=
  (s.x.ops.map fun o =>
    match o.finished, o.job?, s.launch? o.ref.launch with
    | false, some j, some l =>
      if l.record.world = world then ((j.latches.getD []).filter fun la => decide (la.id = id)).map Latch.gen else []
    | _, _, _ => []).flatten

/-- Entries of 4 KiB that cached slices take. -/
def cacheUnits (xs : List CacheEntry) : Nat := (xs.map fun x => (x.bytes.length + 4095) / 4096).foldl (· + ·) 0

/-- Drop the oldest slices until the cache holds 128 entries. -/
def trimCache : List CacheEntry → List CacheEntry
  | [] => []
  | x :: r => if 128 < cacheUnits (x :: r) then trimCache r else x :: r

/-- Keep a slice that has arrived; slices of an old generation that nothing refers to go (14 R241). -/
def State.cacheSlice (s : State) (d site : Nat) (x : CacheEntry) : State :=
  let gens := s.latchedGens x.world x.id
  s.updEngine d site fun e =>
    let keep := e.cache.filter fun y =>
      !(decide (y.world = x.world) && decide (y.id = x.id) && decide (y.gen ≠ x.gen) && !(gens.contains y.gen))
    { e with cache := trimCache (keep ++ [x]) }

/-- A slice arrives for a replay: the replay applies the filter term when it has all of them. -/
def State.sliceArrives (s : State) (r : Request) (rp : Replay) (k : Nat × Nat × Nat) : State :=
  let f := r.c.l.record.fslot r.j.fslot
  let d := r.c.b.die
  let site := r.c.b.site
  let others (e : MatrixEngine) : List Replay := e.replays.filter fun x => !(decide (x.op = rp.op) && decide (x.row = rp.row))
  let v := s.readVa (some d) r.c.o.mmu r.c.l.record.world (sliceVa f rp.latch k) (sliceBytes f)
  match v.fault with
  | some (kind, a) =>
    let s := v.s.updEngine d site fun e => { e with replays := others e }
    (s.filterError rp.op rp.row rp.latch.id r.j.acc kind a).endMma rp.op
  | none =>
    let x : CacheEntry :=
      { world := r.c.l.record.world, id := rp.latch.id, layer := descLayer r.j.desc, kb := k.1, nb := k.2.1
        half := k.2.2, gen := rp.latch.gen, bytes := v.bytes }
    let s := v.s.cacheSlice d site x
    let rp' := { rp with missing := rp.missing.filter fun y => decide (y ≠ k), got := rp.got ++ [x] }
    if rp'.missing = [] then
      let s := s.filterRow r rp.latch rp'.got (s.aElems r rp.row) (List.range (descNs r.j.desc))
      (s.updEngine d site fun e => { e with replays := others e }).endMma rp.op
    else s.updEngine d site fun e => { e with replays := others e ++ [rp'] }

/-- FILTER_SLICE_ARRIVAL (14 R241): slice k of those that a row's replay lacks arrives. -/
def execFilterSliceArrival (op row k : Nat) (s : State) : Host.Outcome State Fault Refusal :=
  match s.opCtx? op with
  | none => .fault (.notEnabled "FILTER_SLICE_ARRIVAL")
  | some c =>
    let e := s.engine c.b.die c.b.site
    match c.o.job?, e.replays.find? fun r => decide (r.op = op) && decide (r.row = row) with
    | some j, some rp =>
      match rp.missing[k]? with
      | none => .fault (.notEnabled "FILTER_SLICE_ARRIVAL")
      | some key => .next (s.sliceArrives ⟨⟨op, row / 8, j.rows, 0, 0⟩, c, j⟩ rp key)
    | _, _ => .fault (.notEnabled "FILTER_SLICE_ARRIVAL")

/-! ### MZERO and MDRAIN (14 R237, 16 R265) -/

/-- MZERO. -/
def execMzero (m : Bool) (d : Field) (s : State) : Host.Outcome State Fault Refusal :=
  withCtx s fun c =>
    let n := d.toNat
    let v : Except (FaultKind × Word) (List Lock) :=
      if c.l.record.accn = 0 then .error (.slotInvalid, 0)
      else if c.l.record.accn ≤ n then .error (.outOfRange, 0)
      else if c.foreignStrip [n] then .error (.tripodScope, 0)
      else .ok []
    match v with
    | .error _ => c.engineIssue ⟨m, 4, [], []⟩ (.mzero n) false v
    | .ok _ => c.drained (({ c with s := c.s.noteAcc c.b none [n] }).engineIssue ⟨m, 4, [], []⟩ (.mzero n) false v)

/-- Fields of MDRAIN's OpB; a zero pitch means the row size. -/
def drainSlot (x : Word) : Nat := bits x.toNat 2 0
def drainRow (f : BitVec 128) : Nat := packedBytes (slotOut f) 128
def drainPitch (f : BitVec 128) (x : Word) : Nat := if bits x.toNat 31 16 = 0 then drainRow f else bits x.toNat 31 16

/-- Validation of an MDRAIN in the order of 14 R237. -/
def Ctx.drainCheck (c : Ctx) (n : Nat) (addr x : Word) : Except (FaultKind × Word) (List Lock) :=
  let f := c.l.record.fslot (drainSlot x)
  let last := (tget (c.s.engine c.b.die c.b.site).strips (c.b.stripBase + n)).bind Strip.lastAcc
  if c.l.record.accn = 0 then .error (.slotInvalid, 0)
  else if c.l.record.accn ≤ n then .error (.outOfRange, 0)
  else if addr.toNat % max (elemWidth (slotOut f) / 8) 1 ≠ 0 then .error (.misaligned, addr)
  else if drainPitch f x < drainRow f ∨ bits x.toNat 15 3 ≠ 0 then .error (.badCommand, 0)
  else if !slotLegal f || (last.isSome && decide (last ≠ some (slotAcc f))) then .error (.slotInvalid, 0)
  else
    match c.locksFor [(addr.toNat, 31 * drainPitch f x + drainRow f, true)] with
    | .error e => .error e
    | .ok zs => if c.foreign zs || c.foreignStrip [n] then .error (.tripodScope, 0) else .ok zs

/-- MDRAIN. -/
def execMdrain (m : Bool) (d a : Field) (b : Src) (s : State) : Host.Outcome State Fault Refusal :=
  withCtx s fun c =>
    let addr := c.sr a.toNat
    let x := c.sb b
    let v := c.drainCheck d.toNat addr x
    let ext := match v with | .ok zs => spadDest zs | .error _ => false
    c.engineIssue ⟨m, b.len, [], sRd a :: b.sregs⟩ (.mdrain d.toNat addr x c.sat) ext v

/-- One drained row: Round(word, OTYPE, RNE, SAT) of its 128 words. -/
def drainBytes (f : BitVec 128) (sat : Bool) (words : Regs) (row : Nat) : List Byte :=
  let src := if slotAcc f then 0 else 6
  ((List.range 128).map fun n =>
    leBytes (elemWidth (slotOut f) / 8) (roundTo (slotOut f) 0 sat (elemExact src (get0 words (128 * row + n)).toNat)).1).flatten

/-- Whether a row of a strip equals its shadow. -/
def Strip.rowMatches (st : Strip) (row : Nat) : Bool :=
  (List.range 128).all fun n => decide (get0 st.words (128 * row + n) = get0 st.shadow (128 * row + n))

/-- The rows of a drain in ascending order; a row that differs from its shadow is not written. -/
def State.drainRows (s : State) (c : OpCtx) (st : Strip) (f : BitVec 128) (x : Word) (sat : Bool) (z : Lock) :
    List Nat → State
  | [] => s
  | r :: rs =>
    if c.l.record.red && !st.rowMatches r then s.drainRows c st f x sat z rs
    else (s.opWrite c.l c.o z.place (z.lo + r * drainPitch f x) (drainBytes f sat st.words r)).drainRows c st f x sat z rs

/-- The rows that a drain writes meet the watchpoints of the loupe core its warp was on at issue (20 R306). -/
def State.drainWatch (s : State) (c : OpCtx) (st : Strip) (f : BitVec 128) (x : Word) (soft : Bool) : State :=
  let rows := (List.range 32).filter fun r => !soft && !(c.l.record.red && !st.rowMatches r)
  match c.o.locks with
  | z :: _ => s.engineWrites c.b.die c.o.ref c.o.pc c.o.lcore
      (rows.map fun r => (z.x.toNat + r * drainPitch f x, drainRow f))
  | [] => s

/-- The error of a drain of a strip with a soft error, or whose rows differ from their shadow (14 R242, 19 R283,
R286). -/
def drainError (c : OpCtx) (st : Strip) (n : Nat) (soft : Bool) : Option BatchError :=
  let bad := (List.range 32).filter fun r => c.l.record.red && !st.rowMatches r
  if soft then some (c.o.error .softError 0)
  else if bad = [] then none
  else some { c.o.error .redundancyMismatch 0 with
    rows := bad.map fun r => (r, BitVec.ofNat 32 ((tget st.lastSlot r).getD 0 % 64 * 16 + n)) }

/-- A filter replay is pending for a strip of an engine. -/
def State.stripReplay (s : State) (e : MatrixEngine) (strip : Nat) : Bool := s.replayPending e [strip] 0xFFFFFFFF

/-- STRIP_OPERATION_COMPLETION: an MZERO or MDRAIN performs on its strip, between no row's main term and filter term
(14 R237, R241; 16 R265). -/
def execStripOperationCompletion (op : Nat) (s : State) : Host.Outcome State Fault Refusal :=
  match s.opCtx? op with
  | none => .fault (.notEnabled "STRIP_OPERATION_COMPLETION")
  | some c =>
    let e := s.engine c.b.die c.b.site
    if !s.mayPerform c.l c.o || c.o.work.strips.any fun n => s.stripReplay e (c.b.stripBase + n) then
      .fault (.notEnabled "STRIP_OPERATION_COMPLETION")
    else
      match c.o.work with
      | .mzero n =>
        let k := c.b.stripBase + n
        let st := (tget e.strips k).getD Strip.fresh
        let s := s.updEngine c.b.die c.b.site fun e =>
          { e with strips := tput e.strips k { st with words := [], shadow := [] }
                   soft := e.soft.filter fun x => decide (x ≠ k) }
        .next (s.finishOp op none)
      | .mdrain n _ x sat =>
        let st := (tget e.strips (c.b.stripBase + n)).getD Strip.fresh
        let soft := e.soft.contains (c.b.stripBase + n)
        let err := drainError c st n soft
        let s := match soft, c.o.locks with
          | false, z :: _ => s.drainRows c st (c.l.record.fslot (drainSlot x)) x sat z (List.range 32)
          | _, _ => s
        let s := if c.l.record.tripod then s else s.drainWatch c st (c.l.record.fslot (drainSlot x)) x soft
        .next (s.finishOp op err)
      | _ => .fault (.notEnabled "STRIP_OPERATION_COMPLETION")

/-! ### The periodic check (14 R243) -/

/-- Clocks between two checks. -/
def checkPeriod : Nat := 2100000

/-- Fence the banks of a list and log each. -/
def State.fenceBanks (s : State) (d site : Nat) : List Nat → State
  | [] => s
  | b :: r => ((s.updEngine d site fun e => { e with fenced := e.fenced ++ [b] }).logEvent (.bankFenced d site b)).fenceBanks d site r

/-- BANK_PERIODIC_CHECK: every 2,100,000 clocks the free banks run a known product; the bits of wrong name
those whose product is wrong. -/
def execBankPeriodicCheck (die site : Nat) (wrong : DWord) (s : State) : Host.Outcome State Fault Refusal :=
  if checkPeriod ≤ (s.time - (s.engine die site).lastCheck).toNat then
    let bad := (s.freeBanks die site).filter fun b => wrong.getLsbD b
    let s := s.updEngine die site fun e => { e with lastCheck := s.time }
    .next (s.fenceBanks die site bad)
  else .fault (.notEnabled "BANK_PERIODIC_CHECK")

end Sys2Proof.Machine
end

