-- ==== Sys2Proof/Machine/Splice.lean ====
section
/-! DEFINITION. The splice engine (15): forests, walks and the log, UNITE, FIND, CSIZE, SNAP, UNDO as requests
that the engine applies, SPINIT and RELAB as engine operations (16 R266 to R270). -/

namespace Sys2Proof.Machine

/-! ### Forests (15 R246, R247) -/

/-- n bytes of a forest as the engine reads them. -/
def State.fRead (s : State) (t : ForestAt) (pl : Place) (a n : Nat) : Nat := leNat (s.blockView t.l t.block pl a n)

/-- Write bytes of a forest: under tripod into the block's layer (10 R187). -/
def State.fWrite (s : State) (t : ForestAt) (pl : Place) (a : Nat) (bs : List Byte) : State :=
  if t.l.record.tripod then s.applyEntry t.l.uid t.block (.store pl a bs) else s.writePlace pl a bs

/-- Parent and size of an element. -/
def State.parent (s : State) (t : ForestAt) (i : Nat) : Nat := s.fRead t t.rec'.1 (t.rec'.2 + 8 * i) 4
def State.size (s : State) (t : ForestAt) (i : Nat) : Nat := s.fRead t t.rec'.1 (t.rec'.2 + 8 * i + 4) 4

/-- Set the parent, the size of an element. -/
def State.setParent (s : State) (t : ForestAt) (i p : Nat) : State := s.fWrite t t.rec'.1 (t.rec'.2 + 8 * i) (leBytes 4 p)
def State.setSize (s : State) (t : ForestAt) (i n : Nat) : State := s.fWrite t t.rec'.1 (t.rec'.2 + 8 * i + 4) (leBytes 4 n)

/-- HEAD and OPEN of the log. -/
def State.head (s : State) (t : ForestAt) : Nat := s.fRead t t.log.1 t.log.2 4
def State.logOpen (s : State) (t : ForestAt) : Bool := decide (s.fRead t t.log.1 (t.log.2 + 4) 1 % 2 = 1)

/-- Write the log header. -/
def State.setHead (s : State) (t : ForestAt) (head : Nat) (isOpen : Bool) : State :=
  s.fWrite t t.log.1 t.log.2 (leBytes 16 (head + b2n isOpen * 2 ^ 32))

/-! ### The log (15 R251) -/

/-- Log(y): append the element's parent and size while the log is open; none when no entry is free. -/
def State.logElem (s : State) (t : ForestAt) (y : Nat) : Option State :=
  if !s.logOpen t then some s
  else
    let h := s.head t
    if t.f.logCap ≤ h then none
    else
      let s := s.fWrite t t.log.1 (t.log.2 + 16 + 16 * h) (leBytes 16 (y + s.parent t y * 2 ^ 32 + s.size t y * 2 ^ 64))
      some (s.setHead t (h + 1) true)

/-! ### Walks (15 R248, R249) -/

/-- Whether a plain write has touched what stands at an offset of a scratchpad. -/
def State.spoiltAt (s : State) (pl : Place) (off : Nat) : Bool :=
  match pl with
  | .bsm _ _ => false
  | .spad u k => ((s.span? u k).map fun x => x.broken.contains off).getD false

/-- Remember offsets of a scratchpad as touched. -/
def State.markBroken (s : State) (pl : Place) (offs : List Nat) : State :=
  match pl with
  | .bsm _ _ => s
  | .spad u k => s.updSpan u k fun x => { x with broken := (x.broken ++ offs).eraseDups }

/-- The engine has written n bytes of a scratchpad anew. -/
def State.mended (s : State) (pl : Place) (off n : Nat) : State :=
  match pl with
  | .bsm _ _ => s
  | .spad u k => s.updSpan u k fun x => { x with broken := x.broken.filter fun o => !(decide (off ≤ o) && decide (o < off + n)) }

/-- A forest's records or log share a byte with [off, off + n) of a place. -/
def ForestAt.holds (t : ForestAt) (pl : Place) (off n : Nat) : Bool :=
  (decide (t.rec'.1 = pl) && overlaps t.rec'.2 t.f.recBytes off n) ||
  (decide (t.log.1 = pl) && overlaps t.log.2 t.f.logBytes off n)

/-- An element whose class splice results do not know: a plain write has met its record (15 R248), or another warp has
bound a forest that shares it and differs (16 R266). -/
def State.spoilt (s : State) (t : ForestAt) (i : Nat) : Bool :=
  s.spoiltAt t.rec'.1 (t.rec'.2 + 8 * i) ||
  (s.boundForests t.l).any fun u => decide (u.f ≠ t.f) && u.holds t.rec'.1 (t.rec'.2 + 8 * i) 8

/-- The same of the log. -/
def State.logSpoilt (s : State) (t : ForestAt) : Bool :=
  s.spoiltAt t.log.1 t.log.2 || (s.boundForests t.l).any fun u => decide (u.f ≠ t.f) && u.holds t.log.1 t.log.2 t.f.logBytes

/-- The elements from x to its root, x first and the root not among them, and the root; the record address at
which a walk breaks. The number bounds the steps. -/
def State.walkForest (s : State) (t : ForestAt) : Nat → Nat → Except Nat (List Nat × Nat)
  | n, x =>
    let p := s.parent t x
    if p = x then .ok ([], x)
    else
      match n with
      | 0 => .error (t.f.base.toNat + 8 * x)
      | n + 1 =>
        if t.f.count ≤ p then .error (t.f.base.toNat + 8 * x)
        else
          match s.walkForest t n p with
          | .error e => .error e
          | .ok (path, r) => .ok (x :: path, r)

/-- A walk from an index: one at or above COUNT gives itself as the error's address. -/
def State.root (s : State) (t : ForestAt) (x : Nat) : Except Nat (List Nat × Nat) :=
  if t.f.count ≤ x then .error x else s.walkForest t t.f.count x

/-- The elements that walks from indices pass. -/
def State.walked (s : State) (t : ForestAt) (xs : List Nat) : List Nat :=
  ((xs.map fun x => match s.root t x with | .ok (path, r) => path ++ [r] | .error _ => []).flatten).eraseDups

/-- Compression of a path: it stops where an entry does not fit the log. -/
def State.compress (s : State) (t : ForestAt) (r : Nat) : List Nat → State
  | [] => s
  | y :: ys =>
    if s.parent t y = r then s.compress t r ys
    else
      match s.logElem t y with
      | none => s
      | some s => (s.setParent t y r).compress t r ys

/-- Winner (15 R250). -/
def State.winner (s : State) (t : ForestAt) (a b : Nat) : Nat :=
  if t.f.bySize ∧ s.size t a ≠ s.size t b then (if s.size t b < s.size t a then a else b) else min a b

/-- The result of one lane of a splice operation. -/
abbrev LaneSplice := Except (FaultKind × Nat) Word × State

/-- FIND, in one lane. -/
def State.findLane (s : State) (t : ForestAt) (x : Word) : LaneSplice :=
  match s.root t x.toNat with
  | .error a => (.error (.spliceIndex, a), s)
  | .ok (path, r) => (.ok (BitVec.ofNat 32 r), s.compress t r path)

/-- CSIZE, in one lane. -/
def State.csizeLane (s : State) (t : ForestAt) (x : Word) : LaneSplice :=
  match s.root t x.toNat with
  | .error a => (.error (.spliceIndex, a), s)
  | .ok (path, r) => let s := s.compress t r path; (.ok (BitVec.ofNat 32 (s.size t r)), s)

/-- The merge of two roots: loser's entry first (15 R249). -/
def State.merge (s : State) (t : ForestAt) (a b : Nat) : LaneSplice :=
  let w := s.winner t a b
  let o := if w = a then b else a
  if s.logOpen t ∧ t.f.logCap < s.head t + 2 then (.error (.spliceLogFull, t.f.logBase.toNat), s)
  else
    let s := (s.logElem t o).getD s
    let s := (s.logElem t w).getD s
    let n := (s.size t w + s.size t o) % 2 ^ 32
    (.ok (BitVec.ofNat 32 (w + 2 ^ 31)), (s.setParent t o w).setSize t w n)

/-- UNITE, in one lane: both walks are made before anything changes (15 R248). -/
def State.uniteLane (s : State) (t : ForestAt) (x y : Word) : LaneSplice :=
  match s.root t x.toNat, s.root t y.toNat with
  | .error a, _ => (.error (.spliceIndex, a), s)
  | _, .error b => (.error (.spliceIndex, b), s)
  | .ok (pa, a), .ok _ =>
    let s := s.compress t a pa
    match s.root t y.toNat with
    | .error b => (.error (.spliceIndex, b), s)
    | .ok (pb, b) =>
      let s := s.compress t b pb
      if a = b then (.ok (BitVec.ofNat 32 a), s) else s.merge t a b

/-! ### Applying a request -/

/-- A lane's result where its walks, from indices xs in the state s0, meet an element that a plain write has touched:
undefined, here a free word, and the class it leaves is touched too (15 R248). -/
def State.spoiltLane (s0 s : State) (t : ForestAt) (xs : List Nat) (lane : Nat) (v : Word) : Word × State :=
  let es := s0.walked t xs
  if es.any (s0.spoilt t) then
    (Config.freeWord s0.free (600000 + lane),
     s.markBroken t.rec'.1 ((es ++ s.walked t xs).map fun i => t.rec'.2 + 8 * i))
  else (v, s)

/-- Lanes in ascending order as one sequence (15 R249); idx gives the indices that a lane walks from. -/
def State.spliceLanes (s : State) (t : ForestAt) (d : Nat) (idx : Word × Word → List Nat)
    (f : State → ForestAt → Word × Word → LaneSplice) : List (Nat × Word × Word) → LaneOut × State
  | [] => (⟨[], []⟩, s)
  | (l, xy) :: r =>
    match f s t xy with
    | (.error (k, a), s) =>
      let (o, s) := s.spliceLanes t d idx f r
      (⟨o.writes, ⟨l, k, 0, BitVec.ofNat 32 a⟩ :: o.faults⟩, s)
    | (.ok v, s') =>
      let (v, s') := s.spoiltLane s' t (idx xy) l v
      let (o, s') := s'.spliceLanes t d idx f r
      (⟨(.v d l, v) :: o.writes, o.faults⟩, s')

/-- Every lane faults alike. -/
def allFault (k : FaultKind) (lanes : List Nat) : LaneOut := ⟨[], faultsOf k lanes⟩

/-- The result of a splice operation: register writes and lane faults, or a fault of the path. -/
inductive SpliceRes where
  | lanes (o : LaneOut)
  | path (k : FaultKind) (addr : Word)
  deriving DecidableEq, Repr

/-- Log entry k. -/
def State.logEntry (s : State) (t : ForestAt) (k : Nat) : Nat := s.fRead t t.log.1 (t.log.2 + 16 + 16 * k) 16

/-- Restore log entries h - 1 down to m (15 R252). The first number counts them. What a log that a plain write has
touched restores is undefined (R248). -/
def State.undoTo (s : State) (t : ForestAt) : Nat → Nat → State
  | 0, _ => s
  | n + 1, m =>
    let e := s.logEntry t (m + n)
    let s := if bits e 31 0 < t.f.count then
        let s' := (s.setParent t (bits e 31 0) (bits e 63 32)).setSize t (bits e 31 0) (bits e 95 64)
        if s.logSpoilt t then s'.markBroken t.rec'.1 [t.rec'.2 + 8 * bits e 31 0] else s'
      else s
    s.undoTo t n m

/-- Another block of a tripod launch has bound a forest that meets this one (15 R254). -/
def State.foreignForest (s : State) (t : ForestAt) : Bool :=
  t.l.record.tripod && s.x.warps.any fun w =>
    decide (w.ref.launch = t.l.uid) && decide (w.ref.block ≠ t.block) && !w.ended &&
    (match w.forest.bind fun f => f.at? t.l w.ref.block with
      | some u => u.meets t
      | none => false)

/-- A lane operation on a forest. -/
def State.laneWork (s : State) (t : Option ForestAt) (d : Nat) (args : List (Nat × Word × Word))
    (idx : Word × Word → List Nat) (f : State → ForestAt → Word × Word → LaneSplice) : SpliceRes × State :=
  match t with
  | none => (.lanes (allFault .spliceIndex (args.map Prod.fst)), s)
  | some t =>
    if s.foreignForest t then (.lanes (allFault .tripodScope (args.map Prod.fst)), s)
    else let (o, s) := s.spliceLanes t d idx f args; (.lanes o, s)

/-- The indices that a splice operation walks from, in each lane. -/
def pairIdx (x : Word × Word) : List Nat := [x.1.toNat, x.2.toNat]
def oneIdx (x : Word × Word) : List Nat := [x.1.toNat]

/-- What the engine does for a request. -/
def State.spliceWork (s : State) (t : Option ForestAt) (k : SpliceWork) : SpliceRes × State :=
  match k with
  | .unite d args => s.laneWork t d args pairIdx fun s t x => s.uniteLane t x.1 x.2
  | .find d args => s.laneWork t d (args.map fun x => (x.1, x.2, 0)) oneIdx fun s t x => s.findLane t x.1
  | .csize d args => s.laneWork t d (args.map fun x => (x.1, x.2, 0)) oneIdx fun s t x => s.csizeLane t x.1
  | .snap d =>
    match t with
    | none => (.path .spliceIndex 0, s)
    | some t =>
      if s.foreignForest t then (.path .tripodScope 0, s)
      else if t.f.logCap = 0 then (.path .spliceLogFull t.f.logBase, s)
      else
        let h := s.head t
        let v := if s.logSpoilt t then Config.freeWord s.free 600032 else BitVec.ofNat 32 h
        (.lanes ⟨[(.s d, v)], []⟩, if s.logOpen t then s else s.setHead t h true)
  | .undo m =>
    match t with
    | none => (.path .spliceIndex 0, s)
    | some t =>
      if s.foreignForest t then (.path .tripodScope 0, s)
      else if m = 0xFFFFFFFF then (.lanes ⟨[], []⟩, s.setHead t 0 false)
      else if s.logOpen t ∧ m.toNat ≤ s.head t then
        (.lanes ⟨[], []⟩, (s.undoTo t (s.head t - m.toNat) m.toNat).setHead t m.toNat true)
      else (.path .spliceIndex m, s)

/-- The elements that a splice operation may write: those its walks pass, those that its log entries name. -/
def State.spliceElems (s : State) (t : ForestAt) : SpliceWork → List Nat
  | .unite _ args => s.walked t ((args.map fun x => pairIdx x.2).flatten)
  | .find _ args => s.walked t (args.map fun x => x.2.toNat)
  | .csize _ args => s.walked t (args.map fun x => x.2.toNat)
  | .snap _ => []
  | .undo m => ((List.range (s.head t - m.toNat)).map fun k => bits (s.logEntry t (m.toNat + k)) 31 0).eraseDups

/-- The local ranges that a splice operation has written between two states. An UNDO that restores writes both words of
every entry's element, whether they change or not (15 R252); every other write changes its word. -/
def State.spliceWrites (s s' : State) (t : ForestAt) (k : SpliceWork) (done : Bool) : List (Nat × Nat) :=
  let es := s.spliceElems t k
  (match k with
  | .undo m => if done ∧ m ≠ 0xFFFFFFFF then es.map fun i => (t.f.base.toNat + 8 * i, 8) else []
  | _ => (es.map fun i =>
      (if s.parent t i = s'.parent t i then [] else [(t.f.base.toNat + 8 * i, 4)]) ++
      (if s.size t i = s'.size t i then [] else [(t.f.base.toNat + 8 * i + 4, 4)])).flatten) ++
  (if s.head t = s'.head t ∧ s.logOpen t = s'.logOpen t then [] else [(t.f.logBase.toNat, 16)]) ++
  (List.range (s'.head t - s.head t)).map fun k => (t.f.logBase.toNat + 16 + 16 * (s.head t + k), 16)

/-- Whether an operation's result leaves its path waiting: UNDO's does, and every one's in a tripod launch, where
frames commit it (15 R254, 16 R269). -/
def SpliceWork.parks (k : SpliceWork) (tripod : Bool) : Bool :=
  tripod || (match k with | .undo _ => true | _ => false)

/-- The fault that a splice operation ends in, if any, for lanes of its path (16 R267, R269). -/
def SpliceReq.fault (q : SpliceReq) (lanes : LaneMask) : SpliceRes → Option LateFault
  | .path k a => some ⟨q.pc, .path, k, [⟨lowestLane lanes, k, 0, a⟩], lanes⟩
  | .lanes o =>
    match sortFaults (o.faults ++ faultsOf .softError (lanesOf q.soft)) with
    | [] => none
    | e :: es => some ⟨q.pc, .lane, e.kind, e :: es, faultMask (e :: es)⟩

/-- The register writes of a splice operation's result. -/
def SpliceRes.writes : SpliceRes → List (WTarget × Word)
  | .lanes o => o.writes
  | .path _ _ => []

/-- The path that a splice operation has left behind has its results (16 R267, R269): values that have yet to land, and a
fault that has yet to be delivered. A marker's park ends when nothing is outstanding (04 R65). -/
def Path.spliced (p : Path) (id : Nat) (pc : Word) (ws : List (WTarget × Word)) (e : Option LateFault) : Path :=
  let rest := p.pending.filter fun n => decide (n ≠ id)
  let writes := p.writes ++ ws.map fun x => ⟨x.1, x.2, pc, nextNo p.writes⟩
  { p with
    pending := rest, writes := writes, late := p.late ++ e.toList
    park := if writes = [] ∧ rest = [] ∧ p.park = .marker then .none else p.park }

/-- The results of an operation whose instruction has retired. -/
def Ctx.lateSplice (c : Ctx) (s : State) (q : SpliceReq) (r : SpliceRes) : State :=
  (s.updPath q.ref q.slot fun p => p.spliced q.id q.pc r.writes (q.fault c.p.lanes r)).bump

/-- An UNDO that faults goes no further than its NPC, where its fault is delivered. -/
def Ctx.undoFault (c : Ctx) (s : State) (q : SpliceReq) (r : SpliceRes) : State :=
  (s.updPath q.ref q.slot fun p =>
    { p.goOn (c.next q.len) with late := p.late ++ (q.fault c.p.lanes r).toList }).bump

/-- The engine applies a request: its records change, and its instruction has its results (15 R249). When nothing is
outstanding any more, what had to wait for it issues again. -/
def State.applySplice (s : State) (q : SpliceReq) : State :=
  let s : State := { s with x := { s.x with splices := s.x.splices.filter fun x => decide (x.id ≠ q.id) } }
  let s := if s.splicing q.ref then s else s.unpark q.ref .drain
  match s.ctxAt? q.ref q.slot with
  | none => s
  | some c =>
    let t := q.forest.bind fun f => f.at? c.l q.ref.block
    let (r, s') := s.spliceWork t q.work
    let s' := match t with
      | none => s'
      | some t => s'.engineWrites (s.dieOf q.ref) q.ref q.pc q.lcore
          (s.spliceWrites s' t q.work (match r with | .lanes _ => true | .path _ _ => false))
    let sh : Shape := ⟨q.mark, q.len, [], []⟩
    if !q.work.parks c.l.record.tripod then c.lateSplice s' q r
    else
      match r, q.work with
      | .path k a, .undo _ => if c.l.record.tripod then c.pathFault s' k 0 a sh else c.undoFault s' q r
      | .path k a, _ => c.pathFault s' k 0 a sh
      | .lanes _, .undo _ => c.waitDone s' q.len
      | .lanes o, _ =>
        c.completeLanes s' sh q.active { o with faults := sortFaults (o.faults ++ faultsOf .softError (lanesOf q.soft)) }

/-- Whether a request must wait for an initialising operation or a RELAB on its forest (15 R253, 16 R266).
In tripod mode a RELAB runs at a commit, as one step, and holds nothing up. -/
def State.spliceWaits (s : State) (q : SpliceReq) : Bool :=
  match s.launch? q.ref.launch with
  | some l =>
    match q.forest.bind fun f => f.at? l q.ref.block with
    | none => false
    | some t => s.x.ops.any fun o => !o.finished &&
      (match s.launch? o.ref.launch, o.work with
        | some k, .spinit f => ((f.at? k o.ref.block).map fun u => u.meets t).getD false
        | some k, .relab f _ => !l.record.tripod && ((f.at? k o.ref.block).map fun u => u.meets t).getD false
        | _, _ => false)
  | none => false

/-- SPLICE_APPLY (15 R249): the operations of one warp apply in issue order; in tripod mode a commit applies
them (R254). None does while a watchpoint event holds an instruction of the warp (23 R335). -/
def execSpliceApply (req : Nat) (s : State) : Host.Outcome State Fault Refusal :=
  match findBy SpliceReq.id req s.x.splices with
  | none => .fault (.notEnabled "SPLICE_APPLY")
  | some q =>
    let tripod := ((s.launch? q.ref.launch).map fun l => l.record.tripod).getD false
    let held := ((s.warp? q.ref).map Warp.heldAt).getD false
    if tripod || held || s.spliceWaits q || s.x.splices.any fun x => decide (x.ref = q.ref) && decide (x.id < q.id) then
      .fault (.notEnabled "SPLICE_APPLY")
    else .next (s.applySplice q)

/-! ### Sending a request -/

/-- A path whose splice operation is on its way: the destination is outstanding until it has been applied
(16 R267, R269). -/
def Path.owe (p : Path) (id : Nat) (pc : Word) (dest : List Nat) : Path :=
  { p with
    pending := p.pending ++ [id]
    uncovered := (p.uncovered.filter fun u => !(dest.contains u.dest)) ++ dest.map fun n => ⟨n, pc⟩ }

/-- The issuing path sends a splice operation that writes the register named: its result is outstanding, and the path
goes on; at an UNDO it waits, and in tripod mode too, where its frame ends first (15 R254). The scratchpad is written
(15 R255, 19 R291). -/
def Ctx.sendSplice (c : Ctx) (sh : Shape) (dest : Option Nat) (soft : LaneMask) (k : SpliceWork) : State :=
  let parks := k.parks c.l.record.tripod
  let s := c.traceHazards (c.disarm soft) c.active sh.reads (if parks then [] else dest.toList)
  let q : SpliceReq :=
    ⟨s.nextOp, c.ref, c.slot, c.p.pc, sh.m, sh.len, c.active, soft, c.w.forest, c.w.transfer?, k⟩
  let s := { s with nextOp := s.nextOp + 1, x := { s.x with splices := s.x.splices ++ [q] } }
  let s := s.updBlock c.ref.launch c.ref.block fun b => { b with ext := true }
  let s := if c.l.record.tripod then
      s.updWarp c.ref fun w => { w with frame := { w.frame.finish with splice := some q.id } }
    else s
  if parks then c.parkAt s (.splice q.id)
  else
    let s := s.updPath c.ref c.slot fun p => p.owe q.id q.pc dest.toList
    let s := s.retireTo c.ref c.slot c.active c.p.pc dest 0 (c.next sh.len)
    (s.updPath c.ref c.slot fun p => p.mark sh.m).bump

/-- UNITE (16 R267). -/
def execUnite (m : Bool) (d a : Field) (b : Src) (s : State) : Host.Outcome State Fault Refusal :=
  let sh := Shape.vvv m false d a b
  issueOp s sh anyType fun c => c.guarded sh <|
    let soft := c.softLanes sh.reads c.active
    c.sendSplice { sh with reads := sh.reads ++ c.guardReads } (some d.toNat) soft
      (.unite d.toNat ((lanesOf (c.active &&& ~~~soft)).map fun l => (l, c.v a.toNat l, c.vb b l)))

/-- FIND and CSIZE (16 R267). -/
def spliceRead (m : Bool) (d a : Field) (k : Nat → List (Nat × Word) → SpliceWork) (s : State) :
    Host.Outcome State Fault Refusal :=
  let sh := Shape.vv m d a
  issueOp s sh anyType fun c => c.guarded sh <|
    let soft := c.softLanes sh.reads c.active
    c.sendSplice { sh with reads := sh.reads ++ c.guardReads } (some d.toNat) soft
      (k d.toNat ((lanesOf (c.active &&& ~~~soft)).map fun l => (l, c.v a.toNat l)))

/-- FIND (16 R267). -/
def execFind (m : Bool) (d a : Field) (s : State) : Host.Outcome State Fault Refusal := spliceRead m d a .find s

/-- CSIZE (16 R267). -/
def execCsize (m : Bool) (d a : Field) (s : State) : Host.Outcome State Fault Refusal := spliceRead m d a .csize s

/-- SNAP (15 R251, 16 R269). -/
def execSnap (m : Bool) (d : Field) (s : State) : Host.Outcome State Fault Refusal :=
  withCtx s fun c => c.sendSplice ⟨m, 4, [], []⟩ (some (256 + d.toNat)) 0 (.snap d.toNat)

/-- UNDO (15 R252, 16 R269). -/
def execUndo (m : Bool) (b : Src) (s : State) : Host.Outcome State Fault Refusal :=
  withCtx s fun c => c.sound ⟨m, b.len, [], b.sregs⟩ <| c.sendSplice ⟨m, b.len, [], b.sregs⟩ none 0 (.undo (c.sb b))

/-! ### SPINIT (15 R246, 16 R266) -/

/-- The forest descriptor of a group of four words. -/
def forestOf (w0 w1 w2 w3 : Word) : Forest := ⟨w0, w1.getLsbD 31, bits w1.toNat 21 0, w2, w3.toNat⟩

/-- The fields of a descriptor break R246. -/
def forestBad (w0 w1 w2 w3 : Word) : Bool :=
  decide (bits w0.toNat 31 28 ≠ 2) || decide (w0.toNat % 8 ≠ 0) || decide (bits w1.toNat 29 22 ≠ 0) ||
  decide (bits w1.toNat 21 0 = 0) || decide (2097152 < bits w1.toNat 21 0) ||
  decide (bits w2.toNat 31 28 ≠ 2) || decide (w2.toNat % 16 ≠ 0) || decide (2 ^ 20 < w3.toNat)

/-- The fault of a SPINIT with its address, or the forest as it lies. -/
def Ctx.spinitCheck (c : Ctx) (w0 w1 w2 w3 : Word) : Except (FaultKind × Word) ForestAt :=
  let f := forestOf w0 w1 w2 w3
  if forestBad w0 w1 w2 w3 then .error (.badCommand, 0)
  else
    match localPlace c.l c.ref.block f.base f.recBytes, localPlace c.l c.ref.block f.logBase f.logBytes with
    | none, _ => .error (.outOfRange, w0)
    | some _, none => .error (.outOfRange, w2)
    | some r, some g =>
      if overlaps r.2 f.recBytes g.2 f.logBytes then .error (.outOfRange, w2)
      else if c.s.foreignForest ⟨c.l, c.ref.block, f, r, g⟩ then .error (.tripodScope, 0)
      else .ok ⟨c.l, c.ref.block, f, r, g⟩

/-- SPINIT: binds the forest; with INIT its initialising operation joins the open batch. -/
def execSpinit (m : Bool) (a : Field) (s : State) : Host.Outcome State Fault Refusal :=
  withCtx s fun c =>
    let n := a.toNat
    let w (k : Nat) : Word := c.sr (n + k)
    let sh : Shape := ⟨m, 4, [], (List.range 4).map fun k => 256 + n + k⟩
    c.sound sh <| match c.spinitCheck (w 0) (w 1) (w 2) (w 3) with
    | .error (k, x) => c.pathFault c.s k 0 x sh
    | .ok t =>
      let s := c.s.updWarp c.ref fun w => { w with forest := some t.f }
      if (w 1).getLsbD 30 then c.drained <|
        let locks : List Lock :=
          [⟨t.f.base, t.rec'.1, t.rec'.2, t.f.recBytes, true, c.b.coreKey⟩,
           ⟨t.f.logBase, t.log.1, t.log.2, t.f.logBytes, true, c.b.coreKey⟩]
        ({ c with s := s } : Ctx).engineIssue sh (.spinit t.f) true (.ok locks)
      else c.issued s sh

/-- Every record as (parent = i, size = 1), from element i on; the number counts them. -/
def freshRecords : Nat → Nat → List Byte
  | 0, _ => []
  | n + 1, i => leBytes 8 (i + 2 ^ 32) ++ freshRecords n (i + 1)

/-- A pending RELAB or initialising operation issued before this one, by whatever warp, on a forest that meets its own:
they run one after the other (15 R253, 16 R266). In tripod mode commits order them. -/
def State.forestWaits (s : State) (l : Launch) (o : EngineOp) (t : ForestAt) : Bool :=
  !l.record.tripod && s.x.ops.any fun e => !e.finished && decide (e.id < o.id) &&
    (match s.launch? e.ref.launch, e.work with
      | some k, .spinit f => ((f.at? k e.ref.block).map fun u => u.meets t).getD false
      | some k, .relab f _ => ((f.at? k e.ref.block).map fun u => u.meets t).getD false
      | _, _ => false)

/-- A forest after its initialising operation: no plain write has touched it since. -/
def State.mendForest (s : State) (t : ForestAt) : State :=
  (s.mended t.rec'.1 t.rec'.2 t.f.recBytes).mended t.log.1 t.log.2 t.f.logBytes

/-- SPINIT_INIT_COMPLETION (15 R246): in tripod mode its writes wait for a commit (13 R222). -/
def execSpinitInitCompletion (op : Nat) (s : State) : Host.Outcome State Fault Refusal :=
  match s.opCtx? op with
  | none => .fault (.notEnabled "SPINIT_INIT_COMPLETION")
  | some c =>
    match c.o.work with
    | .spinit f =>
      match s.mayPerform c.l c.o, f.at? c.l c.o.ref.block with
      | true, some t =>
        if s.forestWaits c.l c.o t then .fault (.notEnabled "SPINIT_INIT_COMPLETION")
        else
          let rs := freshRecords f.count 0
          let s := if c.l.record.tripod then
              s.updOp op fun x => { x with pendingWrites := [.store t.rec'.1 t.rec'.2 rs, .store t.log.1 t.log.2 (leBytes 16 0)] }
            else (((s.writePlace t.rec'.1 t.rec'.2 rs).writePlace t.log.1 t.log.2 (leBytes 16 0)).mendForest t).engineWrites
              (s.dieOf c.o.ref) c.o.ref c.o.pc c.o.lcore [(f.base.toNat, f.recBytes), (f.logBase.toNat, 16)]
          .next (s.endWork c.l c.o 0 none)
      | _, _ => .fault (.notEnabled "SPINIT_INIT_COMPLETION")
    | _ => .fault (.notEnabled "SPINIT_INIT_COMPLETION")

/-! ### RELAB (15 R253, 16 R270) -/

/-- Fields of a RELAB's words. -/
def Staging.relFirst (w : Staging) : Nat := bits w.w0.toNat 20 0
def Staging.relN (w : Staging) : Nat := bits w.w0.toNat 53 32
def Staging.relRop (w : Staging) : Nat := bits w.w0.toNat 58 56
def Staging.relLabels (w : Staging) : Nat := bits w.w1.toNat 31 0
def Staging.relValues (w : Staging) : Nat := bits w.w1.toNat 63 32

/-- Reserved fields, ROP 7, set words. -/
def Staging.relBad (w : Staging) : Bool :=
  decide (bits w.w0.toNat 31 21 ≠ 0) || decide (bits w.w0.toNat 63 59 ≠ 0) || decide (bits w.w0.toNat 55 54 ≠ 0) ||
  decide (w.relRop = 7) || decide (w.w2 ≠ 0) || decide (w.w3 ≠ 0)

/-- LABELS and VALUES overlap: by address, or as places where one address names the warp's own BSM and the other
the same bytes through the cluster window (09 R165). -/
def Ctx.relOverlap (c : Ctx) (w : Staging) : Bool :=
  let n := 4 * w.relN
  decide (w.relRop ≠ 0) &&
  (overlaps w.relLabels n w.relValues n ||
    (match localPlace c.l c.ref.block (BitVec.ofNat 32 w.relLabels) n, localPlace c.l c.ref.block (BitVec.ofNat 32 w.relValues) n with
      | some a, some b => decide (a.1 = b.1) && overlaps a.2 n b.2 n
      | _, _ => false))

/-- The local ranges of a RELAB: labels, the records, values. -/
def Staging.relRanges (w : Staging) (f : Forest) : List (Nat × Nat × Bool) :=
  [(w.relLabels, 4 * w.relN, true), (f.base.toNat + 8 * w.relFirst, 8 * w.relN, false)] ++
  (if w.relRop = 0 then [] else [(w.relValues, 4 * w.relN, true)])

/-- Validation of a RELAB on the warp's forest, in the order of R253. -/
def Ctx.relabCheck (c : Ctx) (w : Staging) : Except (FaultKind × Word) (Forest × List Lock) :=
  match c.w.forest with
  | none => .error (.badCommand, 0)
  | some f =>
    if w.relBad || c.relOverlap w then .error (.badCommand, 0)
    else if w.relLabels % 4 ≠ 0 then .error (.misaligned, BitVec.ofNat 32 w.relLabels)
    else if w.relRop ≠ 0 ∧ w.relValues % 4 ≠ 0 then .error (.misaligned, BitVec.ofNat 32 w.relValues)
    else if w.relN = 0 ∨ f.count < w.relFirst + w.relN then .error (.spliceIndex, 0)
    else
      match c.locksFor (w.relRanges f) with
      | .error e => .error e
      | .ok zs =>
        let foreign := ((f.at? c.l c.ref.block).map c.s.foreignForest).getD false
        if foreign || c.foreign zs then .error (.tripodScope, 0) else .ok (f, zs)

/-- The pending commands of the issuing warp leave room for one more (13 R214). -/
def Ctx.commandRoom (c : Ctx) : Bool :=
  decide ((c.s.x.ops.filter fun o => decide (o.ref = c.ref) && !o.finished && o.work.isCommand).length < Config.pendingLimit)

/-- A RELAB of either form joins the open batch. -/
def Ctx.relabIssue (c : Ctx) (sh : Shape) (w : Staging) : State :=
  if !c.commandRoom then c.parkAt c.s .room
  else
    match c.relabCheck w with
    | .error e => c.engineIssue sh .nothing false (.error e)
    | .ok (f, zs) => c.engineIssue sh (.relab f w) (spadDest zs) (.ok zs)

/-- RELAB (16 R270). -/
def execRelab (m : Bool) (a : Field) (s : State) : Host.Outcome State Fault Refusal :=
  withCtx s fun c =>
    let n := a.toNat
    c.relabIssue ⟨m, 4, [], (List.range 4).map fun k => 256 + n + k⟩
      ⟨BitVec.ofNat 64 (c.sr2 n), BitVec.ofNat 64 (c.sr2 (n + 2)), 0, 0⟩

/-- Two values of a class reduced (15 R253). -/
def relCombine (rop : Nat) (a b : Word) : Word :=
  match rop with
  | 1 => a + b
  | 2 => addF32 0 a b
  | 3 => minS a b
  | 4 => maxS a b
  | 5 => roundF32 0 (minmaxF false (f32Val a) (f32Val b)).1
  | _ => roundF32 0 (minmaxF true (f32Val a) (f32Val b)).1

/-- A NaN total is the canonical NaN. -/
def relCanon (rop : Nat) (a : Word) : Word :=
  if (rop = 2 ∨ rop = 5 ∨ rop = 6) ∧ (f32Val a).isNaN then 0x7FC00000 else a

/-- Write labels in ascending order from element i on; the roots found, and where a walk broke (16 R270). A label of a
class that a plain write has touched is undefined (15 R248). DESIGN CHOICE (notes/assumptions/31.md): where the labels
overlap the forest's own records, which no check forbids, the later roots are found in what the earlier labels have left
there. The number counts the elements left. -/
def State.labelRows (s : State) (t : ForestAt) (pl : Place) (off : Nat) : Nat → Nat → List Nat × Option Nat × State
  | 0, _ => ([], none, s)
  | n + 1, i =>
    match s.root t i with
    | .error a => ([], some a, s)
    | .ok (_, r) =>
      let v := if (s.walked t [i]).any (s.spoilt t) then (Config.freeWord s.free (700000 + i)).toNat else r
      let s := s.fWrite t pl off (leBytes 4 v)
      let (rs, e, s) := s.labelRows t pl (off + 4) n (i + 1)
      (r :: rs, e, s)

/-- The reduction of the values of one class, in ascending order. -/
def classTotal (rop root : Nat) : List (Nat × Word) → Option Word → Option Word
  | [], acc => acc
  | (r, v) :: rest, acc =>
    classTotal rop root rest (if r = root then some (match acc with | none => v | some a => relCombine rop a v) else acc)

/-- Write the total of each element's class from element i on; a class that a plain write has touched in the state s0 has
an undefined one. -/
def State.writeTotals (s0 s : State) (t : ForestAt) (pl : Place) (rop : Nat) (all : List (Nat × Word)) :
    Nat → Nat → List Nat → State
  | _, _, [] => s
  | i, off, r :: rs =>
    let x := if (s0.walked t [i]).any (s0.spoilt t) then Config.freeWord s0.free (800000 + i)
      else relCanon rop ((classTotal rop r all none).getD 0)
    s0.writeTotals (s.fWrite t pl off (leBytes 4 x.toNat)) t pl rop all (i + 1) (off + 4) rs

/-- Ranges that a RELAB has written, n words each: what that leaves of bound forests (15 R248), and of watchpoints
(20 R306). -/
def State.relabbed (s s' : State) (t : ForestAt) (o : EngineOp) (n : Nat) (zs : List Lock) : State :=
  (zs.foldl (fun x z => s.broken x t.l z.place z.lo (4 * n)) s').engineWrites (s.dieOf o.ref) o.ref o.pc o.lcore
    (if n = 0 then [] else zs.map fun z => (z.x.toNat, 4 * n))

/-- A RELAB runs: labels, then class reductions; words written before a broken walk stand (16 R270). -/
def State.runRelab (s : State) (t : ForestAt) (o : EngineOp) (w : Staging) : Moved :=
  match o.locks with
  | lb :: _ :: rest =>
    let (rs, e, s') := s.labelRows t lb.place lb.lo w.relN w.relFirst
    match e, rest with
    | some a, _ => (some (.spliceIndex, a), s.relabbed s' t o rs.length [lb])
    | none, v :: _ =>
      let vals := (List.range w.relN).map fun k => BitVec.ofNat 32 (leNat (s.opRead t.l o v.place (v.lo + 4 * k) 4))
      (none, s.relabbed (s.writeTotals s' t v.place w.relRop (rs.zip vals) w.relFirst v.lo rs) t o rs.length [lb, v])
    | none, [] => (none, s.relabbed s' t o rs.length [lb])
  | _ => (none, s)

/-- RELAB_COMPLETION (15 R253): in tripod mode the operation ends here, and its writes are made at the commit
of the frame in which its batch is waited for (R254). -/
def execRelabCompletion (op : Nat) (s : State) : Host.Outcome State Fault Refusal :=
  match s.opCtx? op with
  | none => .fault (.notEnabled "RELAB_COMPLETION")
  | some c =>
    match c.o.work with
    | .relab f w =>
      match s.mayPerform c.l c.o, f.at? c.l c.o.ref.block with
      | true, some t =>
        if c.l.record.tripod then .next (s.endWork c.l c.o 0 none)
        else if s.forestWaits c.l c.o t then .fault (.notEnabled "RELAB_COMPLETION")
        else
          let (e, s) := s.runRelab t c.o w
          .next (s.endWork c.l c.o 0 e)
      | _, _ => .fault (.notEnabled "RELAB_COMPLETION")
    | _ => .fault (.notEnabled "RELAB_COMPLETION")

end Sys2Proof.Machine
end

