-- ==== Sys2Proof/Machine/Collective.lean ====
section
/-! DEFINITION. The collective engine (25, 26): step commands, chains, the arithmetic of HALVE, TREE and
ARRIVE, segments and flits at the peer ports. -/

namespace Sys2Proof.Machine

/-! ### Ports (25 R355) -/

/-- A peer port; one that nothing has touched is up. -/
def State.port (s : State) (p : Nat) : Port := (tget s.ctl.ports p).getD ⟨true, 0⟩

/-- Whether one of the twelve ports is up. -/
def State.portUp (s : State) (p : Nat) : Bool := decide (p < 12) && (s.port p).up

/-- Change a port. -/
def State.updPort (s : State) (p : Nat) (f : Port → Port) : State :=
  s.updCtl fun c => { c with ports := tput c.ports p (f ((tget c.ports p).getD ⟨true, 0⟩)) }

/-- SERIAL of this device (28 R387). -/
def State.serial (s : State) : DWord := s.ctl.map.serial

/-! ### Step commands (25 R357) -/

def Staging.stKind (w : Staging) : Nat := bits w.w0.toNat 3 0
def Staging.stLast (w : Staging) : Bool := w.w0.getLsbD 8
def Staging.stStep (w : Staging) : Nat := bits w.w0.toNat 12 9
def Staging.stIn (w : Staging) : Nat := bits w.w0.toNat 19 16
def Staging.stOut (w : Staging) : Nat := bits w.w0.toNat 23 20
def Staging.stGroup (w : Staging) : Nat := bits w.w0.toNat 31 24
def Staging.stCount (w : Staging) : Nat := bits w.w0.toNat 63 32
def Staging.stTag (w : Staging) : Word := BitVec.ofNat 32 (bits w.w3.toNat 31 0)

/-- A power of two from lo to hi. -/
def powerIn (n lo hi : Nat) : Bool := decide (lo ≤ n) && decide (n ≤ hi) && decide (2 ^ Nat.log2 n = n)

/-- The field checks that need no chain (25 R357, R358). -/
def Staging.stBad (w : Staging) : Bool :=
  decide (bits w.w0.toNat 7 4 ≠ 0) || decide (bits w.w0.toNat 15 13 ≠ 0) || decide (bits w.w1.toNat 63 52 ≠ 0) ||
  decide (bits w.w2.toNat 63 52 ≠ 0) || decide (bits w.w3.toNat 63 32 ≠ 0) ||
  decide (w.stKind = 0 ∨ 4 ≤ w.stKind) || !(decide (w.stIn = 6 ∨ w.stIn = 8)) || !(decide (w.stOut = 6 ∨ w.stOut = 8)) ||
  (if w.stKind = 1 then !powerIn w.stCount 2 (2 ^ 21) else !powerIn w.stCount 1 (2 ^ 24)) ||
  (decide (w.stStep = 0) == decide (w.src = 0)) || (w.stLast == decide (w.dst = 0)) ||
  (decide (w.stKind ≠ 1) && !(decide (w.stStep = 0) && w.stLast))

/-! ### Chains -/

/-- A chain by its number. -/
def State.chain? (s : State) (id : Nat) : Option Chain := findBy Chain.id id s.ctl.chains

/-- Change a chain. -/
def State.updChain (s : State) (id : Nat) (f : Chain → Chain) : State :=
  s.updCtl fun c => { c with chains := c.chains.map fun x => if x.id = id then f x else x }

/-- A segment is one of a chain's. -/
def Chain.takes (c : Chain) (g : Segment) : Bool :=
  decide (c.iface = g.iface) && decide (c.group = g.group) && decide (c.tag = g.tag)

/-- A header: what a step says of itself to every other member. It holds no data, which every other segment does
(notes/assumptions/48.md). -/
def isHeader (g : Segment) : Bool := g.data.isEmpty

/-- Remove chains, and the headers held for them. -/
def State.dropChains (s : State) (p : Chain → Bool) : State :=
  let gone := s.ctl.chains.filter p
  s.updCtl fun c =>
    { c with
      chains := c.chains.filter fun x => !p x
      held := c.held.filter fun h => !(isHeader h.seg && gone.any fun x => x.takes h.seg) }

/-- Remove a chain. -/
def State.dropChain (s : State) (id : Nat) : State := s.dropChains fun x => decide (x.id = id)

/-- The unfinished step operations of a chain, in issue order. -/
def State.chainOps (s : State) (id : Nat) : List EngineOp :=
  s.x.ops.filter fun o => !o.finished && (match o.work with | .step c _ => decide (c = id) | _ => false)

/-- The warp of a chain still runs, or is to run on: a save holds it, or the negative that its die recovers from
(25 R359, 26 R367). -/
def State.chainAlive (s : State) (c : Chain) : Bool :=
  let holds (z : Snapshot) : Bool := decide (z.launch = c.ref.launch) && z.warps.any fun w => decide (w.ref = c.ref) && !w.ended
  match s.warp? c.ref with
  | some w => !w.ended
  | none => s.ctl.saves.any holds ||
      s.x.dies.any fun d => decide (d.2.st ≠ .running) && ((d.2.negative.map fun n => holds n.snap).getD false)

/-- Whether a chain is open (25 R358, R359): a step of it is pending, or more steps may come. -/
def State.chainOpen (s : State) (c : Chain) : Bool :=
  decide (s.chainOps c.id ≠ []) || (decide (c.error = none) && !c.lastSeen && s.chainAlive c)

/-- The chain of a warp that further steps of a group and tag join. -/
def State.ownChain (s : State) (r : WarpRef) (iface group : Nat) (tag : Word) : Option Chain :=
  s.ctl.chains.find? fun c => decide (c.ref = r) && decide (c.iface = iface) && decide (c.group = group) &&
    decide (c.tag = tag) && !c.lastSeen

/-- The group of a chain. -/
def State.groupOf (s : State) (iface group : Nat) : Option Group := tget (s.iface iface).groups group

/-- Bytes of the collective buffer that a chain holds (25 R359). -/
def chainBytes (kind count : Nat) : Nat := if kind = 1 then 6 * count else 65536

/-- Bytes of the buffer in use beside a chain: the other started chains that are open, and segments held for chains that
have no place in it yet. What is held for this one counts against its own reservation (26 R366). -/
def State.bufferUsed (s : State) (x : Chain) : Nat :=
  ((s.ctl.chains.filter fun c => c.started && s.chainOpen c).map fun c => chainBytes c.kind c.count).foldl (· + ·) 0 +
  ((s.ctl.held.filter fun h => !x.takes h.seg && !(s.ctl.chains.any fun c => c.started && s.chainOpen c && c.takes h.seg)).map
    fun h => 4 * h.seg.data.length).foldl (· + ·) 0

/-- A group's timeout in clocks. -/
def Group.clocks (g : Group) : Nat := g.timeoutUs * Config.clocksPerUs

/-- A segment held for a chain that is not open has waited for its group's timeout: it is to be discarded
(26 R366). -/
def State.expired (s : State) (h : HeldSegment) : Bool :=
  !(s.ctl.chains.any fun c => s.chainOpen c && c.takes h.seg) &&
  decide (((s.groupOf h.seg.iface h.seg.group).map Group.clocks).getD 0 ≤ (s.time - h.clk).toNat)

/-- Discard what has waited too long. -/
def State.purgeHeld (s : State) : State := s.updCtl fun c => { c with held := c.held.filter fun h => !s.expired h }

/-- Validation of a step against its group and its chain (25 R358). -/
def Ctx.stepBad (c : Ctx) (w : Staging) (own : Option Chain) : Bool :=
  w.stBad ||
  (match c.s.groupOf c.l.iface w.stGroup with
    | none => true
    | some g =>
      decide (w.stStep ≠ (own.map Chain.nextStep).getD 0) ||
      (decide (w.stKind = 1) && decide (Nat.log2 g.n ≤ w.stStep)) ||
      (match own with
        | some k => decide (k.kind ≠ w.stKind) || decide (k.count / 2 ^ w.stStep ≠ w.stCount)
        | none => c.s.ctl.chains.any fun k => c.s.chainOpen k && decide (k.iface = c.l.iface) &&
            decide (k.group = w.stGroup) && decide (k.tag = w.stTag)))

/-- A step completes in error on a die that has a negative: should the die issue it again, it has this error again
(24 R352 step 5). -/
def State.noteStepError (s : State) (r : WarpRef) (w : Staging) (k : FaultKind) (addr : Nat) : State :=
  s.updDie (s.dieOf r) fun x =>
    if x.negative.isSome then { x with stepErrors := x.stepErrors ++ [⟨r, w.stGroup, w.stTag, w.stStep, k, addr⟩] } else x

/-- A step that fails at issue: the rest of its chain is abandoned. -/
def Ctx.failStep (c : Ctx) (sh : Shape) (w : Staging) (own : Option Chain) (k : FaultKind) : State :=
  let s := match own with
    | none => c.s
    | some x =>
      let s := c.s.updChain x.id fun y => { y with error := some (y.error.getD k), lastSeen := w.stLast }
      if w.stLast && decide (s.chainOps x.id = []) then s.dropChain x.id else s
  c.issued (c.failOp (s.noteStepError c.ref w k 0) k 0) sh

/-- A step that a recovering die issues again, which the control die has accepted before: it is discarded, and has the
outcome of the first one (24 R352 step 5, 25 R359). -/
def Ctx.stepAgain (c : Ctx) (sh : Shape) (w : Staging) : State :=
  let same (e : StepError) : Bool :=
    decide (e.ref = c.ref) && decide (e.group = w.stGroup) && decide (e.tag = w.stTag) && decide (e.step = w.stStep)
  match (c.s.die c.b.die).stepErrors.find? same with
  | some e => c.issued (c.failOp c.s e.kind (BitVec.ofNat 32 e.addr)) sh
  | none => c.issued c.s sh

/-! ### Segments and headers (25 R358) -/

/-- Send a segment to a rank: a flit leaves by the port of its route (27 R382). -/
def State.sendTo (s : State) (g : Group) (rank : Nat) (seg : Segment) : State :=
  match g.routes[rank]? with
  | some (p, dev) => s.updCtl fun c => { c with outbox := c.outbox ++ [(p, ⟨true, seg.iface, seg.group, dev, some seg⟩)] }
  | none => s

/-- The header of a step. -/
def Staging.header (w : Staging) (iface rank : Nat) : Segment where
  iface := iface
  group := w.stGroup
  tag := w.stTag
  rank := rank
  kind := w.stKind
  count := w.stCount
  itype := w.stIn
  otype := w.stOut
  step := w.stStep
  data := []

/-- The other ranks of a group. -/
def Group.others (g : Group) : List Nat := (List.range g.n).filter fun k => decide (k ≠ g.rank)

/-- Every other member learns a step's fields when the step is issued. DESIGN CHOICE (notes/assumptions/48.md): R358 gives
the error of a mismatch to every member, and does not say how they learn of it. -/
def State.sendHeader (s : State) (g : Group) (hd : Segment) : State := g.others.foldl (fun s k => s.sendTo g k hd) s

/-- Two members' matching steps have the same fields. -/
def stepsAgree (a b : Segment) : Bool :=
  decide (a.kind = b.kind) && decide (a.count = b.count) && decide (a.itype = b.itype) && decide (a.otype = b.otype) &&
  decide (a.step = b.step)

/-- Two headers are of one step of one chain. -/
def sameStep (a b : Segment) : Bool :=
  decide (a.iface = b.iface) && decide (a.group = b.group) && decide (a.tag = b.tag) && decide (a.step = b.step)

/-- A member has issued the matching step with other fields. -/
def State.mismatched (s : State) (hd : Segment) : Bool :=
  s.ctl.held.any fun h => isHeader h.seg && sameStep h.seg hd && !stepsAgree h.seg hd

/-- EGO #2: a step is validated and joins its chain (25 R358). Opening a chain finds what is held for it and has not
waited too long (26 R366). -/
def Ctx.stepIssue (c : Ctx) (sh : Shape) (w : Staging) : State :=
  match c.s.toControl c.b.die with
  | (false, s) => ({ c with s := s } : Ctx).stepAgain sh w
  | (true, s) =>
    let c := { c with s := s.purgeHeld }
    let own := c.s.ownChain c.ref c.l.iface w.stGroup w.stTag
    match own.bind Chain.error with
    | some k => c.failStep sh w own k
    | none =>
      if c.stepBad w own then c.failStep sh w own .badCommand
      else if c.l.record.tripod ∧ w.stKind = 3 then c.failStep sh w own .tripodScope
      else
        let g := (c.s.groupOf c.l.iface w.stGroup).getD ⟨1, 0, 0, []⟩
        let hd := w.header c.l.iface g.rank
        let c := { c with s := c.s.sendHeader g hd }
        if c.s.mismatched hd then c.failStep sh w own .badCommand
        else
          let id := (own.map Chain.id).getD c.s.nextOp
          let new : Chain :=
            { id := id, iface := c.l.iface, group := w.stGroup, tag := w.stTag, ref := c.ref, kind := w.stKind
              itype := w.stIn, otype := w.stOut, count := w.stCount, nextStep := 0, doneSteps := 0, lastSeen := false
              started := false, begun := false, data := [], error := none, since := c.s.time, arrived := [], heads := [] }
          let s := if own.isSome then c.s else c.s.updCtl fun k => { k with chains := k.chains ++ [new] }
          let s := s.updChain id fun k => { k with nextStep := w.stStep + 1, lastSeen := w.stLast, heads := k.heads ++ [hd] }
          c.issueOp s sh (.step id w) [] w.stLast

/-! ### Running a step -/

/-- A step operation with its chain and its group. -/
structure StepCtx where
  o : EngineOp
  w : Staging
  c : Chain
  g : Group
  l : Launch
  deriving DecidableEq, Repr

/-- The surroundings of a step operation. -/
def State.stepCtx? (s : State) (id : Nat) : Option StepCtx :=
  match s.op? id with
  | none => none
  | some o =>
    match o.work, s.launch? o.ref.launch with
    | .step cid w, some l =>
      match s.chain? cid with
      | none => none
      | some c =>
        match s.groupOf c.iface c.group with
        | some g => if o.finished then none else some ⟨o, w, c, g, l⟩
        | none => none
    | _, _ => none

/-- The rank that step s of a HALVE pairs with (25 R360). -/
def halvePartner (g : Group) (step : Nat) : Nat := g.rank ^^^ (g.n / 2 ^ (step + 1))

/-- The ranks a step needs data from. -/
def StepCtx.partners (x : StepCtx) : List Nat :=
  match x.c.kind with
  | 1 => [halvePartner x.g x.w.stStep]
  | 2 => (List.range (Nat.log2 x.g.n)).map fun k => x.g.rank ^^^ 2 ^ k
  | _ => if x.g.rank = 0 then (List.range x.g.n).filter fun k => decide (k ≠ 0) else [0]

/-- The ranks that a running step still exchanges data with: of a TREE those it has not combined with; rank 0 of an
ARRIVE sends the result to all when the last value has come. -/
def StepCtx.needs (x : StepCtx) : List Nat :=
  match x.c.kind with
  | 1 => x.partners
  | 2 => x.partners.drop x.c.arrived.length
  | _ => if x.c.arrived.length = x.partners.length then [] else x.partners

/-- A rank's route leads over a port that is down. -/
def State.rankDown (s : State) (g : Group) (k : Nat) : Bool :=
  match g.routes[k]? with
  | some (p, _) => decide (p ≠ 0xFF) && !s.portUp p
  | none => false

/-- The segment that a step sends. -/
def StepCtx.segment (x : StepCtx) (data : List Word) : Segment := { x.w.header x.c.iface x.g.rank with data := data }

/-- Send F32 words to a rank. -/
def State.sendSegment (s : State) (x : StepCtx) (rank : Nat) (data : List Word) : State := s.sendTo x.g rank (x.segment data)

/-- Elements of n bytes each, from the bytes of a range. -/
def elemsFromBytes (n : Nat) (bs : List Byte) : List Nat := (chunks n (bs.length / n) bs).map leNat

/-- The input of step 0, converted exactly to F32 (25 R360). -/
def inputWords (t : Nat) (bs : List Byte) : List Word :=
  (elemsFromBytes (elemWidth t / 8) bs).map fun e => roundF32 0 (elemExact t e)

/-- The output elements: Round(x, OTYPE, RNE, 0). -/
def outputBytes (t : Nat) (ws : List Word) : List Byte :=
  (ws.map fun w => leBytes (elemWidth t / 8) (roundTo t 0 false (elemExact 6 w.toNat)).1).flatten

/-- What a step starts from: HALVE holds its segment, TREE its subtree's root, ARRIVE its linear partial
(25 R360 to R362). -/
def startData (kind : Nat) (ws : List Word) : List Word :=
  match kind with
  | 1 => ws
  | 2 => [treeSum 25 ws]
  | _ => match ws with | x :: r => [linearSum x r] | [] => []

/-- The half of a HALVE's segment that goes to the partner, and the half that stays. -/
def otherHalf (g : Group) (step : Nat) (ws : List Word) : List Word :=
  if g.rank < halvePartner g step then ws.drop (ws.length / 2) else ws.take (ws.length / 2)
def keptHalf (g : Group) (step : Nat) (ws : List Word) : List Word :=
  if g.rank < halvePartner g step then ws.take (ws.length / 2) else ws.drop (ws.length / 2)

/-- The kept elements: x_lower + x_upper (25 R360). -/
def halveSum (g : Group) (step : Nat) (mine theirs : List Word) : List Word :=
  if g.rank < halvePartner g step then List.zipWith (addF32 0) mine theirs else List.zipWith (addF32 0) theirs mine

/-- A step operation ends: the control die says so to its die (24 R351). -/
def State.endStepOp (s : State) (o : EngineOp) (err : Option BatchError) : State :=
  let world := ((s.launch? o.ref.launch).map fun l => l.record.world).getD 0
  let s := match err, o.work with
    | some e, .step _ w => s.noteStepError o.ref w e.kind e.addr.toNat
    | _, _ => s
  (s.notify (s.dieOf o.ref) world 0).finishOp o.id err

/-- An error in a step: it and every pending step after it complete in error, and the chain is abandoned
(25 R359). -/
def State.failOps (s : State) (k : FaultKind) (addr : Nat) : List EngineOp → State
  | [] => s
  | o :: r => (s.endStepOp o (some (o.error k addr))).failOps k addr r

/-- Abandon a chain from a step on. -/
def State.failFrom (s : State) (id step : Nat) (k : FaultKind) (addr : Nat) : State :=
  let last := ((s.chain? id).map Chain.lastSeen).getD true
  let s := s.updChain id fun c => { c with error := some (c.error.getD k) }
  let s := s.failOps k addr ((s.chainOps id).filter fun o =>
    match o.work with | .step _ w => decide (step ≤ w.stStep) | _ => false)
  if last && decide (s.chainOps id = []) then s.dropChain id else s

/-- Abandon a chain from its running step on. -/
def State.failChain (s : State) (id : Nat) (k : FaultKind) (addr : Nat) : State := s.failFrom id 0 k addr

/-! ### Segments -/

/-- A held segment with data that a rank has sent for a chain. -/
def State.heldFrom (s : State) (c : Chain) (rank : Nat) : Option HeldSegment :=
  s.ctl.held.find? fun h => decide (h.seg.iface = c.iface) && decide (h.seg.group = c.group) && decide (h.seg.tag = c.tag) &&
    decide (h.seg.rank = rank) && !isHeader h.seg

/-- Whether data came within the group's timeout: later data is not used (25 R359, 26 R368). -/
def StepCtx.inTime (x : StepCtx) (h : HeldSegment) : Bool := decide (h.clk.toNat < x.c.since.toNat + x.g.clocks)

/-- A segment is used: it is held no longer. -/
def State.useSegment (s : State) (h : HeldSegment) : State :=
  s.updCtl fun c => { c with held := c.held.filter fun x => decide (x ≠ h) }

/-- Whether a segment's step matches this device's (25 R358). -/
def StepCtx.matchesSeg (x : StepCtx) (g : Segment) : Bool :=
  stepsAgree g (x.segment [])

/-- A partner has issued the matching step with other fields (25 R358); the headers tell every other member. -/
def State.failMatch (s : State) (x : StepCtx) : State := s.failChain x.c.id .badCommand 0

/-- Every other member's header of a step has come, or its timeout is over. DESIGN CHOICE (notes/assumptions/48.md): a LAST
step waits for this, so that a mismatch with a member it exchanges no data with is found. -/
def State.headersIn (s : State) (x : StepCtx) : Bool :=
  decide (x.c.since.toNat + x.g.clocks ≤ s.time.toNat) ||
  x.g.others.all fun k => s.ctl.held.any fun h => isHeader h.seg && decide (h.seg.rank = k) && sameStep h.seg (x.segment [])

/-- Send one word to every rank of a list. -/
def State.sendAll (s : State) (x : StepCtx) (data : List Word) : List Nat → State
  | [] => s
  | k :: r => (s.sendSegment x k data).sendAll x data r

/-- The ranks whose values a TREE or ARRIVE waits for: the next partner of a TREE, any other rank at rank 0 of
an ARRIVE, rank 0 elsewhere. -/
def StepCtx.awaited (x : StepCtx) : List Nat :=
  match x.c.kind with
  | 2 => if x.c.arrived.length < Nat.log2 x.g.n then [x.g.rank ^^^ 2 ^ x.c.arrived.length] else []
  | _ => x.partners.filter fun k => !(x.c.arrived.contains k)

/-- Combine a value that has arrived with the one the chain holds (25 R361, R362). -/
def StepCtx.combine (x : StepCtx) (rank : Nat) (v : Word) : Word :=
  let own := x.c.data.headD 0
  match x.c.kind with
  | 2 => if x.g.rank < rank then addF32 0 own v else addF32 0 v own
  | _ => if x.g.rank = 0 then addF32 0 own v else v

/-- A TREE or ARRIVE takes the values that have come, the earliest arrival first, and sends on what follows
from them. The number bounds them. -/
def State.absorb (s : State) : Nat → Nat → State
  | 0, _ => s
  | n + 1, id =>
    match s.stepCtx? id with
    | none => s
    | some x =>
      let want := if x.c.kind = 1 then [] else x.awaited
      match s.ctl.held.find? fun h => want.any fun k => decide (s.heldFrom x.c k = some h) && x.inTime h with
      | none => s
      | some h =>
        if !x.matchesSeg h.seg then (s.useSegment h).failMatch x
        else
          let v := x.combine h.seg.rank (h.seg.data.headD 0)
          let s := (s.useSegment h).updChain x.c.id fun c => { c with data := [v], arrived := c.arrived ++ [h.seg.rank] }
          let k := x.c.arrived.length + 1
          let s :=
            if x.c.kind = 2 then
              (if k < Nat.log2 x.g.n then s.sendSegment x (x.g.rank ^^^ 2 ^ k) [v] else s)
            else if x.g.rank = 0 ∧ k + 1 = x.g.n then s.sendAll x [v] x.partners
            else s
          s.absorb n id

/-- A step sends its first data: a HALVE the half it gives away, a TREE its root, an ARRIVE its partial. -/
def State.sendFirst (s : State) (x : StepCtx) (data : List Word) : State :=
  match x.c.kind with
  | 1 => s.sendSegment x (halvePartner x.g x.w.stStep) (otherHalf x.g x.w.stStep data)
  | 2 => if 0 < Nat.log2 x.g.n then s.sendSegment x (x.g.rank ^^^ 1) data else s
  | _ => if x.g.rank = 0 then s else s.sendSegment x 0 data

/-- A step begins (25 R359): step 0 reads its input; the data for the partner leaves. -/
def State.beginStep (s : State) (x : StepCtx) : State :=
  if x.partners.any fun k => s.rankDown x.g k then s.failChain x.c.id .waitTimeout 0
  else if x.w.stStep = 0 then
    let r := s.readVa none x.o.mmu x.l.record.world x.w.src (x.w.stCount * (elemWidth x.w.stIn / 8))
    match r.fault with
    | some (k, a) => r.s.failChain x.c.id k a
    | none =>
      let data := startData x.c.kind (inputWords x.w.stIn r.bytes)
      let s := r.s.updChain x.c.id fun c => { c with begun := true, since := s.time, data := data }
      (s.sendFirst x data).absorb 257 x.o.id
  else
    (s.updChain x.c.id fun c => { c with begun := true, since := s.time }).sendFirst x x.c.data

/-- Whether a step may begin: its turn has come in its chain and its warp, and its chain has its place in the
buffer. -/
def State.stepReady (s : State) (x : StepCtx) : Bool :=
  !x.c.begun && decide (x.w.stStep = x.c.doneSteps) && s.mayPerform x.l x.o &&
  (x.c.started || decide (s.bufferUsed x.c + chainBytes x.c.kind x.c.count ≤ Config.collectiveBuffer))

/-- The collective engine starts every step that may begin, in issue order. -/
def State.startSteps (s : State) : List EngineOp → State
  | [] => s
  | o :: r =>
    match s.stepCtx? o.id with
    | none => s.startSteps r
    | some x =>
      if s.stepReady x then
        let s := s.updChain x.c.id fun c => { c with started := true }
        (s.beginStep { x with c := { x.c with started := true } }).startSteps r
      else s.startSteps r

/-- Remove chains that are abandoned and that nothing of is pending. -/
def State.sweepChains (s : State) : State :=
  s.dropChains fun k => !(s.chainOpen k || (s.chainAlive k && !k.lastSeen))

/-- What the collective engine does by itself between events. A step waits with its read while a die recovers (24 R352
step 1). -/
def State.runCollective (s : State) : State :=
  if s.ctl.chains = [] ∨ s.recovering then s
  else
    let s := s.sweepChains.purgeHeld
    s.startSteps s.x.ops

/-! ### The end of a step -/

/-- The values a running step leaves, when all its partners' data is there; a mismatch of steps otherwise. -/
def State.stepResult (s : State) (x : StepCtx) : Option (Except FaultKind (List Word × State)) :=
  match x.c.kind with
  | 1 =>
    match s.heldFrom x.c (halvePartner x.g x.w.stStep) with
    | none => none
    | some h =>
      if !x.inTime h then none
      else if !x.matchesSeg h.seg then some (.error .badCommand)
      else some (.ok (halveSum x.g x.w.stStep (keptHalf x.g x.w.stStep x.c.data) h.seg.data, s.useSegment h))
  | 2 => if x.c.arrived.length = Nat.log2 x.g.n then some (.ok (x.c.data, s)) else none
  | _ => if x.awaited = [] then some (.ok (x.c.data, s)) else none

/-- A step has its sums: the LAST step writes its output and ends the chain (25 R360). -/
def State.endStep (s : State) (x : StepCtx) (ws : List Word) : State :=
  if x.w.stLast then
    let (f, s) := s.writeVa none x.o.mmu x.l.record.world (some x.o.id) x.w.dst (outputBytes x.w.stOut ws)
    match f with
    | some (k, a) => s.failChain x.c.id k a
    | none => (s.endStepOp x.o none).dropChain x.c.id
  else
    (s.updChain x.c.id fun c => { c with data := ws, doneSteps := c.doneSteps + 1, begun := false }).endStepOp x.o none

/-- COLLECTIVE_STEP_COMPLETION (25 R359): a step has accumulated its partners' data. -/
def execCollectiveStepCompletion (op : Nat) (s : State) : Host.Outcome State Fault Refusal :=
  match s.stepCtx? op with
  | none => .fault (.notEnabled "COLLECTIVE_STEP_COMPLETION")
  | some x =>
    if !x.c.begun || decide (x.w.stStep ≠ x.c.doneSteps) || (x.w.stLast && (!s.headersIn x || s.recovering)) then
      .fault (.notEnabled "COLLECTIVE_STEP_COMPLETION")
    else
      match s.stepResult x with
      | none => .fault (.notEnabled "COLLECTIVE_STEP_COMPLETION")
      | some (.error _) =>
        let s := match s.heldFrom x.c (halvePartner x.g x.w.stStep) with
          | some h => s.useSegment h
          | none => s
        .next ((s.failMatch x).runCollective)
      | some (.ok (ws, s)) => .next ((s.endStep x ws).runCollective)

/-- COLLECTIVE_TIMEOUT (25 R359): partner data has not arrived within the group's timeout. -/
def execCollectiveTimeout (op : Nat) (s : State) : Host.Outcome State Fault Refusal :=
  match s.stepCtx? op with
  | none => .fault (.notEnabled "COLLECTIVE_TIMEOUT")
  | some x =>
    if x.c.begun && decide (x.w.stStep = x.c.doneSteps) && (s.stepResult x).isNone &&
        decide (x.g.clocks ≤ (s.time - x.c.since).toNat) then
      .next ((s.failChain x.c.id .waitTimeout 0).runCollective)
    else .fault (.notEnabled "COLLECTIVE_TIMEOUT")

/-! ### Arrivals -/

/-- A segment that a chain has already used (26 R366: never added twice). -/
def State.segmentUsed (s : State) (g : Segment) : Bool :=
  (s.ctl.held.any fun h => !isHeader h.seg && decide (h.seg.iface = g.iface) && decide (h.seg.group = g.group) && decide (h.seg.tag = g.tag) &&
    decide (h.seg.rank = g.rank) && decide (h.seg.step = g.step)) ||
  (s.ctl.chains.any fun c => s.chainOpen c && decide (c.iface = g.iface) && decide (c.group = g.group) && decide (c.tag = g.tag) &&
    (if c.kind = 1 then decide (g.step < c.doneSteps) else c.arrived.contains g.rank))

/-- A header arrives: a chain that is open here and has issued the matching step with other fields fails from it on
(25 R358); else the header is held as a segment is. -/
def State.takeHeader (s : State) (g : Segment) : State :=
  match s.ctl.chains.find? fun c => s.chainOpen c && c.takes g && c.heads.any fun h => sameStep h g && !stepsAgree h g with
  | some c => s.failFrom c.id g.step .badCommand 0
  | none =>
    if s.ctl.held.any fun h => isHeader h.seg && decide (h.seg.rank = g.rank) && sameStep h.seg g then s
    else s.updCtl fun c => { c with held := c.held ++ [⟨g, s.time⟩] }

/-- A segment arrives: it is held until its step uses it (26 R366). -/
def State.takeSegment (s : State) (g : Segment) : State :=
  match s.groupOf g.iface g.group with
  | none => s
  | some _ =>
    let s := s.purgeHeld
    if isHeader g then s.takeHeader g
    else if s.segmentUsed g then s
    else
      let s := s.updCtl fun c => { c with held := c.held ++ [⟨g, s.time⟩] }
      let running := s.x.ops.filter fun o =>
        match s.stepCtx? o.id with
        | some x => x.c.begun && decide (x.c.kind ≠ 1) && decide (x.c.iface = g.iface) && decide (x.c.group = g.group) && decide (x.c.tag = g.tag)
        | none => false
      match running with
      | o :: _ => s.absorb 257 o.id
      | [] => s

/-- SEGMENT_ARRIVAL (26 R366). -/
def execSegmentArrival (seg : Segment) (s : State) : Host.Outcome State Fault Refusal := .next (s.takeSegment seg)

/-- SEGMENT_DISCARD (26 R366): the k-th held segment, of a chain that is not open, has waited for the
group's timeout. -/
def execSegmentDiscard (k : Nat) (s : State) : Host.Outcome State Fault Refusal :=
  match s.ctl.held[k]? with
  | none => .fault (.notEnabled "SEGMENT_DISCARD")
  | some h =>
    if s.expired h then .next (s.updCtl fun c => { c with held := c.held.eraseIdx k }).runCollective
    else .fault (.notEnabled "SEGMENT_DISCARD")

/-- Every running step that needs a port which has gone down completes in error (25 R355); one yet to run does when its
turn comes. -/
def State.failPortSteps (s : State) : List EngineOp → State
  | [] => s
  | o :: r =>
    match s.stepCtx? o.id with
    | none => s.failPortSteps r
    | some x =>
      if x.c.begun && decide (x.w.stStep = x.c.doneSteps) && x.needs.any fun k => s.rankDown x.g k then
        (s.failChain x.c.id .waitTimeout 0).failPortSteps r
      else s.failPortSteps r

/-- A port is taken down: the event is logged and its steps fail. -/
def State.takeDown (s : State) (p : Nat) : State :=
  let s := (s.updPort p fun x => { x with up := false }).logEvent (.portDown p)
  s.failPortSteps s.x.ops

/-- A flit for another device leaves on the port of its route, or is dropped and logged (27 R382). -/
def State.forwardFlit (s : State) (port : Nat) (f : Flit) : State :=
  match ((s.groupOf f.iface f.group).map Group.routes).getD [] |>.find? fun r => decide (r.2 = f.devid) with
  | some (p, _) =>
    if s.portUp p then s.updCtl fun c => { c with outbox := c.outbox ++ [(p, f)] } else s.logEvent (.flitDropped port)
  | none => s.logEvent (.flitDropped port)

/-- FLIT_ARRIVAL (25 R355): a flit that fails its CRC is sent again, and the port is taken down after eight
failed resends; a good one is delivered or forwarded. -/
def execFlitArrival (port : Nat) (flit : Flit) (s : State) : Host.Outcome State Fault Refusal :=
  if !s.portUp port then .fault (.notEnabled "FLIT_ARRIVAL")
  else if !flit.ok then
    if 8 ≤ (s.port port).resends then .next (s.takeDown port)
    else .next (s.updPort port fun x => { x with resends := x.resends + 1 })
  else
    let s := s.updPort port fun x => { x with resends := 0 }
    if flit.devid = s.serial then
      .next (match flit.segment with | some g => s.takeSegment g | none => s)
    else .next (s.forwardFlit port flit)

end Sys2Proof.Machine
end

