-- ==== Sys2Proof/Machine/Batch.lean ====
section
/-! DEFINITION. Staging, EGO and batches (13 R213 to R217; 16 R257 to R262), and the commit of a tripod frame
(10 R185 to R188). -/

namespace Sys2Proof.Machine

/-! ### ECW and EGO -/

/-- Set a staging word. -/
def Staging.set (w : Staging) (k : Nat) (v : DWord) : Staging :=
  match k with
  | 0 => { w with w0 := v }
  | 1 => { w with w1 := v }
  | 2 => { w with w2 := v }
  | _ => { w with w3 := v }

/-- ECW (16 R257): Wk := S2(A), as control state. -/
def execEcw (m : Bool) (d a : Field) (s : State) : Host.Outcome State Fault Refusal :=
  withCtx s fun c =>
    let v := BitVec.ofNat 64 (c.sr2 a.toNat)
    let s := c.s.updWarp c.ref fun w => { w with staging := w.staging.set d.toNat v }
    c.controlDone s ⟨m, 4, [], [sRd a, sRd a + 1]⟩ none (c.next 4)

/-- EGO #0: a copy command is validated and joins the open batch. -/
def Ctx.copyIssue (c : Ctx) (sh : Shape) (w : Staging) : State :=
  match c.copyCheck w with
  | .error e => c.engineIssue sh .nothing false (.error e)
  | .ok zs => c.engineIssue sh (.copy w) (w.external zs) (.ok zs)

/-- EGO (16 R258): one snapshot of the staging words goes to an engine; it waits while 64 commands of the
warp are pending. -/
def execEgo (m : Bool) (d : Field) (s : State) : Host.Outcome State Fault Refusal :=
  withCtx s fun c =>
    let sh : Shape := ⟨m, 4, [], []⟩
    let w := c.w.staging
    if !c.commandRoom then c.parkAt c.s .room
    else
      match d.toNat with
      | 0 => c.copyIssue sh w
      | 1 => c.relabIssue sh w
      | _ => c.stepIssue sh w

/-! ### Batches -/

/-- BDONE advances over closed batches whose operations have all finished (13 R215). The number bounds
them. -/
def State.advanceDone (s : State) (r : WarpRef) : Nat → State
  | 0 => s
  | n + 1 =>
    match s.warp? r with
    | none => s
    | some w =>
      if w.doneCloses < w.closes ∧ s.batchFinished r (w.doneCloses + 1) then
        (s.updWarp r fun w => { w with doneCloses := w.doneCloses + 1 }).advanceDone r n
      else s

/-- BCLOSE (16 R259): closes the open batch and returns its number; an empty batch completes at its close. -/
def execBclose (m : Bool) (d : Field) (s : State) : Host.Outcome State Fault Refusal :=
  withCtx s fun c =>
    if c.w.closeFull then c.parkAt c.s .closeRoom
    else
      let s := c.s.updWarp c.ref fun w => { w with closes := w.closes + 1 }
      let s := (s.advanceDone c.ref 1).wakeBatches c.ref
      c.complete s ⟨m, 4, [], []⟩ c.active [(.s d.toNat, BitVec.ofNat 32 ((c.w.closes + 1) % 65536))] (c.next 4)

/-- The operations of a warp's batches up to a number of closes. -/
def State.opsUpTo (s : State) (r : WarpRef) (closes : Nat) : List EngineOp :=
  s.x.ops.filter fun o => decide (o.ref = r) && decide (o.closeNo ≤ closes)

/-- What a wait for batches does in tripod mode: the frame ends, its commit will apply the operations' local
writes, their ranges stop counting against the warp, and slots they filled may be arrived for (13 R222,
10 R188, 14 R244). -/
def State.tripodWait (s : State) (r : WarpRef) (closes : Nat) : State :=
  let ids := ((s.opsUpTo r closes).filter fun o => decide (o.stage = .held)).map EngineOp.id
  let opWait (o : EngineOp) : EngineOp := if ids.contains o.id then { o with stage := .waited } else o
  let slotWait (sl : Slot) : Slot :=
    if sl.filler = r ∧ sl.fillClose ≤ closes ∧ sl.fillStage = 0 then { sl with fillStage := 1 } else sl
  let engWait (e : MatrixEngine) : MatrixEngine := { e with slots := e.slots.map fun x => (x.1, slotWait x.2) }
  let s : State := { s with x := { s.x with
    ops := s.x.ops.map opWait
    engines := s.x.engines.map fun x => (x.1, engWait x.2) } }
  s.updWarp r fun w => { w with frame := { w.frame.finish with applyOps := w.frame.applyOps ++ ids } }

/-- The batch number that a wait names, and its Shape: read at the first issue, and held while the path waits, whose
later issues read nothing (13 R216). -/
def Ctx.waitsFor (c : Ctx) (m : Bool) (b : Src) : Nat × Shape :=
  match c.p.waitOn with
  | some (n, _) => (n.toNat, ⟨m, b.len, [], []⟩)
  | none => (bits (c.sb b).toNat 15 0, ⟨m, b.len, [], b.sregs⟩)

/-- The path waits for the batches up to n. -/
def Ctx.awaitBatch (c : Ctx) (n : Nat) (sh : Shape) : State :=
  (c.parkAt (c.traceHazards c.s c.active sh.reads []) (.batch n)).updPath c.ref c.slot fun p =>
    { p with waitOn := some (BitVec.ofNat 32 n, 0) }

/-- WAITB (16 R260, R262): BATCH_AHEAD at once; else the path waits, and the earliest unreported error of the
batches up to n becomes its fault. DESIGN CHOICE (notes/assumptions/47.md): a WAITB of a tripod launch that ends in a batch
error ends the frame and has the waited operations' local writes applied, as one that retires does. -/
def execWaitb (m : Bool) (b : Src) (s : State) : Host.Outcome State Fault Refusal :=
  withCtx s fun c =>
    let (n, sh) := c.waitsFor m b
    c.sound sh <|
    if c.w.ahead n then c.pathFault c.s .batchAhead 0 (BitVec.ofNat 32 n) sh
    else if !c.w.reached n then c.awaitBatch n sh
    else
      let k := c.w.upTo n
      let s := c.s.updWarp c.ref fun w => { w with errors := w.errors.filter fun e => decide (k < e.closeNo) && !e.atNext }
      match firstError (c.w.errorsUpTo n) with
      | none =>
        let s := c.controlDone s sh none (c.next b.len)
        if c.l.record.tripod then s.tripodWait c.ref k else s
      | some e =>
        let s := c.traceHazards (if c.l.record.tripod then s.tripodWait c.ref k else s) c.active sh.reads []
        c.drained (s.bump.deliver c.ref c.slot .batch e.kind (e.entriesAt (lowestLane c.p.lanes)) c.p.lanes c.p.pc
          (c.next b.len))

/-- The word that BPOLL writes (16 R261). -/
def Warp.pollWord (w : Warp) (n : Nat) : Word :=
  let done := w.reached n
  BitVec.ofNat 32 (w.bdone * 65536 + b2n (done && decide (w.errorsUpTo n ≠ [])) * 2 + b2n done)

/-- BPOLL (16 R261, R262): in tripod mode it first waits, and it ends the frame. -/
def execBpoll (m : Bool) (d : Field) (b : Src) (s : State) : Host.Outcome State Fault Refusal :=
  withCtx s fun c =>
    let (n, sh) := c.waitsFor m b
    c.sound sh <|
    if c.w.ahead n then c.pathFault c.s .batchAhead 0 (BitVec.ofNat 32 n) sh
    else if c.l.record.tripod && !c.w.reached n then c.awaitBatch n sh
    else
      let s := c.complete c.s sh c.active [(.s d.toNat, c.w.pollWord n)] (c.next b.len)
      if c.l.record.tripod then s.updWarp c.ref fun w => { w with frame := w.frame.finish } else s

/-- BATCH_COMPLETION (13 R215): the operations of the lowest batch not yet complete have finished; BDONE
advances, and paths that wait for it issue again. An ended warp's error is recorded (R217). -/
def execBatchCompletion (w : WarpRef) (s : State) : Host.Outcome State Fault Refusal :=
  match s.warp? w with
  | none => .fault (.notEnabled "BATCH_COMPLETION")
  | some x =>
    if x.doneCloses < x.closes ∧ s.batchFinished w (x.doneCloses + 1) then
      let s := (s.advanceDone w 1).wakeBatches w
      .next (if x.ended then s.reportBatches w [x.doneCloses + 1] else s)
    else .fault (.notEnabled "BATCH_COMPLETION")

/-! ### The commit of a frame (10 R186) -/

/-- A warp that holds no commit up: it has ended a frame at or after n, has begun a later one, is parked at a
barrier or a WAITF, or has exited with its last frame committed. -/
def Warp.letsCommit (w : Warp) (n : Nat) : Bool :=
  decide (n < w.frame.no) || w.frame.ended || w.ended ||
  w.live.any fun p => match p.2.park with
    | .barrier _ _ => true
    | .arrive _ => true
    | .waitf _ _ => true
    | _ => false

/-- The lowest number of a frame that has ended and is not committed. -/
def lowestEnded : List Warp → Option Nat
  | [] => none
  | w :: r =>
    match w.frame.ended, lowestEnded r with
    | true, some n => some (min w.frame.no n)
    | true, none => some w.frame.no
    | false, o => o

/-- The frame that a block's commit covers, when it can happen. -/
def State.commitNo (s : State) (launch block : Nat) : Option Nat :=
  let ws := s.warpsOf launch block
  match lowestEnded ws with
  | some n => if ws.all fun w => w.letsCommit n then some n else none
  | none => none

/-- Where a buffered write goes: place, offset, bytes. -/
def BufEntry.range : BufEntry → Place × Nat × Nat
  | .store pl a bs => (pl, a, bs.length)
  | .red pl a _ _ _ => (pl, a, 4)

/-- Buffered plain writes take effect (10 R187), and what they spoil of bound forests is remembered (15 R248). -/
def State.applyPlain (s : State) (l : Launch) (block : Nat) (es : List BufEntry) : State :=
  es.foldl (fun x e => s.broken x l e.range.1 e.range.2.1 e.range.2.2) (s.applyEntries l.uid block es)

/-- The local addresses that an operation's buffered writes have. -/
def EngineOp.written (o : EngineOp) : List (Nat × Nat) :=
  o.pendingWrites.filterMap fun e =>
    let r := e.range
    (o.locks.find? fun z => z.dest && decide (z.place = r.1) && decide (z.lo ≤ r.2.1) && decide (r.2.1 < z.lo + z.len)).map
      fun z => (z.x.toNat + (r.2.1 - z.lo), r.2.2)

/-- The local writes of an operation whose batch has been waited for: buffered bytes, or a RELAB's run
(13 R222, 15 R254). DESIGN CHOICE (notes/assumptions/31.md): the error of a RELAB whose walk breaks here, after its WAITB has
retired, is the warp's next WAITB's to report. -/
def State.applyOp (s : State) (id : Nat) : State :=
  match s.opCtx? id with
  | none => s
  | some c =>
    let s := match c.o.work with
      | .spinit f =>
        let s := s.applyEntries c.l.uid c.o.ref.block c.o.pendingWrites
        ((f.at? c.l c.o.ref.block).map s.mendForest).getD s
      | _ => s.applyPlain c.l c.o.ref.block c.o.pendingWrites
    let s := s.engineWrites (s.dieOf c.o.ref) c.o.ref c.o.pc c.o.lcore c.o.written
    let s := s.updOp id fun o => { o with stage := .committed, pendingWrites := [] }
    match c.o.work with
    | .relab f w =>
      match f.at? c.l c.o.ref.block with
      | none => s
      | some t =>
        match s.runRelab t c.o w with
        | (none, s) => s
        | (some (k, a), s) => s.updWarp c.o.ref fun x => { x with errors := x.errors ++ [{ c.o.error k a with atNext := true }] }
    | _ => s

/-- Apply operations in order. -/
def State.applyOpsOf (s : State) : List Nat → State
  | [] => s
  | id :: r => (s.applyOp id).applyOpsOf r

/-- The engine writes that a commit covers, by ascending WARPID. -/
def State.commitOps (s : State) : List Warp → State
  | [] => s
  | w :: r => (s.applyOpsOf w.frame.applyOps).commitOps r

/-- The buffers, by ascending WARPID. -/
def State.commitBuffers (s : State) (l : Launch) : List Warp → State
  | [] => s
  | w :: r => (s.applyPlain l w.ref.block w.frame.buf).commitBuffers l r

/-- A warp after the commit of frame n: one that has exited is done; the others begin their next frame, and a
parked WAITF reads again (11 R206). -/
def Warp.committed (w : Warp) (n : Nat) : Warp :=
  let wake (p : Path) : Path := match p.park with | .waitf _ _ => { p with park := .none } | _ => p
  if w.frame.ended ∧ w.frame.no = n then
    if w.ended then { w with frame := { w.frame with ended := false, buf := [], applyOps := [] } }
    else { w with frame := { w.frame.begin (w.frame.next.getD (n + 1)) with applyOps := [] } }
  else
    let waits := w.live.any fun p => match p.2.park with | .waitf _ _ => true | _ => false
    if waits then
      { w with
        p0 := w.p0.map wake
        p1 := w.p1.map wake
        frame := w.frame.begin (max w.frame.no (n + 1)) }
    else w

/-- Splice operations that the commit applies, by ascending WARPID (15 R254). -/
def State.commitSplices (s : State) : List (WarpRef × Nat) → State
  | [] => s
  | (r, id) :: rest =>
    let s := s.updWarp r fun w => { w with frame := { w.frame with splice := none } }
    match findBy SpliceReq.id id s.x.splices with
    | none => s.commitSplices rest
    | some q => (s.applySplice q).commitSplices rest

/-- Warps by ascending WARPID. -/
def byWarp (ws : List Warp) : List Warp := ws.mergeSort fun a b => decide (a.ref.warp ≤ b.ref.warp)

/-- Warps that have ended leave their barriers once their last frame is committed (10 R185). -/
def State.leaveAll (s : State) : List WarpRef → State
  | [] => s
  | r :: rs => (s.leaveBarriers r).leaveAll rs

/-- FRAME_COMMIT (10 R186): engine writes waited for, then the buffers in ascending WARPID, then splice
operations; every warp that waited begins its next frame. -/
def execFrameCommit (launch block : Nat) (s : State) : Host.Outcome State Fault Refusal :=
  match (s.launch? launch).filter fun l => l.record.tripod, s.commitNo launch block with
  | some l, some n =>
    let ws := byWarp ((s.warpsOf launch block).filter fun w => w.frame.ended && decide (w.frame.no = n))
    let reqs := ws.filterMap fun w => w.frame.splice.map fun q => (w.ref, q)
    let held := reqs.any fun x => ((findBy SpliceReq.id x.2 s.x.splices).map s.spliceWaits).getD false
    if held then .fault (.notEnabled "FRAME_COMMIT")
    else
      let s := (s.commitOps ws).commitBuffers l ws
      let next (w : Warp) : Warp := if w.ref.launch = launch ∧ w.ref.block = block then w.committed n else w
      let s : State := { s with x := { s.x with warps := s.x.warps.map next } }
      let s := s.noteFrames ((s.warpsOf launch block).map Warp.ref)
      .next ((s.commitSplices reqs).leaveAll ((ws.filter Warp.ended).map Warp.ref))
  | _, _ => .fault (.notEnabled "FRAME_COMMIT")

end Sys2Proof.Machine
end

