-- ==== Sys2Proof/Machine/System.lean ====
section
/-! DEFINITION. System instructions (21 R314 to R327): traps and their return, YIELD, LOUPE and DBGBRK, the
profile stack, special registers, SELFTEST; and the landing of writes, starvation and yield events. -/

namespace Sys2Proof.Machine

/-! ### Traps -/

/-- TRAP (21 R316): a lane fault in each Active lane that the mask names; NOP when there is none. It honours
the guard. -/
def execTrap (m : Bool) (b : Src) (s : State) : Host.Outcome State Fault Refusal :=
  withCtx s fun c =>
    let sh : Shape := ⟨m, b.len, [], b.sregs ++ c.guardReads⟩
    let soft := c.softLanes b.sregs c.active
    c.guarded sh <| c.completeLanes c.s sh c.active
      ⟨[], (lanesOf (c.active &&& c.sb b &&& ~~~soft)).map (fun l => ⟨l, .trap, 0, 0⟩) ++ faultsOf .softError (lanesOf soft)⟩

/-- RESUME (19 R290, 21 R317): writes land, the mask is read, and the continuation ends; outside one it faults
ILLEGAL_MODE. -/
def execResume (_m : Bool) (d a : Field) (s : State) : Host.Outcome State Fault Refusal :=
  withCtx s fun c0 => c0.drained (
    let c := c0.landed
    if c.w.frozen = none then c.pathFault c.s .illegalMode 0 0 ⟨false, 4, [], []⟩
    else c.sound ⟨false, 4, [], [sRd a]⟩ <|
      let s := c.s.retireWarp c.ref c.active c.p.pc none 0 (c.w.pathBit c.slot)
      (s.resume c.ref (d.toNat = 1) (c.sr a.toNat)).bump)

/-! ### YIELD -/

/-- The clocks that a warp's scheduler has run: loupe clocks on a loupe core (20 R299, 21 R318). -/
def State.schedClk (s : State) (w : Warp) : Nat := if w.onLoupe?.isSome then s.loupeClk (s.dieOf w.ref) else s.time.toNat

/-- YIELD (21 R318): the path parks for 32 clocks of its scheduler, with its PC after the YIELD. -/
def execYield (m : Bool) (s : State) : Host.Outcome State Fault Refusal :=
  withCtx s fun c =>
    let s := c.controlDone c.s ⟨m, 4, [], []⟩ none (c.next 4)
    .updPath s c.ref c.slot fun p => { p with park := .yield (BitVec.ofNat 64 (c.s.schedClk c.w + 32)) }

/-- YIELD_EXPIRY (21 R318): the park ends, and the starvation count starts again; a marked YIELD's writes that
are still outstanding keep the path parked (04 R65). -/
def execYieldExpiry (w : WarpRef) (slot : Bool) (s : State) : Host.Outcome State Fault Refusal :=
  match s.ctxAt? w slot with
  | none => .fault (.notEnabled "YIELD_EXPIRY")
  | some c =>
    match c.p.park with
    | .yield till =>
      if till.toNat ≤ s.schedClk c.w then
        let go (p : Path) : Path :=
          ({ p with park := .none, starve := 0, starved := false } : Path).mark (s.markerAt c.l (p.pc - 4))
        .next (s.updPath w slot go)
      else .fault (.notEnabled "YIELD_EXPIRY")
    | _ => .fault (.notEnabled "YIELD_EXPIRY")

/-! ### LOUPE and DBGBRK -/

/-- Whether LOUPE transfers the issuing path's warp: it runs on an ordinary core, its die has a loupe cluster,
its world allows debugging and it is in no continuation (21 R319). -/
def Ctx.loupeActs (c : Ctx) : Bool :=
  c.w.onLoupe?.isNone && (c.s.loupeSite? c.b.die).isSome && c.s.debugAllowed c.l && c.w.frozen.isNone

/-- The issuing path's warp leaves for a loupe core after its instruction; without a free slot the path waits
at the instruction (20 R294). -/
def Ctx.transferAfter (c : Ctx) (s : State) (m : Bool) : State :=
  c.drained (
    match s.slotFor c.ref with
    | some _ => (c.controlDone s ⟨m, 4, [], []⟩ none (c.next 4)).sendToLoupe c.ref
    | none => c.parkAt (s.sendToLoupe c.ref) .loupeSlot)

/-- LOUPE (21 R319): the warp transfers to a loupe core of its die, or it is a NOP. -/
def execLoupe (m : Bool) (s : State) : Host.Outcome State Fault Refusal :=
  withCtx s fun c =>
    if c.loupeActs then c.transferAfter c.s m else c.controlDone c.s ⟨m, 4, [], []⟩ none (c.next 4)

/-- The pause of a DBGBRK (21 R320): its retire record with FLAGS bit 6, and the warp waits for the debugger. -/
def State.breakPause (s : State) (r : WarpRef) (b : LaneMask × Word × Bool) : State :=
  (s.sheet r b.1 b.2.1 none 255 (64 + 32 * b2n b.2.2) 0).updWarp r fun w =>
    { w with loupe := { w.loupe with brk := none, pause := .breakpoint } }

/-- DBGBRK (21 R320): in an armed launch the warp transfers and is then paused; on a loupe core it is paused in
place; else a NOP. -/
def execDbgbrk (m : Bool) (s : State) : Host.Outcome State Fault Refusal :=
  withCtx s fun c =>
    let b := (c.active, c.p.pc, c.w.pathBit c.slot)
    if c.l.dbgArmed && c.w.onLoupe?.isSome && c.s.debugAllowed c.l then
      let s := c.s.updWarp c.ref fun w => w.retire c.l
      let s := s.updPath c.ref c.slot fun p => (p.goOn (c.next 4)).mark m
      (s.breakPause c.ref b).bump
    else if c.l.dbgArmed && c.loupeActs then
      c.transferAfter (c.s.updWarp c.ref fun w => { w with loupe := { w.loupe with brk := some b } }) m
    else c.controlDone c.s ⟨m, 4, [], []⟩ none (c.next 4)

/-! ### The profile stack (20 R310, 21 R321) -/

/-- PRGN: a set is pushed after the instruction has been charged to those already there; at depth 4 the
overflow count rises. -/
def execPrgn (m : Bool) (d : Field) (s : State) : Host.Outcome State Fault Refusal :=
  withCtx s fun c =>
    let push (w : Warp) : Warp :=
      if w.prof.length < 4 then { w with prof := ProfSet.start d.toNat c.s.time :: w.prof }
      else { w with profOver := w.profOver + 1 }
    (c.controlDone c.s ⟨m, 4, [], []⟩ none (c.next 4)).updWarp c.ref push

/-- Pop the top set of a warp's stack and write its record; an overflow count falls instead. -/
def State.popProfile (s : State) (r : WarpRef) : State :=
  match s.warp? r with
  | none => s
  | some w =>
    if 0 < w.profOver then s.updWarp r fun w => { w with profOver := w.profOver - 1 }
    else
      match w.prof with
      | [] => s
      | p :: rest => (s.updWarp r fun w => { w with prof := rest }).profWrite r p rest.length false

/-- PRGX: the PRGX itself is charged to the set it pops. -/
def execPrgx (m : Bool) (s : State) : Host.Outcome State Fault Refusal :=
  withCtx s fun c => (c.controlDone c.s ⟨m, 4, [], []⟩ none (c.next 4)).popProfile c.ref

/-! ### SGET (21 R322, R323) -/

/-- Block indices of a linear ID (07 R123). -/
def LaunchRecord.blockX (r : LaunchRecord) (b : Nat) : Nat := b % max r.gridX 1
def LaunchRecord.blockY (r : LaunchRecord) (b : Nat) : Nat := b / max r.gridX 1 % max r.gridY 1
def LaunchRecord.blockZ (r : LaunchRecord) (b : Nat) : Nat := b / max r.gridX 1 / max r.gridY 1

/-- The time that CLK and CLKH read: device time, or under tripod the warp's retired count. -/
def Ctx.clock (c : Ctx) : Nat := if c.l.record.tripod then c.w.retired else c.s.time.toNat

/-- The number of a core on the package, 0 to 383: four to a site, twelve enabled sites to a die (01 R9). -/
def State.coreIndex (s : State) (b : Block) : Nat :=
  let sites := ((s.ctl.map.dies[b.die]?).map DieFuses.sites).getD 0
  48 * b.die + 4 * ((List.range b.site).filter fun k => sites.getLsbD k).length + b.core

/-- The number of core k in a launch: its place among the launch's draws for the 384 cores, so that the numbers are a
permutation (21 R322). -/
def permuted (uid k : Nat) : Nat :=
  let before (a b : Nat) : Bool :=
    decide (Config.coreDraw uid a < Config.coreDraw uid b) || (decide (Config.coreDraw uid a = Config.coreDraw uid b) && decide (a < b))
  ((List.range 384).filter fun j => before j k).length

/-- The value of a special register. -/
def Ctx.special (c : Ctx) (sel : Nat) : Nat :=
  let r := c.l.record
  match sel with
  | 0 => c.ref.warp
  | 1 => r.warps
  | 2 => r.blockX c.ref.block
  | 3 => r.blockY c.ref.block
  | 4 => r.blockZ c.ref.block
  | 5 => r.gridX
  | 6 => r.gridY
  | 7 => r.gridZ
  | 8 => c.ref.block % max r.cluster 1
  | 9 => if r.span = 0 then 0 else c.ref.block % r.span
  | 10 => if r.tripod then c.ref.block % max r.lcores 1 else permuted c.l.uid (c.s.coreIndex c.b)
  | 11 => Config.width
  | 12 => c.clock
  | 13 => c.clock / 2 ^ 32
  | 14 => if r.tripod then c.w.frame.no else 0
  | 15 => c.active.toNat
  | 16 => c.w.exited.toNat
  | 17 => c.w.batch
  | _ => c.w.bdone

/-- SGET: an outstanding write of the selected value. -/
def execSget (m : Bool) (d a : Field) (s : State) : Host.Outcome State Fault Refusal :=
  issueOp s ⟨m, 4, [], []⟩ anyType fun c =>
    let sh : Shape := ⟨m, 4, [], if a.toNat = 15 then c.guardReads else []⟩
    c.sound sh <| c.complete c.s sh c.active
      [(WTarget.s d.toNat, BitVec.ofNat 32 (c.special a.toNat))] (c.next 4)

/-! ### SSET and SELFTEST -/

/-- A privileged instruction in an unprivileged launch (21 R314): PERMISSION on the path, no lane entries. -/
def Ctx.privileged (c : Ctx) (len : Nat) (k : State) : State :=
  if c.l.privileged then k else c.issueFault .permission len

/-- OpB of SSET EBUDGET. -/
def budgetOk (v : Nat) : Bool := decide (v < 256) && (decide (v = 0) || (decide (2 ≤ v) && decide (v ≤ 64)))

/-- OpB of SSET INJECT under a register allotment. -/
def injectOk (v regs : Nat) : Bool :=
  decide (bits v 30 13 = 0) && decide (bits v 7 7 = 0) && decide (bits v 12 8 < Config.width) && decide (bits v 6 0 < regs)

/-- SSET (21 R324). -/
def execSset (m : Bool) (d : Field) (b : Src) (s : State) : Host.Outcome State Fault Refusal :=
  withCtx s fun c => c.privileged b.len (
    let v := (c.sb b).toNat
    let sh : Shape := ⟨m, b.len, [], b.sregs⟩
    c.sound sh <|
    if d.toNat = 64 then
      if budgetOk v then
        c.controlDone (c.s.updCore c.b.coreKey fun x => { x with sset := if v = 0 then none else some (v, c.l.uid) }) sh
          none (c.next b.len)
      else c.pathFault c.s .illegalMode 0 0 sh
    else if injectOk v c.l.record.regs then
      let arm := if bitAt v 31 then some (bits v 6 0, bits v 12 8) else none
      c.controlDone (c.s.updWarp c.ref fun w => { w with inject := arm }) sh none (c.next b.len)
    else c.pathFault c.s .illegalMode 0 0 sh)

/-- OpB of SELFTEST (21 R325). -/
def selftestOk (v : Nat) : Bool :=
  let k := bits v 2 0
  decide (bits v 31 14 = 0) && decide (bits v 7 3 = 0) && decide (1 ≤ k) && decide (k ≤ 4) &&
  (decide (k = 4) || decide (bits v 13 8 = 0))

/-- Whether a bank of the warp's home cluster is fenced (14 R243, 28 R388). -/
def State.bankFenced (s : State) (d site n : Nat) : Bool :=
  (s.engine d site).fenced.contains n || (((s.ctl.map.dies[d]?).map DieFuses.fences).getD []).contains (site, n)

/-- What a SELFTEST finds before it tests anything: 3 ABSENT, 2 BUSY, 0 that the test runs (21 R326). While a periodic
product is due, a free bank may hold it or not: a free value (notes/assumptions/1.md). -/
def Ctx.testVerdict (c : Ctx) (v : Nat) : Nat :=
  let n := bits v 13 8
  if bits v 2 0 ≠ 4 then 0
  else if c.s.bankFenced c.b.die c.b.site n then 3
  else if (c.s.freeBanks c.b.die c.b.site).contains n then
    if checkPeriod ≤ (c.s.time - (c.s.engine c.b.die c.b.site).lastCheck).toNat ∧ Config.freeBit c.s.free 900000 then 2 else 0
  else 2

/-- SELFTEST (21 R325, R326): the path parks until the test has ended. -/
def execSelftest (_m : Bool) (d : Field) (b : Src) (s : State) : Host.Outcome State Fault Refusal :=
  withCtx s fun c => c.privileged b.len (
    let v := (c.sb b).toNat
    let sh : Shape := ⟨false, b.len, [], b.sregs⟩
    c.sound sh <|
    if c.l.record.tripod then c.pathFault c.s .tripodScope 0 0 sh
    else if !selftestOk v then c.pathFault c.s .illegalMode 0 0 sh
    else c.drained <|
      let s := c.traceHazards c.s c.active b.sregs ((List.range 4).map fun k => 256 + d.toNat + k)
      let s := s.updPath c.ref c.slot fun p => { p with waitStart := some s.time }
      c.parkAt s (.selftest d.toNat (c.sb b) (c.testVerdict v)))

/-- The four results of a test that has taken some device clocks (21 R326). -/
def selftestWords (opB : Word) (verdict clocks : Nat) (r : SelftestResult) : List Word :=
  let fail := decide (verdict = 0) && !r.pass
  let res := if verdict ≠ 0 then verdict else b2n (!r.pass)
  [BitVec.ofNat 32 (bits opB.toNat 2 0 * 2 ^ 24 + bits opB.toNat 13 8 * 2 ^ 16 + res),
   if fail then r.nfail else 0, if fail then r.first else 0xFFFFFFFF, BitVec.ofNat 32 clocks]

/-- The path that a SELFTEST of a slot runs for: the live one, else the frozen one (19 R288); with the launch and the
block. -/
def State.testPath (s : State) (r : WarpRef) (slot : Bool) : Option (Launch × Block × Warp × Path × Bool) :=
  match s.warp? r, s.launch? r.launch, s.block? r.launch r.block with
  | some w, some l, some b =>
    match (w.path? slot).filter Path.testing, (w.frozen.bind fun f => if slot then f.p1 else f.p0).filter Path.testing with
    | some p, _ => some (l, b, w, p, false)
    | none, some p => some (l, b, w, p, true)
    | none, none => none
  | _, _, _ => none

/-- SELFTEST_DONE (21 R326): the results land and the path goes on; a failing bank is fenced. A test that a frozen path
began ends on its own, too. -/
def execSelftestDone (w : WarpRef) (slot : Bool) (r : SelftestResult) (s : State) : Host.Outcome State Fault Refusal :=
  match s.testPath w slot with
  | none => .fault (.notEnabled "SELFTEST_DONE")
  | some (l, bk, wp, p, away) =>
    match p.park with
    | .selftest d b v =>
      let clocks := (s.time - p.waitStart.getD s.time).toNat
      let ws := (selftestWords b v clocks r).zipIdx.map fun x => (WTarget.s (d + x.2), x.1)
      let s := (s.updWarp w fun x => x.commitAll ws).filmed w ((List.range 4).map fun k => (256 + d + k, p.pc))
      let s :=
        if away then s.endFrozen w slot p.park (some (256 + d))
        else (⟨s, w, slot, l, bk, wp, p⟩ : Ctx).waitDoneWith s (some (256 + d)) (decodedLen (s.decodeAt l p.pc))
      .next (if v = 0 ∧ !r.pass ∧ bits b.toNat 2 0 = 4 then s.fenceBanks bk.die bk.site [bits b.toNat 13 8] else s)
    | _ => .fault (.notEnabled "SELFTEST_DONE")

/-! ### Events of a path -/

/-- WRITE_LANDING (04 R64, R65): one outstanding write lands; none does while a watchpoint event holds an instruction of
the warp (23 R335). -/
def execWriteLanding (w : WarpRef) (slot : Bool) (k : Nat) (s : State) : Host.Outcome State Fault Refusal :=
  match s.warp? w, s.path? w slot with
  | some x, some p =>
    if k < p.writes.length ∧ x.heldAt = false then .next (s.landOne w slot k) else .fault (.notEnabled "WRITE_LANDING")
  | _, _ => .fault (.notEnabled "WRITE_LANDING")

/-! ### Faults that come when their path has gone on -/

/-- The fault of an applied splice operation is delivered once nothing is outstanding (04 R69). DEDUCED: its NPC is where
the path then stands, and lanes that have exited since take no part in it (notes/assumptions/31.md). -/
def State.deliverLate (s : State) (w : Warp) (slot : Bool) (p : Path) (e : LateFault) : State :=
  let s := s.updPath w.ref slot fun p => { p with late := p.late.tail }
  let m := e.mask &&& ~~~w.exited
  if m = 0 then s
  else s.bump.deliver w.ref slot e.cls e.kind (e.entries.filter fun x => m.getLsbD x.lane) m e.pc p.pc

/-- A warp's first fault of that kind. -/
def Warp.lateFault? (w : Warp) : Option (Bool × Path × LateFault) :=
  (w.live.filterMap fun x => x.2.late.head?.map fun e => (x.1, x.2, e)).head?

/-- The warps that have such faults, and can take them now, take them one after another; the number bounds them. -/
def State.runLate : Nat → State → State
  | 0, s => s
  | n + 1, s =>
    match s.x.warps.findSome? fun w =>
      if s.warpRuns w && !w.heldAt && !s.splicing w.ref then w.lateFault?.map fun x => (w, x) else none with
    | none => s
    | some (w, slot, p, e) => (s.deliverLate w slot p e).runLate n

/-- PATH_STARVATION (07 R134): a path that has been eligible and unchosen for 64 clocks of its scheduler is
starved. -/
def execPathStarvation (w : WarpRef) (slot : Bool) (s : State) : Host.Outcome State Fault Refusal :=
  match s.path? w slot with
  | none => .fault (.notEnabled "PATH_STARVATION")
  | some p =>
    if Config.starveClocks ≤ p.starve ∧ p.starved = false then
      .next (s.updPath w slot fun p => { p with starved := true })
    else .fault (.notEnabled "PATH_STARVATION")

end Sys2Proof.Machine
end

