-- ==== Sys2Proof/Machine/Darkroom.lean ====
section
/-! DEFINITION. The darkroom core of a loupe cluster (01 R10; 20 R303 to R305; 27 R381): an RV32IMC core that runs
predicates out of darkroom SRAM. PRESUMED (notes/assumptions/49.md): the spec names the instruction set and does not
give it; what its instructions do is taken from the RISC-V unprivileged specification. -/

namespace Sys2Proof.Machine

/-! ### Darkroom SRAM (27 R381) -/

/-- The bytes of darkroom SRAM. -/
def darkBytes : Nat := 0x10000

/-- A byte as the core reads it: the doorbell and the reserved bytes read as zero. -/
def darkByte (m : Memory) (a : Nat) : Byte := if 0x108 ≤ a ∧ a < 0x200 then 0 else get0 m a

/-- n bytes as the core reads them; none when a byte lies outside. -/
def darkLoad (m : Memory) (a n : Nat) : Option Nat :=
  if a + n ≤ darkBytes then some (leNat ((List.range n).map fun k => darkByte m (a + k))) else none

/-- What a store leaves: memory, the log data at each ring of the doorbell, whether it was completed. -/
structure DarkStored where
  m : Memory
  rings : List Nat
  ok : Bool
  deriving DecidableEq, Repr

/-- The log data. -/
def darkLog (m : Memory) : Nat := leNat (readBytes m 0x100 8)

/-- One byte of a store; ring says whether a byte in the doorbell counts as a store of its own. -/
def darkStoreByte (m : Memory) (a : Nat) (b : Byte) (ring : Bool) : DarkStored :=
  if a < 0x100 ∨ darkBytes ≤ a then ⟨m, [], false⟩
  else if 0x108 ≤ a ∧ a < 0x200 then ⟨m, if ring && decide (a < 0x10C) then [darkLog m] else [], true⟩
  else ⟨put0 m a b, [], true⟩

/-- Bytes from an address on, in ascending order, as stores of their own. -/
def darkStoreBytes (m : Memory) (a : Nat) : List Byte → DarkStored
  | [] => ⟨m, [], true⟩
  | b :: r =>
    let x := darkStoreByte m a b true
    if x.ok then
      let y := darkStoreBytes x.m (a + 1) r
      { y with rings := x.rings ++ y.rings }
    else x

/-- A store of n bytes: an aligned one is one store; one that is not is performed as byte accesses. -/
def darkStore (m : Memory) (a n : Nat) (v : Word) : DarkStored :=
  let bs := leBytes n v.toNat
  if a % n = 0 ∧ 0x108 ≤ a ∧ a < 0x10C then ⟨m, [darkLog m], true⟩ else darkStoreBytes m a bs

/-! ### Compressed instructions -/

/-- A field of w bits sign-extended to n bits. -/
def sxField (w n v : Nat) : Nat := if 2 ^ (w - 1) ≤ v then v + 2 ^ n - 2 ^ w else v

/-- 32-bit words from their fields. -/
def rvI (imm rs1 f3 rd op : Nat) : Nat := imm % 4096 * 2 ^ 20 + rs1 * 2 ^ 15 + f3 * 2 ^ 12 + rd * 2 ^ 7 + op
def rvS (imm rs2 rs1 f3 : Nat) : Nat :=
  bits imm 11 5 * 2 ^ 25 + rs2 * 2 ^ 20 + rs1 * 2 ^ 15 + f3 * 2 ^ 12 + bits imm 4 0 * 2 ^ 7 + 0x23
def rvB (imm rs1 f3 : Nat) : Nat :=
  bits imm 12 12 * 2 ^ 31 + bits imm 10 5 * 2 ^ 25 + rs1 * 2 ^ 15 + f3 * 2 ^ 12 + bits imm 4 1 * 2 ^ 8 +
    bits imm 11 11 * 2 ^ 7 + 0x63
def rvJ (imm rd : Nat) : Nat :=
  bits imm 20 20 * 2 ^ 31 + bits imm 10 1 * 2 ^ 21 + bits imm 11 11 * 2 ^ 20 + bits imm 19 12 * 2 ^ 12 + rd * 2 ^ 7 + 0x6F
def rvR (f7 rs2 rs1 f3 rd : Nat) : Nat := f7 * 2 ^ 25 + rs2 * 2 ^ 20 + rs1 * 2 ^ 15 + f3 * 2 ^ 12 + rd * 2 ^ 7 + 0x33

/-- Quadrant 0. -/
def rvc0 (h : Nat) : Option Nat :=
  let rd := 8 + bits h 4 2
  let rs := 8 + bits h 9 7
  let off := bits h 12 10 * 8 + bits h 6 6 * 4 + bits h 5 5 * 64
  match bits h 15 13 with
  | 0 =>
    let imm := bits h 12 11 * 16 + bits h 10 7 * 64 + bits h 6 6 * 4 + bits h 5 5 * 8
    if imm = 0 then none else some (rvI imm 2 0 rd 0x13)
  | 2 => some (rvI off rs 2 rd 0x03)
  | 6 => some (rvS off rd rs 2)
  | _ => none

/-- Quadrant 1, function 4: shifts by a constant, ANDI, and the register forms. -/
def rvc1Alu (h imm : Nat) : Option Nat :=
  let rd := 8 + bits h 9 7
  let rs := 8 + bits h 4 2
  match bits h 11 10 with
  | 0 => if bitAt h 12 then none else some (rvI (bits h 6 2) rd 5 rd 0x13)
  | 1 => if bitAt h 12 then none else some (rvI (1024 + bits h 6 2) rd 5 rd 0x13)
  | 2 => some (rvI imm rd 7 rd 0x13)
  | _ =>
    if bitAt h 12 then none
    else
      match bits h 6 5 with
      | 0 => some (rvR 32 rs rd 0 rd)
      | 1 => some (rvR 0 rs rd 4 rd)
      | 2 => some (rvR 0 rs rd 6 rd)
      | _ => some (rvR 0 rs rd 7 rd)

/-- Quadrant 1. -/
def rvc1 (h : Nat) : Option Nat :=
  let rd := bits h 11 7
  let imm := sxField 6 12 (bits h 12 12 * 32 + bits h 6 2)
  let jmp := sxField 12 21 (bits h 12 12 * 2048 + bits h 11 11 * 16 + bits h 10 9 * 256 + bits h 8 8 * 1024 +
    bits h 7 7 * 64 + bits h 6 6 * 128 + bits h 5 3 * 2 + bits h 2 2 * 32)
  let br := sxField 9 13 (bits h 12 12 * 256 + bits h 11 10 * 8 + bits h 6 5 * 64 + bits h 4 3 * 2 + bits h 2 2 * 32)
  match bits h 15 13 with
  | 0 => some (rvI imm rd 0 rd 0x13)
  | 1 => some (rvJ jmp 1)
  | 2 => some (rvI imm 0 0 rd 0x13)
  | 3 =>
    if rd = 2 then
      let x := sxField 10 12 (bits h 12 12 * 512 + bits h 6 6 * 16 + bits h 5 5 * 64 + bits h 4 3 * 128 + bits h 2 2 * 32)
      if x = 0 then none else some (rvI x 2 0 2 0x13)
    else
      let x := sxField 6 20 (bits h 12 12 * 32 + bits h 6 2)
      if x = 0 then none else some (x * 2 ^ 12 + rd * 2 ^ 7 + 0x37)
  | 4 => rvc1Alu h imm
  | 5 => some (rvJ jmp 0)
  | 6 => some (rvB br (8 + bits h 9 7) 0)
  | _ => some (rvB br (8 + bits h 9 7) 1)

/-- Quadrant 2. -/
def rvc2 (h : Nat) : Option Nat :=
  let rd := bits h 11 7
  let rs := bits h 6 2
  match bits h 15 13 with
  | 0 => if bitAt h 12 then none else some (rvI rs rd 1 rd 0x13)
  | 2 => if rd = 0 then none else some (rvI (bits h 12 12 * 32 + bits h 6 4 * 4 + bits h 3 2 * 64) 2 2 rd 0x03)
  | 4 =>
    match bitAt h 12, rs with
    | false, 0 => if rd = 0 then none else some (rvI 0 rd 0 0 0x67)
    | false, _ => some (rvR 0 rs 0 0 rd)
    | true, 0 => if rd = 0 then none else some (rvI 0 rd 0 1 0x67)
    | true, _ => some (rvR 0 rs rd 0 rd)
  | 6 => some (rvS (bits h 12 9 * 4 + bits h 8 7 * 64) rs 2 2)
  | _ => none

/-- The 32-bit word that a 16-bit one stands for; none for an illegal one. -/
def rvExpand (h : Nat) : Option Nat :=
  match bits h 1 0 with
  | 0 => rvc0 h
  | 1 => rvc1 h
  | _ => rvc2 h

/-! ### Execution -/

/-- Register x n; x0 is zero. -/
def DarkCore.x (c : DarkCore) (n : Nat) : Word := get0 c.regs n

/-- Write register x n, and go on len bytes further. -/
def DarkCore.put (c : DarkCore) (n : Nat) (v : Word) (pc : Word) : DarkCore :=
  { c with regs := if n = 0 then c.regs else put0 c.regs n v, pc := pc }

/-- The integer operations by FUNCT3; alt names SUB and SRA. -/
def rvAlu (f3 : Nat) (alt : Bool) (a b : Word) : Word :=
  match f3 with
  | 0 => if alt then a - b else a + b
  | 1 => a <<< (b.toNat % 32)
  | 2 => BitVec.ofNat 32 (b2n (a.slt b))
  | 3 => BitVec.ofNat 32 (b2n (a.ult b))
  | 4 => a ^^^ b
  | 5 => if alt then a.sshiftRight (b.toNat % 32) else a >>> (b.toNat % 32)
  | 6 => a ||| b
  | _ => a &&& b

/-- The multiplications and divisions by FUNCT3; a division by zero gives all ones, and leaves the dividend. -/
def rvMul (f3 : Nat) (a b : Word) : Word :=
  match f3 with
  | 0 => a * b
  | 1 => BitVec.ofInt 32 (a.toInt * b.toInt / 2 ^ 32)
  | 2 => BitVec.ofInt 32 (a.toInt * b.toNat / 2 ^ 32)
  | 3 => BitVec.ofNat 32 (a.toNat * b.toNat / 2 ^ 32)
  | 4 => if b = 0 then BitVec.allOnes 32 else BitVec.ofInt 32 (a.toInt.tdiv b.toInt)
  | 5 => if b = 0 then BitVec.allOnes 32 else BitVec.ofNat 32 (a.toNat / b.toNat)
  | 6 => if b = 0 then a else BitVec.ofInt 32 (a.toInt.tmod b.toInt)
  | _ => if b = 0 then a else BitVec.ofNat 32 (a.toNat % b.toNat)

/-- The conditions of branches by FUNCT3; 2 and 3 are illegal. -/
def rvTaken (f3 : Nat) (a b : Word) : Option Bool :=
  match f3 with
  | 0 => some (decide (a = b))
  | 1 => some (decide (a ≠ b))
  | 4 => some (a.slt b)
  | 5 => some (!a.slt b)
  | 6 => some (a.ult b)
  | 7 => some (!a.ult b)
  | _ => none

/-- A sign-extended immediate as a word. -/
def rvImm (w v : Nat) : Word := BitVec.ofNat 32 (sxField w 32 v)

/-- What one instruction leaves: the core, memory, the doorbell's rings; none of it when it raises an exception before it
has any effect. -/
abbrev DarkStep := Option (DarkCore × DarkStored)

/-- A 32-bit word, len bytes long as it was fetched. -/
def DarkCore.exec (c : DarkCore) (m : Memory) (w len : Nat) : DarkStep :=
  let rd := bits w 11 7
  let f3 := bits w 14 12
  let a := c.x (bits w 19 15)
  let b := c.x (bits w 24 20)
  let f7 := bits w 31 25
  let next := c.pc + BitVec.ofNat 32 len
  let immI := rvImm 12 (bits w 31 20)
  let done (v : Word) (pc : Word) : DarkStep := some (c.put rd v pc, ⟨m, [], true⟩)
  match bits w 6 0 with
  | 0x37 => done (BitVec.ofNat 32 (bits w 31 12 * 2 ^ 12)) next
  | 0x17 => done (c.pc + BitVec.ofNat 32 (bits w 31 12 * 2 ^ 12)) next
  | 0x6F =>
    let j := bits w 31 31 * 2 ^ 20 + bits w 19 12 * 2 ^ 12 + bits w 20 20 * 2 ^ 11 + bits w 30 21 * 2
    done next (c.pc + rvImm 21 j)
  | 0x67 => if f3 = 0 then done next ((a + immI) &&& 0xFFFFFFFE) else none
  | 0x63 =>
    let j := bits w 31 31 * 2 ^ 12 + bits w 7 7 * 2 ^ 11 + bits w 30 25 * 2 ^ 5 + bits w 11 8 * 2
    (rvTaken f3 a b).map fun t => ({ c with pc := if t then c.pc + rvImm 13 j else next }, ⟨m, [], true⟩)
  | 0x03 =>
    let x := (a + immI).toNat
    match f3 with
    | 0 => (darkLoad m x 1).bind fun v => done (rvImm 8 v) next
    | 1 => (darkLoad m x 2).bind fun v => done (rvImm 16 v) next
    | 2 => (darkLoad m x 4).bind fun v => done (BitVec.ofNat 32 v) next
    | 4 => (darkLoad m x 1).bind fun v => done (BitVec.ofNat 32 v) next
    | 5 => (darkLoad m x 2).bind fun v => done (BitVec.ofNat 32 v) next
    | _ => none
  | 0x23 =>
    if 3 ≤ f3 then none
    else some ({ c with pc := next }, darkStore m (a + rvImm 12 (f7 * 32 + rd)).toNat (2 ^ f3) b)
  | 0x13 =>
    if f3 = 1 ∧ f7 ≠ 0 then none
    else if f3 = 5 ∧ f7 ≠ 0 ∧ f7 ≠ 32 then none
    else done (rvAlu f3 (decide (f3 = 5) && decide (f7 = 32)) a immI) next
  | 0x33 =>
    if f7 = 1 then done (rvMul f3 a b) next
    else if f7 = 0 ∨ (f7 = 32 ∧ (f3 = 0 ∨ f3 = 5)) then done (rvAlu f3 (decide (f7 = 32)) a b) next
    else none
  | 0x0F => if f3 = 0 then some ({ c with pc := next }, ⟨m, [], true⟩) else none
  | _ => none

/-- One instruction of the core: fetched from SRAM, at an even address. -/
def DarkCore.step (c : DarkCore) (m : Memory) : DarkStep :=
  let pc := c.pc.toNat
  if pc % 2 ≠ 0 then none
  else
    let c := { c with count := c.count + 1 }
    match darkLoad m pc 2 with
    | none => none
    | some h =>
      if bits h 1 0 = 3 then (darkLoad m pc 4).bind fun w => c.exec m w 4
      else (rvExpand h).bind fun w => c.exec m w 2

/-- The address in the core's ROM to which a predicate returns (27 R381): outside SRAM, otherwise free. -/
def darkReturn : Word := BitVec.ofNat 32 (darkBytes + 2 * (Config.romReturn % (2 ^ 31 - darkBytes / 2)))

/-- How a run of the core stands: the predicate has returned, is stopped by an exception, has just rung the doorbell with
these log data, or runs on. -/
inductive DarkEnd where
  | returned
  | exception
  | rang (data : List Nat)
  | running
  deriving DecidableEq, Repr

/-- Run the core for at most n instructions, up to the first that rings the doorbell or ends the call. -/
def darkRun : Nat → DarkCore → Memory → DarkCore × Memory × DarkEnd
  | 0, c, m => (c, m, if c.pc = darkReturn then .returned else .running)
  | n + 1, c, m =>
    if c.pc = darkReturn then (c, m, .returned)
    else
      match c.step m with
      | none => (c, m, .exception)
      | some (c', x) =>
        if !x.ok then (c', x.m, .exception)
        else if x.rings ≠ [] then (c', x.m, .rang x.rings)
        else darkRun n c' x.m

/-- The core at a call of the program at an entry: a0, sp and ra are set, and its other registers keep what an earlier
call left (27 R381). -/
def DarkCore.call (c : DarkCore) (entry : Word) (now : DWord) : DarkCore where
  regs := put0 (put0 (put0 c.regs 1 darkReturn) 2 0x1000) 10 0x200
  pc := entry
  count := 0
  start := now

/-- Darkroom clocks that a call may take, and the device clocks that pass in them (20 R304, 28 R390). -/
def darkBudget : Nat := 4096
def darkClocks : Nat := 3 * darkBudget

end Sys2Proof.Machine
end

