-- ==== Sys2Proof/Machine/Loupe.lean ====
section
/-! DEFINITION. Transfers to and from loupe cores (20 R294, R295, R300; 07 R134), the stall watchdog, sampling,
and the darkroom core's predicates (20 R303 to R306, 27 R381). -/

namespace Sys2Proof.Machine

/-! ### Binding to a scheduler (07 R134) -/

/-- The scheduler a warp that comes to a core is bound to: the one with fewer warps bound, 0 when equal. A transferred
warp keeps its place at home (20 R297). -/
def State.bindSched (s : State) (b : Block) (r : WarpRef) : Nat :=
  let bound (k : Nat) : Nat := (s.x.warps.filter fun w =>
    !w.ended && decide (w.ref ≠ r) && decide (w.sched = k) &&
    (match s.block? w.ref.launch w.ref.block with
      | some c => decide (c.coreKey = b.coreKey)
      | none => false)).length
  if bound 1 < bound 0 then 1 else 0

/-- The same on a loupe core, for the warps there (20 R299). -/
def State.bindLoupe (s : State) (d core : Nat) (r : WarpRef) : Nat :=
  let bound (k : Nat) : Nat := (s.x.warps.filter fun w =>
    !w.ended && decide (w.ref ≠ r) && decide (s.dieOf w.ref = d) && decide (w.onLoupe?.map Prod.fst = some core) &&
    decide (w.loupe.sched = k)).length
  if bound 1 < bound 0 then 1 else 0

/-! ### Transfers -/

/-- Every warp of a block takes its retired count as its pacing base (20 R300). -/
def State.rebase (s : State) (launch block : Nat) : State :=
  let base (w : Warp) : Warp :=
    if w.ref.launch = launch ∧ w.ref.block = block then { w with loupe := { w.loupe with base := w.retired } } else w
  { s with x := { s.x with warps := s.x.warps.map base } }

/-- The PC of the live path that holds the warp's lowest lane; of the faulting instruction, for a warp that is
paused at one (19 R287). -/
def Warp.lowPc (w : Warp) : Word :=
  match w.loupe.pause, w.live with
  | .fault _ _ pc _ _, _ => pc
  | _, [] => 0
  | _, x :: r => (r.foldl (fun (b : Path) y => if lowestLane y.2.lanes < lowestLane b.lanes then y.2 else b) x.2).pc

/-- The transfer record of a warp that is on a loupe core (20 R307): TYPE 3 in, 4 out. -/
def State.transferRecord (s : State) (w : Warp) (ty : Nat) : State :=
  s.sheet w.ref (BitVec.ofNat 32 w.ref.block) w.lowPc none w.ref.warp 0 ty

/-- A warp after a transfer: its waits issue again (11 R205, 21 R327). -/
def Warp.movedPaths (w : Warp) : Warp := { w with p0 := w.p0.map Path.moved, p1 := w.p1.map Path.moved }

/-- A warp arrives in a slot of a loupe core (20 R295, R296, R300); the pause of a DBGBRK begins. -/
def State.arriveLoupe (s : State) (r : WarpRef) (c k : Nat) : State :=
  let d := s.dieOf r
  let n := (s.die d).loupe.tseq + 1
  let pace := (s.die d).loupe.ctl.pace
  let s := s.updLoupe d fun x => { x with tseq := n }
  let sched := s.bindLoupe d c r
  let s := (s.landBoth r).updWarp r fun w =>
    { w.movedPaths with idle := 0, loupe := { w.loupe with place := .loupe c k, tseq := n, pace := pace, sched := sched } }
  let s := s.rebase r.launch r.block
  match s.warp? r with
  | none => s
  | some w =>
    let s := s.transferRecord w 3
    match w.loupe.brk with
    | some b => s.breakPause r b
    | none => s

/-- A warp on a loupe core begins its way home: its writes land and its slot is free (20 R295). -/
def State.sendHome (s : State) (r : WarpRef) : State :=
  match s.warp? r with
  | none => s
  | some w =>
    let s := (s.landBoth r).transferRecord w 4
    let s := s.updWarp r fun w => { w with inject := none, loupe := { w.loupe with place := .returning } }
    s.rebase r.launch r.block

/-- A warp may arrive: no splice operation owes it a result, and no SELFTEST of it runs (20 R295, 21 R327). -/
def State.mayArrive (s : State) (w : Warp) : Bool :=
  !s.splicing w.ref && !w.testing

/-- A warp is back on its home core and is bound there again (07 R134). -/
def State.arriveHome (s : State) (r : WarpRef) (b : Block) : State :=
  let n := s.bindSched b r
  (s.landBoth r).updWarp r fun x => { x.movedPaths with sched := n, idle := 0, loupe := { x.loupe with place := .home } }

/-- TRANSFER_COMPLETE (20 R295): a warp arrives on a loupe core, or at home again; one that has waited for a slot, and
is the next to have one, begins its transfer. -/
def execTransferComplete (w : WarpRef) (s : State) : Host.Outcome State Fault Refusal :=
  match s.warp? w, s.block? w.launch w.block with
  | some x, some b =>
    match x.loupe.place with
    | .leaving c k => if s.mayArrive x then .next (s.arriveLoupe w c k) else .fault (.notEnabled "TRANSFER_COMPLETE")
    | .wanting _ => if (s.slotFor w).isSome then .next (s.sendToLoupe w) else .fault (.notEnabled "TRANSFER_COMPLETE")
    | .returning => if s.mayArrive x then .next (s.arriveHome w b) else .fault (.notEnabled "TRANSFER_COMPLETE")
    | _ => .fault (.notEnabled "TRANSFER_COMPLETE")
  | _, _ => .fault (.notEnabled "TRANSFER_COMPLETE")

/-- A trigger that is skipped and counted when no slot is free (20 R294). -/
def State.transferOrSkip (s : State) (r : WarpRef) : State :=
  let d := s.dieOf r
  match s.slotFor r with
  | some _ => s.sendToLoupe r
  | none => s.updLoupe d fun x => { x with skipped := x.skipped + 1 }

/-- STALL_WATCHDOG (20 R294, R296): a resident warp has retired nothing for WDOG device clocks. -/
def execStallWatchdog (w : WarpRef) (s : State) : Host.Outcome State Fault Refusal :=
  match s.warp? w, s.launch? w.launch with
  | some x, some l =>
    let d := s.dieOf w
    let n := (s.die d).loupe.ctl.wdog
    if n ≠ 0 ∧ n ≤ x.idle ∧ !x.ended ∧ x.loupe.place = .home ∧ (s.loupeSite? d).isSome ∧ s.debugAllowed l then
      .next ((s.transferOrSkip w).updWarp w fun x => { x with idle := 0 })
    else .fault (.notEnabled "STALL_WATCHDOG")
  | _, _ => .fault (.notEnabled "STALL_WATCHDOG")

/-- A launch of the kernel SCODE is dispatched: on each die whose loupe control record names it, every
SCOUNT-th is a sample (20 R294, R296). -/
def State.sampleLaunch (s : State) (uid code : Nat) : List Nat → State
  | [] => s
  | d :: ds =>
    let x := (s.die d).loupe
    let s :=
      if x.ctl.scount = 0 ∨ x.ctl.scode ≠ code then s
      else if x.ctl.scount ≤ x.sampleCount + 1 then
        (s.updLoupe d fun x => { x with sampleCount := 0 }).updLaunch uid fun l => { l with sampled := l.sampled ++ [d] }
      else s.updLoupe d fun x => { x with sampleCount := x.sampleCount + 1 }
    s.sampleLaunch uid code ds

/-- The first block of a sampled launch on a die is placed: its warp 0 transfers before its first issue, and no other
block's does. DESIGN CHOICE (notes/assumptions/47.md): in a tripod launch, too, the first block placed on the die is the
sample, whatever its number. -/
def State.takeSample (s : State) (l : Launch) (d block : Nat) : State :=
  if ((s.launch? l.uid).map fun l => l.sampled.contains d).getD false then
    let s := s.updLaunch l.uid fun l => { l with sampled := l.sampled.filter fun x => decide (x ≠ d) }
    if (s.loupeSite? d).isSome && s.debugAllowed l then s.transferOrSkip ⟨l.uid, block, 0⟩ else s
  else s

/-! ### Predicates -/

/-- The lane entries of a hit record (20 R304): zero for lanes that did not hit. -/
def Hit.laneBytes (h : Hit) (mask : LaneMask) : List Byte :=
  ((List.range 32).map fun l =>
    match h.lanes.find? fun x => decide (x.1 = l) with
    | some (_, word, addr) => leBytes 8 (if mask.getLsbD l then word.toNat * 2 ^ 32 + addr.toNat else 0)
    | none => leBytes 8 0).flatten

/-- The 272 bytes of a hit record for one watchpoint. -/
def Hit.bytes (h : Hit) (wp : Nat) (mask : LaneMask) (absent : Bool) : List Byte :=
  leBytes 16 (h.seq % 2 ^ 32 + b2n h.engine * 2 ^ 32 + b2n absent * 2 ^ 33 + wp % 64 * 2 ^ 34 +
    h.ref.block % 2 ^ 11 * 2 ^ 40 + h.ref.warp % 32 * 2 ^ 51 + h.pc.toNat * 2 ^ 64 + mask.toNat * 2 ^ 96) ++
  h.laneBytes mask

/-- Replace the hit that the darkroom core serves, the first of the queue. -/
def LoupeCluster.setHead (x : LoupeCluster) (h : Hit) : LoupeCluster := { x with hits := h :: x.hits.tail }

/-- PREDICATE_START (20 R303, R304): the next predicate of the oldest hit starts with its record in darkroom
SRAM. -/
def execPredicateStart (die : Nat) (s : State) : Host.Outcome State Fault Refusal :=
  match (s.die die).loupe.hits with
  | [] => .fault (.notEnabled "PREDICATE_START")
  | h :: _ =>
    match h.running, h.todo with
    | false, (wp, m) :: _ =>
      let absent := h.engine && !s.hitPresent h
      let call (x : LoupeCluster) : LoupeCluster :=
        let prog := bits ((tget x.wps (64 * h.lcore + wp)).getD 0).toNat 31 26
        let entry := BitVec.ofNat 32 (leNat (readBytes x.sram (4 * prog) 4))
        { x.setHead { h with running := true, logs := 0 } with
          sram := writeBytes x.sram 0x200 (h.bytes wp m absent), dark := x.dark.call entry s.time }
      .next (s.updLoupe die call)
    | _, _ => .fault (.notEnabled "PREDICATE_START")

/-- The hit whose predicate runs on a die. -/
def State.runningHit (s : State) (die : Nat) : Option Hit := (s.die die).loupe.hits.head?.filter Hit.running

/-- Device clocks since a die's predicate was called. -/
def State.darkAge (s : State) (die : Nat) : Nat := (s.time - (s.die die).loupe.dark.start).toNat

/-- The running predicate of a die run on for at most n more instructions; no instruction takes less than a clock. -/
def LoupeCluster.runDark (x : LoupeCluster) (n : Nat) : DarkCore × Memory × DarkEnd :=
  darkRun (min n (darkBudget - x.dark.count)) x.dark x.sram

/-- The hit that a die's core runs a predicate for, and how that run goes on within its budget. -/
def State.darkGoes (s : State) (die : Nat) : Option (Hit × DarkCore × Memory × DarkEnd) :=
  match s.runningHit die with
  | none => none
  | some h => if s.darkAge die ≤ darkClocks then some (h, (s.die die).loupe.runDark darkBudget) else none

/-- Bytes stored over a memory. -/
def overlaid : List (Nat × Byte) → Memory → Memory
  | [], m => m
  | e :: r, m => overlaid r (put0 m e.1 e.2)

/-- Every byte that either of two memories lists, as the second has it. -/
def storesTo (m0 m : Memory) : List (Nat × Byte) := (m0 ++ m).map fun e => (e.1, get0 m e.1)

/-- The bytes that a predicate's event names are what its run has left in darkroom SRAM. -/
def LoupeCluster.leaves (x : LoupeCluster) (stores : List (Nat × Byte)) (m : Memory) : Bool :=
  decide (overlaid stores x.sram = m)

/-- The core and SRAM of a die's predicate that its budget stops (20 R304). How many instructions it has executed by
then is free (notes/assumptions/49.md). -/
def State.darkStopped (s : State) (die : Nat) : DarkCore × Memory :=
  let x := (s.die die).loupe
  match x.runDark (Config.freeIndex s.free 0 % (darkBudget + 1)) with
  | (c, m, .running) => (c, m)
  | _ => (x.dark, x.sram)

/-- A predicate has ended with a result, its core and SRAM as they then are; when it was the event's last, the event
ends (20 R303, R306). -/
def State.endPredicate (s : State) (die : Nat) (h : Hit) (result spoilt : Bool) (core : DarkCore) (m : Memory) : State :=
  let h := { h with running := false, todo := h.todo.tail, anyTrue := h.anyTrue || result, overrun := h.overrun || spoilt }
  let s := s.updLoupe die fun x => { x with sram := m, dark := core }
  if h.todo ≠ [] then s.updLoupe die fun x => x.setHead h
  else
    let s := s.updLoupe die fun x => { x with hits := x.hits.tail }
    if h.engine then s.endEngHit die h else s.endHit h

/-- PREDICATE_RETURN (20 R303, R304): a nonzero a0 is true. The event is that of the run: it names the result and
the bytes that this has. -/
def execPredicateReturn (die : Nat) (a0 : Word) (stores : List (Nat × Byte)) (s : State) : Host.Outcome State Fault Refusal :=
  match s.darkGoes die with
  | some (h, c, m, .returned) =>
    if c.x 10 = a0 ∧ (s.die die).loupe.leaves stores m then .next (s.endPredicate die h (decide (a0 ≠ 0)) false c m)
    else .fault (.notEnabled "PREDICATE_RETURN")
  | _ => .fault (.notEnabled "PREDICATE_RETURN")

/-- PREDICATE_OVERRUN (20 R304): a predicate that has not returned after 4,096 darkroom clocks is stopped; its
result is false. -/
def execPredicateOverrun (die : Nat) (stores : List (Nat × Byte)) (s : State) : Host.Outcome State Fault Refusal :=
  match s.runningHit die with
  | none => .fault (.notEnabled "PREDICATE_OVERRUN")
  | some h =>
    let y := s.darkStopped die
    if darkClocks ≤ s.darkAge die ∧ (s.die die).loupe.leaves stores y.2 then
      .next ((s.endPredicate die h false true y.1 y.2).bump)
    else .fault (.notEnabled "PREDICATE_OVERRUN")

/-- PREDICATE_EXCEPTION (27 R381): a predicate is stopped; its result is false, and the record carries OVERRUN. -/
def execPredicateException (die : Nat) (stores : List (Nat × Byte)) (s : State) : Host.Outcome State Fault Refusal :=
  match s.darkGoes die with
  | some (h, c, m, .exception) =>
    if (s.die die).loupe.leaves stores m then .next (s.endPredicate die h false true c m)
    else .fault (.notEnabled "PREDICATE_EXCEPTION")
  | _ => .fault (.notEnabled "PREDICATE_EXCEPTION")

/-- A predicate-log record (20 R307): the 8 bytes in [95:32]; its MASK is not stated, and free
(notes/assumptions/1.md). -/
def logRecord (free : Nat) (data slot tseq : Nat) : BitVec 128 :=
  BitVec.ofNat 128 ((freeWordAt free 700001).toNat * 2 ^ 96 + data % 2 ^ 64 * 2 ^ 32 + 5 * 2 ^ 24 + slot % 256 * 2 ^ 16 +
    tseq % 2 ^ 16)

/-- LOG_DOORBELL (27 R381): a store to the doorbell appends a record with the 8 bytes at 0x0100; a call appends
at most four. -/
def execLogDoorbell (die : Nat) (stores : List (Nat × Byte)) (s : State) : Host.Outcome State Fault Refusal :=
  match s.darkGoes die with
  | some (h, c, m, .rang data) =>
    if (s.die die).loupe.leaves stores m then
      let kept := data.take (4 - h.logs)
      let ring (x : LoupeCluster) : LoupeCluster :=
        kept.foldl (fun y v => y.append (logRecord s.free v (slotByte h.lcore h.lslot) h.tseq))
          ({ x with sram := m, dark := c }.setHead { h with logs := h.logs + kept.length })
      .next ((s.updLoupe die ring).bump)
    else .fault (.notEnabled "LOG_DOORBELL")
  | _ => .fault (.notEnabled "LOG_DOORBELL")

/-- The events of the darkroom core, as its predicate runs: its return, its overrun, its exception, its doorbell. -/
def darkroomEvents (die : Nat) (s : State) : List (State → Host.Outcome State Fault Refusal) :=
  let x := (s.die die).loupe
  let run := x.runDark darkBudget
  let stores := storesTo x.sram run.2.1
  [execPredicateReturn die (run.1.x 10) stores, execPredicateOverrun die (storesTo x.sram (s.darkStopped die).2),
   execPredicateException die stores, execLogDoorbell die stores]

end Sys2Proof.Machine
end

