-- ==== Sys2Proof/Machine/Queues.lean ====
section
/-! DEFINITION. Queues, their entries and completion records (27 R372 to R376, 24 R348). -/

namespace Sys2Proof.Machine

/-! ### Entries (27 R373) -/

/-- QCOUNT of an interface; interface 0 keeps what the others leave (27 R370). -/
def State.qcountOf (s : State) (i : Nat) : Nat :=
  if i = 0 then 8192 - (((List.range 127).map fun k => (s.iface (k + 1)).qcount).foldl (· + ·) 0) else (s.iface i).qcount

/-- Slots of a queue's rings. -/
def Queue.slots (q : Queue) : Nat := 2 ^ q.log2n

/-- A queue that is served: enabled and granted. -/
def State.queueServed (s : State) (i q : Nat) : Bool :=
  (s.iface i).enabled && decide (q < s.qcountOf i) && decide ((s.queue i q).weight ≠ 0)

/-- The first k bytes of entry n in host memory. -/
def State.entryBytes (s : State) (i q n k : Nat) : List Byte :=
  let x := s.queue i q
  readBytes s.mem (hostBase + x.ringPa + 256 * (n % x.slots)) k

/-- Byte 0 of an entry: 0 for a launch record, else the opcode of a command. -/
def State.entryOp (s : State) (i q n : Nat) : Nat := leNat (s.entryBytes i q n 1)

/-- The entry at the head of a queue, when there is one and no command runs. -/
def State.headEntry (s : State) (i q : Nat) : Option Nat :=
  let x := s.queue i q
  if s.queueServed i q && decide (x.head < x.tail) && x.running.isNone then some x.head else none

/-- Pass entries that have completed out of ring order. The first number bounds them. -/
def skipEarly : Nat → Nat → List Nat → Nat × List Nat
  | 0, h, es => (h, es)
  | n + 1, h, es => if es.contains h then skipEarly n (h + 1) (es.filter fun e => decide (e ≠ h)) else (h, es)

/-- The head entry leaves the queue stage; the next one reaches the head now (07 R131). -/
def State.advanceHead (s : State) (i q : Nat) : State :=
  s.updQueue i q fun x =>
    let (h, es) := skipEarly (x.earlyDone.length + 1) (x.head + 1) x.earlyDone
    { x with head := h, earlyDone := es, headClk := s.time, aged := 0 }

/-- Whether every entry before the head has completed (27 R374). -/
def Queue.quiet (q : Queue) : Bool := decide (q.ended = q.head + q.earlyDone.length)

/-! ### Completion records (27 R375, R376) -/

/-- Status codes. -/
def Status.code : Status → Nat
  | .ok => 0
  | .faulted => 1
  | .dieLost => 3
  | .noDie => 4
  | .noFit => 5
  | .sessionLost => 6
  | .cancelled => 7
  | .worldMismatch => 8

/-- The grain window of a time (24 R347). -/
def windowOf (t : DWord) : Nat := t.toNat / Config.clocksPerSecond

/-- The launch ID of an entry (27 R374). -/
def launchId (q n : Nat) : Nat := q * 2 ^ 35 + n % 2 ^ 35

/-- A completion record's bits without PHASE. -/
def recordBits (win q id : Nat) (st : Status) (kind nrec time sig : Nat) : Nat :=
  kind % 256 + st.code * 2 ^ 8 + id % 2 ^ 48 * 2 ^ 32 + q % 2 ^ 13 * 2 ^ 128 + win % 2 ^ 64 * 2 ^ 192 +
    nrec % 2 ^ 32 * 2 ^ 352 + time % 2 ^ 64 * 2 ^ 384 + sig % 2 ^ 64 * 2 ^ 448

/-- Write a record at the queue's next completion-ring position; PHASE is 1 on the first pass and inverted on
each later one. -/
def State.putRecord (s : State) (i q v : Nat) : State :=
  let x := s.queue i q
  let phase := 1 - x.done / x.slots % 2
  (s.writeHost (x.cmplPa + 64 * (x.done % x.slots)) (leBytes 64 (v + phase * 2 ^ 256))).updQueue i q fun x =>
    { x with done := x.done + 1 }

/-- The world of an interface's session; 0 without one. -/
def State.sessionWorld (s : State) (i : Nat) : Nat := ((s.iface i).session.map Session.world).getD 0

/-- An entry completes: its record is written, or for a protected world held until its grain window ends
(24 R348), without SIG, TIME and NREC. -/
def State.completeEntry (s : State) (i q id : Nat) (st : Status) (kind nrec sig : Nat) (prot : Bool) : State :=
  let s := s.updQueue i q fun x => { x with ended := x.ended + 1 }
  let win := windowOf s.time
  if prot then
    let v := recordBits win q id st kind 0 0 0
    s.updCtl fun c => { c with heldRecords := c.heldRecords ++ [⟨i, q, leBytes 64 v⟩] }
  else s.putRecord i q (recordBits win q id st kind nrec s.time.toNat sig)

/-- Release the held records of windows that have ended (24 R348). -/
def State.releaseRecords (s : State) : List HeldRecord → State
  | [] => s
  | h :: r =>
    let v := leNat h.bytes
    if bits v 255 192 < windowOf s.time then
      (({ s with ctl := { s.ctl with heldRecords := s.ctl.heldRecords.erase h } }).putRecord h.iface h.queue v).releaseRecords r
    else s.releaseRecords r

end Sys2Proof.Machine
end

