-- ==== Sys2Proof/Machine/Launching.lean ====
section
/-! DEFINITION. The dispatcher: launch records and their checks (07 R125, R129, R130, R393), queues, aging and
dependences (R131), dispatch (04 R62, 27 R377), admission, placement and release of blocks (R126 to R133). -/

namespace Sys2Proof.Machine

/-! ### Launch records (07 R125) -/

/-- The dependences and format slots of a record. -/
def recordDeps (v : Nat) : List DWord := (List.range 4).map fun k => BitVec.ofNat 64 (bits v (64 * k + 831) (64 * k + 768))
def recordSlots (v : Nat) : List (BitVec 128) :=
  (List.range 8).map fun k => BitVec.ofNat 128 (bits v (128 * k + 1151) (128 * k + 1024))

/-- The reserved fields of a record, those of its dependences included (R131). DESIGN CHOICE (notes/assumptions/47.md):
nonzero reserved bits of a format slot (05 R86, R87) do not fail the record's check; the slot is then not valid. -/
def recordReserved (v : Nat) : List Nat :=
  [bits v 767 744, bits v 703 692, bits v 639 616, bits v 575 564, bits v 511 496, bits v 447 436, bits v 191 170,
   bits v 63 52] ++ (List.range 4).map fun k => bits v (64 * k + 830) (64 * k + 816)

/-- A record from its 256 bytes as a number. -/
def LaunchRecord.ofBits (v : Nat) : LaunchRecord where
  codeVa := bits v 51 0
  codeSize := bits v 95 64
  entry := bits v 127 96
  cont := bits v 159 128
  idem := bitAt v 160
  cores := bitAt v 161
  tripod := bitAt v 162
  policy := bits v 164 163
  prio := bits v 166 165
  energy := bits v 169 167
  gridX := bits v 223 192
  gridY := bits v 239 224
  gridZ := bits v 255 240
  warps := bits v 263 256
  cluster := bits v 271 264
  span := bits v 287 272
  regs := bits v 303 288
  spill := bits v 311 304
  affinity := bits v 319 312
  bsmSize := bits v 351 320
  spadSize := bits v 383 352
  argVa := bits v 435 384
  argSize := bits v 479 448
  resil := bits v 495 480
  faultVa := bits v 563 512
  faultCap := bits v 607 576
  world := bits v 615 608
  profVa := bits v 691 640
  frameLen := bits v 719 704
  lcores := bits v 735 720
  accn := bits v 743 736
  deps := recordDeps v
  slots := recordSlots v
  resOk := (recordReserved v).all fun x => decide (x = 0)

/-- A number lies between two bounds and is a multiple of a third. -/
def inLimits (x lo hi m : Nat) : Bool := decide (lo ≤ x) && decide (x ≤ hi) && decide (x % m = 0)

/-- The blocks of the grid and its launch clusters (07 R123). -/
def LaunchRecord.blocks (r : LaunchRecord) : Nat := r.gridX * r.gridY * r.gridZ
def LaunchRecord.clusters (r : LaunchRecord) : Nat := r.blocks / max r.cluster 1

/-- The limits of R125. -/
def LaunchRecord.limitsOk (r : LaunchRecord) : Bool :=
  inLimits r.gridX 1 (2 ^ 31 - 1) 1 && inLimits r.gridY 1 65535 1 && inLimits r.gridZ 1 65535 1 &&
  inLimits r.warps 1 32 1 && inLimits r.cluster 1 4 1 && inLimits r.regs 8 256 8 && inLimits r.spill 0 64 1 &&
  inLimits r.bsmSize 0 262144 256 && inLimits r.spadSize 0 (2 ^ 25) 256 && inLimits r.argSize 0 16384 4 &&
  inLimits r.codeSize 4 (2 ^ 24) 4 && inLimits r.world 0 8 1 && inLimits r.accn 0 16 1 &&
  inLimits r.faultCap 0 (2 ^ 32 - 1) 8 && decide (r.codeVa % 256 = 0) && decide (r.argVa % 4 = 0) &&
  decide (r.faultVa % 8 = 0) &&
  (!r.tripod || (decide (r.frameLen ∈ [64, 128, 256, 512, 1024, 2048, 4096]) && inLimits r.lcores 1 4096 1))

/-- The queue that a valid dependence names. -/
def depQueue (d : DWord) : Nat := bits d.toNat 47 35

/-- The record checks of R129. -/
def LaunchRecord.ok (r : LaunchRecord) (qcount : Nat) : Bool :=
  r.resOk && r.limitsOk && inLimits r.entry 0 (r.codeSize - 1) 4 && inLimits r.cont 0 (r.codeSize - 1) 4 &&
  decide (r.argSize ≤ r.bsmSize) && decide (r.span % max r.cluster 1 = 0) &&
  !(decide (r.spadSize ≠ 0) && decide (r.span = 0)) && decide (r.blocks % max r.cluster 1 = 0) &&
  !(decide (r.policy = 2) && decide (r.cont = 0)) &&
  r.deps.all fun d => !d.getLsbD 63 || decide (depQueue d < qcount)

/-! ### Admission (07 R128) -/

/-- What a block uses of a core. -/
structure CoreUse where
  energy : Nat
  warps : Nat
  regs : Nat
  spill : Nat
  bsm : Nat
  deriving DecidableEq, Repr

/-- The weight of an energy class. -/
def energyUnits (c : Nat) : Nat := [2, 3, 4, 6, 8, 12, 16, 32].getD c 32

/-- BSM bytes of a block. -/
def LaunchRecord.bsmBytes (r : LaunchRecord) : Nat :=
  r.bsmSize + (if r.policy = 2 then 256 * r.warps else 0) + (if r.tripod then 8192 * r.warps else 0)

/-- A block's use. -/
def LaunchRecord.need (r : LaunchRecord) : CoreUse :=
  ⟨energyUnits r.energy, r.warps, r.warps * r.regs, r.warps * r.spill, r.bsmBytes⟩

/-- Sum of two uses. -/
def CoreUse.add (a b : CoreUse) : CoreUse := ⟨a.energy + b.energy, a.warps + b.warps, a.regs + b.regs, a.spill + b.spill, a.bsm + b.bsm⟩

/-- A use within the limits of a core under a budget. -/
def CoreUse.fits (n : CoreUse) (budget : Nat) : Bool :=
  decide (n.energy ≤ budget) && decide (n.warps ≤ Config.coreWarps) && decide (n.regs ≤ Config.coreVRegs) &&
  decide (n.spill ≤ Config.coreSpill) && decide (n.bsm ≤ Config.bsmBytes)

/-- What the blocks of a core use; one that has ended holds its BSM until its cluster ends (09 R165). -/
def State.coreUse (s : State) (k : Nat) : CoreUse :=
  s.x.blocks.foldl (fun n b =>
    if b.coreKey ≠ k then n
    else
      match s.launch? b.launch with
      | none => n
      | some l => n.add (if b.released then ⟨0, 0, 0, 0, l.record.bsmBytes⟩ else l.record.need)) ⟨0, 0, 0, 0, 0⟩

/-- The budget in force at a core: the control die's, or a lower one that SSET set (21 R324). -/
def CoreState.limit (c : CoreState) : Nat :=
  match c.sset with
  | some (v, _) => min v c.budget
  | none => c.budget

/-- A core admits one more block. -/
def State.admits (s : State) (k : Nat) (r : LaunchRecord) : Bool := ((s.coreUse k).add r.need).fits (s.core k).limit

/-- Blocks of one launch that an idle core can hold, at most its warps. -/
def State.idleBlocks (s : State) (k : Nat) (r : LaunchRecord) : Nat :=
  let n := r.need
  ((List.range 33).filter fun i =>
    (CoreUse.mk (i * n.energy) (i * n.warps) (i * n.regs) (i * n.spill) (i * n.bsm)).fits (s.core k).limit).foldl max 0

/-- Strips a launch cluster uses of its engine; RED doubles them (14 R242). -/
def LaunchRecord.strips (r : LaunchRecord) : Nat :=
  let red := r.slots.any fun f => slotRed f
  r.accn * r.cluster * (if red then 2 else 1)

/-- The ordinary cluster sites of a die. -/
def State.ordinarySites (s : State) (d : Nat) : List Nat :=
  match s.ctl.map.dies[d]? with
  | none => []
  | some f => (List.range 13).filter fun k => f.sites.getLsbD k && decide (k ≠ f.loupe)

/-- Clusters of C blocks that an idle site can hold, each on C different cores; one when it uses strips
(14 R223). -/
def State.idleClusters (s : State) (d site : Nat) (r : LaunchRecord) : Nat :=
  let p := (List.range 4).map fun c => s.idleBlocks (State.coreKey d site c) r
  let t := ((List.range 129).filter fun t => decide (r.cluster * t ≤ (p.map fun x => min x t).foldl (· + ·) 0)).foldl max 0
  if r.accn = 0 then t else min t 1

/-- Free scratchpad bytes of a die (07 R128). -/
def State.spadFree (s : State) (d : Nat) : Nat :=
  Config.spadBytes - ((s.x.spans.filter fun k => k.die = d).map fun k =>
    ((s.launch? k.launch).map fun l => l.record.spadSize).getD 0).foldl (· + ·) 0

/-! ### Which dies (07 R130, 24 R340, R341) -/

/-- The enabled dies that a record's AFFINITY names. -/
def State.namedDies (s : State) (i : Nat) (r : LaunchRecord) : List Nat :=
  (((s.logicalDies i).zipIdx.filter fun x => bitAt r.affinity x.2).map Prod.fst).filter fun d => !(s.die d).fenced

/-- Clusters of blocks that an idle die can hold. -/
def State.dieClusters (s : State) (d : Nat) (r : LaunchRecord) : Nat :=
  ((s.ordinarySites d).map fun k => s.idleClusters d k r).foldl (· + ·) 0

/-- Whether one cluster of blocks fits an idle site of some named die, and one span its scratchpad. -/
def State.clusterFits (s : State) (ds : List Nat) (r : LaunchRecord) : Bool :=
  decide (r.strips ≤ Config.stripsPerEngine) && decide (r.spadSize ≤ Config.spadBytes) &&
  ds.any fun d => (s.ordinarySites d).any fun k => decide (0 < s.idleClusters d k r)

/-- Whether the whole grid fits the idle named dies at once: full spans on single dies, then the short one. -/
def State.gridFits (s : State) (ds : List Nat) (r : LaunchRecord) : Bool :=
  let m := ds.map fun d => s.dieClusters d r
  let n := r.clusters
  if r.span = 0 then decide (n ≤ m.foldl (· + ·) 0)
  else
    let k := r.span / max r.cluster 1
    let pad := if r.spadSize = 0 then n else Config.spadBytes / r.spadSize
    let full := n / k
    let rest := n % k
    let room := (m.map fun x => min (x / k) pad).foldl (· + ·) 0
    if rest = 0 then decide (full ≤ room)
    else decide (full < room) ||
      (decide (full = room) && m.any fun x => decide (x / k < pad) && decide (rest ≤ x % k))

/-! ### Ending a launch -/

/-- Every launch cluster has been placed, and none is saved. -/
def Launch.allPlaced (l : Launch) : Bool :=
  decide (l.placed.length = l.record.clusters) && decide (l.saved = [])

/-- The launch completes with a status: its completion record is written or held (27 R374, R375), what it still
holds is freed, an EBUDGET of its ends (21 R324). -/
def State.completeLaunch (s : State) (uid : Nat) (st : Status) : State :=
  match s.launch? uid with
  | none => s
  | some l =>
    let core (c : CoreState) : CoreState :=
      match c.sset with
      | some (_, u) => if u = uid then { c with sset := none } else c
      | none => c
    let s := { s with
      x := { s.x with
        blocks := s.x.blocks.filter fun b => decide (b.launch ≠ uid)
        clusters := s.x.clusters.filter fun b => decide (b.launch ≠ uid)
        spans := s.x.spans.filter fun b => decide (b.launch ≠ uid)
        ops := s.x.ops.filter fun o => decide (o.ref.launch ≠ uid)
        cores := s.x.cores.map fun (c : Nat × CoreState) => (c.1, core c.2) }
      ctl := { s.ctl with saves := s.ctl.saves.filter fun z => decide (z.launch ≠ uid) } }
    let s := s.updLaunch uid fun l => { l with stage := .completed st, faultFrames := [], saved := [] }
    s.completeEntry l.iface l.queue l.id st ((l.firstKind.map FaultKind.code).getD 0) l.nrec l.sig.toNat
      (decide (s.sessionWorld l.iface ≠ 0))

/-- A launch completes when nothing of it is resident and nothing is left to place, or it is stopping. -/
def State.settleLaunch (s : State) (uid : Nat) : State :=
  match s.launch? uid with
  | none => s
  | some l =>
    let resident := s.x.blocks.any fun b => decide (b.launch = uid) && !b.released
    match l.stage with
    | .completed _ => s
    | _ =>
      if resident then s
      else
        match l.stopping with
        | some st => s.completeLaunch uid st
        | none => if l.allPlaced then s.completeLaunch uid (if l.faulted then .faulted else .ok) else s

/-- The record that the dispatcher writes for a launch it ends (07 R129): CLASS 1, everything else 0 but KIND
and BLOCK. -/
def State.dispatcherRecord (s : State) (uid : Nat) (k : FaultKind) (block : Nat) : State :=
  (s.faultRecord uid ⟨0, 0, block, 0, false, .path, k⟩ []).1

/-! ### The queue stage (07 R131) -/

/-- Device clocks of 10 ms. -/
def agingClocks : Nat := 10 * Config.clocksPerMs

/-- The level of the launch at the head of a queue; none when no launch stands there. -/
def State.headLevel (s : State) (i q : Nat) : Option Nat :=
  match s.headEntry i q with
  | none => none
  | some n =>
    if s.entryOp i q n ≠ 0 then none
    else
      let x := s.queue i q
      let aged := max x.aged ((s.time - x.headClk).toNat / agingClocks)
      some (min 3 ((LaunchRecord.ofBits (leNat (s.entryBytes i q n 256))).prio + aged))

/-- PRIORITY_AGING (07 R131): each 10 ms at the head of its queue raises a launch one level, up to 3. -/
def execPriorityAging (iface q : Nat) (s : State) : Host.Outcome State Fault Refusal :=
  let x := s.queue iface q
  if (s.headLevel iface q).isSome ∧ x.aged < 3 ∧ agingClocks * (x.aged + 1) ≤ (s.time - x.headClk).toNat then
    .next (s.updQueue iface q fun x => { x with aged := x.aged + 1 })
  else .fault (.notEnabled "PRIORITY_AGING")

/-- Every queue, in ascending interface and number. DESIGN CHOICE (notes/assumptions/47.md): queues are numbered within
their interface, and the round goes through the interfaces in ascending number. -/
def State.allQueues (s : State) : List (Nat × Nat) :=
  (s.ctl.ifaces.map fun f => f.2.queues.map fun q => (f.1, q.1)).flatten

/-- A queue after another in that order. -/
def queueAfter (c : Cursor) (x : Nat × Nat) : Bool :=
  decide (c.iface < x.1) || (decide (c.iface = x.1) && decide (c.queue < x.2))

/-- The queue served next among those that stand at a level, and the cursor that then stands there. -/
def serveNext (cur : Option Cursor) (weight : Nat × Nat → Nat) (qs : List (Nat × Nat)) : Option ((Nat × Nat) × Cursor) :=
  let fresh (x : Nat × Nat) : (Nat × Nat) × Cursor := (x, ⟨x.1, x.2, 1⟩)
  match cur with
  | none => qs.head?.map fresh
  | some c =>
    if qs.contains (c.iface, c.queue) ∧ c.taken < weight (c.iface, c.queue) then
      some ((c.iface, c.queue), { c with taken := c.taken + 1 })
    else
      match qs.find? (queueAfter c) with
      | some x => some (fresh x)
      | none => qs.head?.map fresh

/-- The turn of the queue at a level's cursor ends when it has no head launch or stands at another level. -/
def State.endTurns (s : State) : State :=
  let stop (lv : Nat) (c : Cursor) : Cursor :=
    if s.headLevel c.iface c.queue = some lv then c else { c with taken := 256 }
  { s with ctl := { s.ctl with cursors := s.ctl.cursors.map fun x => (x.1, stop x.1 x.2) } }

/-- The launch that leaves the queue stage next: its queue, and the state with the level's cursor moved. -/
def State.chooseLaunch (s : State) : Option ((Nat × Nat) × State) :=
  let heads := s.allQueues.filterMap fun x => (s.headLevel x.1 x.2).map fun lv => (lv, x)
  match heads with
  | [] => none
  | _ =>
    let best := (heads.map Prod.fst).foldl max 0
    let s := s.endTurns
    let qs := (heads.filter fun h => h.1 = best).map Prod.snd
    match serveNext (tget s.ctl.cursors best) (fun x => (s.queue x.1 x.2).weight) qs with
    | none => none
    | some (x, c) => some (x, { s with ctl := { s.ctl with cursors := tput s.ctl.cursors best c } })

/-- A launch as it leaves its queue. -/
def Launch.fresh (uid i q id : Nat) (r : LaunchRecord) : Launch where
  uid := uid
  iface := i
  queue := q
  id := id
  record := r
  stage := .dependences
  privileged := false
  image := 0
  sig := 0
  placed := []
  endedBlocks := 0
  endedRetired := 0
  faulted := false
  stopping := none
  nrec := 0
  firstKind := none
  faultFrames := []
  barp := Barrier.fresh
  overlays := []
  negWait := false
  dbgArmed := false
  saved := []
  sampled := []
  replays := []

/-- Check 2 of R393: every page of the fault buffer translates, with W, in the launch's world. -/
def State.bufferFrames (s : State) (i : Nat) (r : LaunchRecord) : Except FaultKind (Table Nat) × State :=
  let first := r.faultVa / 65536
  let pages := if r.faultCap = 0 then 0 else (r.faultVa + r.faultCap - 1) / 65536 + 1 - first
  if !vaOk r.faultVa r.faultCap then (.error .translation, s) else go s ((List.range pages).map fun k => first + k)
where
  /-- Page by page. -/
  go (s : State) : List Nat → Except FaultKind (Table Nat) × State
    | [] => (.ok [], s)
    | p :: ps =>
      match s.transVia none (s.mmu i) (65536 * p) .w r.world with
      | (.fault k, s) => (.error k, s)
      | (.ok pa, s) =>
        match go s ps with
        | (.ok t, s) => (.ok ((p, pa) :: t), s)
        | x => x

/-- Checks 3 to 5 of R393, in order. -/
def State.laterCheck (s : State) (i : Nat) (r : LaunchRecord) : Option Status :=
  let ds := s.namedDies i r
  if r.world ≠ s.sessionWorld i then some .worldMismatch
  else if ds = [] then some .noDie
  else if !s.clusterFits ds r || (r.cores && !s.gridFits ds r) then some .noFit
  else none

/-- Checks 1 to 5 of R393 on a launch that has left its queue. -/
def State.queueChecks (s : State) (l : Launch) : State :=
  let r := l.record
  let good := r.ok (s.qcountOf l.iface)
  match (if r.faultVa = 0 ∨ r.faultVa % 8 ≠ 0 then (.ok [], s) else s.bufferFrames l.iface r : Except FaultKind (Table Nat) × State) with
  | (.error k, s) =>
    let kind := if good then k else .badCommand
    (s.updLaunch l.uid fun l => { l with firstKind := some kind }).completeLaunch l.uid .faulted
  | (.ok t, s) =>
    let s := s.updLaunch l.uid fun l => { l with faultFrames := t }
    if !good then (s.dispatcherRecord l.uid .badCommand 0).completeLaunch l.uid .faulted
    else
      match s.laterCheck l.iface r with
      | some st => s.completeLaunch l.uid st
      | none => s

/-- LAUNCH_QUEUE_EXIT (07 R131, R393): the dispatcher takes a head launch and makes checks 1 to 5. -/
def execLaunchQueueExit (s : State) : Host.Outcome State Fault Refusal :=
  if s.recovering then .fault (.notEnabled "LAUNCH_QUEUE_EXIT")
  else
  match s.chooseLaunch with
  | none => .fault (.notEnabled "LAUNCH_QUEUE_EXIT")
  | some ((i, q), s) =>
    let n := (s.queue i q).head
    let l := Launch.fresh s.nextUid i q (launchId q n) (LaunchRecord.ofBits (leNat (s.entryBytes i q n 256)))
    let s := { s with nextUid := s.nextUid + 1, x := { s.x with launches := s.x.launches ++ [l] } }
    .next (((s.advanceHead i q).endTurns).queueChecks l)

/-! ### Dependences and dispatch -/

/-- The status with which the launch of an ID, the latest of that ID, has completed. -/
def State.depStatus (s : State) (i : Nat) (d : DWord) : Option Status :=
  match (s.x.launches.filter fun l => l.iface = i ∧ l.id = bits d.toNat 47 0).getLast? with
  | none => none
  | some l => match l.stage with | .completed st => some st | _ => none

/-- DEPENDENCE_RESOLUTION (07 R131, check 6 of R393): every valid dependence has completed OK, or one has
completed otherwise. -/
def execDependenceResolution (launch : Nat) (s : State) : Host.Outcome State Fault Refusal :=
  match s.launch? launch with
  | none => .fault (.notEnabled "DEPENDENCE_RESOLUTION")
  | some l =>
    let sts := (l.record.deps.filter fun d => d.getLsbD 63).map fun d => s.depStatus l.iface d
    if l.stage ≠ .dependences then .fault (.notEnabled "DEPENDENCE_RESOLUTION")
    else if sts.any fun x => decide (x ≠ none) && decide (x ≠ some .ok) then .next (s.completeLaunch launch .cancelled)
    else if sts.all fun x => decide (x = some .ok) then .next (s.updLaunch launch fun l => { l with stage := .placement })
    else .fault (.notEnabled "DEPENDENCE_RESOLUTION")

/-- The shape set of an image (27 R377). -/
def shapeSet (code : List Byte) : Nat :=
  let ws := (List.range (code.length / 4)).map fun k => leNat ((code.drop (4 * k)).take 4)
  ((List.range 4).map fun n => if ws.any fun w => decide (bits w 30 22 = 0x146) && decide (bits w 8 7 = n) then 2 ^ n else 0).foldl (· + ·) 0

/-- The reproducibility signature (27 R377). -/
def signature (code : List Byte) (r : LaunchRecord) : DWord :=
  let msg := code ++ (r.slots.map fun f => leBytes 16 f.toNat).flatten ++ leBytes 1 (shapeSet code) ++
    leBytes 2 (if r.tripod then r.frameLen else 0) ++ leBytes 2 (if r.tripod then r.lcores else 0) ++
    leBytes 4 r.gridX ++ leBytes 2 r.gridY ++ leBytes 2 r.gridZ
  BitVec.ofNat 64 (leNat ((sha384Bytes msg).take 8))

/-- Place an image in the code store: one copy of each (04 R62). -/
def storeImage (code : List CodeImage) (bytes : List Byte) : List CodeImage × Nat :=
  match code.findIdx? fun x => decide (x.bytes = bytes) with
  | some k => (code, k)
  | none => (code ++ [⟨sha384 bytes, bytes⟩], code.length)

/-- LAUNCH_DISPATCH (04 R62, check 7 of R393; 27 R377): the image is read into the code store, SIG computed,
the launch privileged when it comes from a test queue of interface 0 in world 0 (21 R314). -/
def execLaunchDispatch (launch : Nat) (s : State) : Host.Outcome State Fault Refusal :=
  match s.launch? launch with
  | none => .fault (.notEnabled "LAUNCH_DISPATCH")
  | some l =>
    if l.stage ≠ .placement ∨ s.recovering then .fault (.notEnabled "LAUNCH_DISPATCH")
    else
      let r := l.record
      let v := s.readVa none (s.mmu l.iface) r.world r.codeVa r.codeSize
      match v.fault with
      | some (k, _) => .next ((v.s.dispatcherRecord launch k 0).completeLaunch launch .faulted)
      | none =>
        let (code, n) := storeImage v.s.x.code v.bytes
        let priv := decide (l.iface = 0) && (v.s.queue 0 l.queue).test && decide (r.world = 0)
        let sig := signature v.bytes r
        let s : State := { v.s with x := { v.s.x with code := code } }
        let s := s.updLaunch launch fun l => { l with stage := .running, image := n, sig := sig, privileged := priv }
        .next ((s.noteHostless l).sampleLaunch launch r.codeVa (s.namedDies l.iface r))

/-! ### Placement (07 R126, R127, R132, R133) -/

/-- A warp at its start (04 R58): one path over all lanes at the entry PC. -/
def Warp.fresh (ref : WarpRef) (entry sched : Nat) (clk : DWord) : Warp where
  ref := ref
  p0 := some (Path.start (BitVec.ofNat 32 entry) (BitVec.allOnes 32))
  p1 := none
  groups := []
  arrivals := 0
  exited := 0
  sregs := []
  vregs := []
  status := []
  spill := []
  staging := ⟨0, 0, 0, 0⟩
  closes := 0
  doneCloses := 0
  errors := []
  forest := none
  prof := []
  profOver := 0
  frozen := none
  splitReg := 0
  inject := none
  soft := []
  spillSoft := []
  sched := sched
  startClk := clk
  retired := 0
  idle := 0
  loupe := ⟨.home, .none, none, 0, 0, 0, none, 0⟩
  frame := ⟨0, none, false, 0, 0, false, [], none, []⟩
  ended := false

/-- Start the warps of a block, each bound to a scheduler (R134). -/
def State.startWarps (s : State) (b : Block) (entry : Nat) : List Nat → State
  | [] => s
  | w :: ws =>
    let x := Warp.fresh ⟨b.launch, b.id, w⟩ entry (s.bindSched b ⟨b.launch, b.id, w⟩) s.time
    { s with x := { s.x with warps := s.x.warps ++ [x] } }.startWarps b entry ws

/-- A block at its start. -/
def Block.fresh (launch id : Nat) (p : Placement) (core : Nat) (args : List Byte) (strip : Nat) : Block where
  launch := launch
  id := id
  die := p.die
  site := p.site
  core := core
  bsm := writeBytes [] 0 args
  barriers := []
  ext := false
  stopped := false
  released := false
  pre := .running
  overlay := []
  frameMax := 0
  stripBase := strip
  soft := []
  woken := []

/-- Whether a placement names an ordinary cluster and C cores of it, in ascending order. -/
def State.placeOk (s : State) (l : Launch) (p : Placement) : Bool :=
  let r := l.record
  (s.namedDies l.iface r).contains p.die && (s.ordinarySites p.die).contains p.site &&
  decide (p.cores.length = r.cluster) && (p.cores.all fun c => decide (c < 4)) &&
  decide (p.cores.Pairwise (· < ·)) && decide ((s.die p.die).st = .running) && decide ((s.die p.die).world = r.world)

/-- Whether the resources of a placement are free now: cores, engine, scratchpad of a new span; a span stays on
its die, and one that is pre-empted takes no block (19 R291). -/
def State.roomFor (s : State) (l : Launch) (j : Nat) (p : Placement) : Bool :=
  let r := l.record
  (p.cores.all fun c => s.admits (State.coreKey p.die p.site c) r) &&
  (decide (r.accn = 0) || decide ((s.engine p.die p.site).owner = none)) &&
  (decide (r.span = 0) ||
    (!l.saved.contains (r.spanOf (j * r.cluster)) &&
      (s.blocksOf l.uid).all fun b => decide (r.spanOf b.id ≠ r.spanOf (j * r.cluster)) || decide (b.pre ≠ .saving)) &&
    match s.span? l.uid (r.spanOf (j * r.cluster)) with
    | some k => decide (k.die = p.die)
    | none => decide (r.spadSize ≤ s.spadFree p.die))

/-- An engine that no launch cluster holds anything of. -/
def MatrixEngine.cleared (e : MatrixEngine) : MatrixEngine :=
  { e with owner := none, slots := [], banks := [], strips := [], scale := [], soft := [] }

/-- A launch cluster ends when all its blocks have: its window memory and engine are free (09 R165,
14 R223). In a tripod launch its overlay stays until a package generation has merged it (10 R187). -/
def State.closeCluster (s : State) (l : Launch) (num : Nat) : State :=
  let mine (b : Block) : Bool := decide (b.launch = l.uid) && decide (l.record.clusterOf b.id = num)
  if s.x.blocks.any fun b => mine b && !b.released then s
  else
    let free (e : MatrixEngine) : MatrixEngine := if e.owner = some (l.uid, num) then e.cleared else e
    let s := match s.cluster? l.uid num with
      | some c =>
        if l.record.tripod then s.updLaunch l.uid fun x => { x with overlays := tput x.overlays num (c.die, c.overlay) } else s
      | none => s
    { s with x := { s.x with
      blocks := s.x.blocks.filter fun b => !mine b
      clusters := s.x.clusters.filter fun c => !(decide (c.launch = l.uid) && decide (c.num = num))
      engines := s.x.engines.map fun e => (e.1, free e.2) } }

/-- A span ends when the last of its blocks has (07 R124). -/
def State.closeSpan (s : State) (l : Launch) (num : Nat) : State :=
  let k := max l.record.cluster 1
  let js := (List.range l.record.clusters).filter fun j => l.record.spanOf (j * k) = num
  let live := s.x.blocks.any fun b => decide (b.launch = l.uid) && decide (l.record.spanOf b.id = num) && !b.released
  let todo := js.any fun j => !l.placed.contains j
  if live || (todo && l.stopping.isNone) || l.saved.contains num then s
  else { s with x := { s.x with spans := s.x.spans.filter fun z => !(decide (z.launch = l.uid) && decide (z.num = num)) } }

/-- The launch cluster, its span and its engine as they are when they start. -/
def State.openCluster (s : State) (l : Launch) (j : Nat) (p : Placement) : State :=
  let r := l.record
  let k := r.spanOf (j * r.cluster)
  let spans := if r.span = 0 ∨ (s.span? l.uid k).isSome then s.x.spans else s.x.spans ++ [⟨l.uid, k, p.die, [], [], []⟩]
  let s := { s with x := { s.x with spans := spans, clusters := s.x.clusters ++ [⟨l.uid, j, p.die, p.site, Barrier.fresh, []⟩] } }
  if r.accn = 0 then s
  else s.updEngine p.die p.site fun e => { e.cleared with owner := some (l.uid, j) }

/-- Place the blocks of a cluster, rank by rank: each block's arguments are read first; a fault there acts as
under ABORT (R126). -/
def State.placeBlocks (s : State) (l : Launch) (j : Nat) (p : Placement) : List (Nat × Nat) → State
  | [] => s
  | (core, rank) :: rest =>
    let r := l.record
    let id := j * r.cluster + rank
    let v := s.readVa none (s.mmu l.iface) r.world r.argVa r.argSize
    match v.fault with
    | some (k, _) =>
      let s := (v.s.dispatcherRecord l.uid k id).abort l.uid .faulted
      let l := (s.launch? l.uid).getD l
      (s.closeCluster l j).closeSpan l (r.spanOf id)
    | none =>
      let b := Block.fresh l.uid id p core v.bytes (r.accn * rank)
      let s := v.s.sendStart p.die r.world v.bytes
      let s := { s with x := { s.x with blocks := s.x.blocks ++ [b] } }
      ((s.startWarps b r.entry (List.range r.warps)).takeSample l p.die id).placeBlocks l j p rest

/-- Place a launch cluster. -/
def State.placeCluster (s : State) (l : Launch) (j : Nat) (p : Placement) : State :=
  let s := s.updLaunch l.uid fun l =>
    { l with placed := l.placed ++ [j] }
  let l := (s.launch? l.uid).getD l
  (s.openCluster l j p).placeBlocks l j p p.cores.zipIdx

/-- Place clusters in order; none when one does not fit. -/
def State.placeAll (s : State) (uid : Nat) : List (Nat × Placement) → Option State
  | [] => some s
  | (j, p) :: rest =>
    match s.launch? uid with
    | none => none
    | some l =>
      if l.stopping.isSome then some s
      else if s.placeOk l p && s.roomFor l j p then (s.placeCluster l j p).placeAll uid rest
      else none

/-- Whether a launch cluster may be placed next: outside tripod mode all lower ones have been; in tripod mode
each block's predecessor on its logical core has been. -/
def Launch.mayPlace (l : Launch) (j : Nat) : Bool :=
  let r := l.record
  !l.placed.contains j && decide (j < r.clusters) &&
    (if r.tripod then
      (List.range r.cluster).all fun k =>
        let b := j * r.cluster + k
        decide (b < r.lcores) || l.placed.contains ((b - r.lcores) / max r.cluster 1) ||
          decide ((b - r.lcores) / max r.cluster 1 = j)
    else (List.range j).all fun k => l.placed.contains k)

/-- The clusters that one placement step places: one, or the whole grid of a co-resident launch (R130). -/
def Launch.placeList (l : Launch) (j : Nat) (sites : List Placement) : Option (List (Nat × Placement)) :=
  if l.record.cores then
    if l.placed = [] ∧ sites.length = l.record.clusters then
      some ((List.range l.record.clusters).zip sites)
    else none
  else
    match sites with
    | [p] => if l.mayPlace j then some [(j, p)] else none
    | _ => none

/-- BLOCK_PLACEMENT (07 R126, R127, R132, R133): a cluster is admitted, its blocks' arguments are copied and
their warps start. -/
def execBlockPlacement (launch cluster : Nat) (sites : List Placement) (s : State) : Host.Outcome State Fault Refusal :=
  match s.launch? launch with
  | none => .fault (.notEnabled "BLOCK_PLACEMENT")
  | some l =>
    if l.stage ≠ .running ∨ l.stopping.isSome ∨ s.recovering then .fault (.notEnabled "BLOCK_PLACEMENT")
    else
      match l.placeList cluster sites with
      | none => .fault (.notEnabled "BLOCK_PLACEMENT")
      | some ps =>
        match s.placeAll launch ps with
        | some s => .next (s.settleLaunch launch)
        | none => .fault (.notEnabled "BLOCK_PLACEMENT")

/-! ### Release (07 R127) -/

/-- Every engine operation of a block has finished and no splice operation of it is on its way. -/
def State.blockQuiet (s : State) (launch block : Nat) : Bool :=
  (s.x.ops.all fun o => !(decide (o.ref.launch = launch) && decide (o.ref.block = block)) || o.finished) &&
  s.x.splices.all fun q => !(decide (q.ref.launch = launch) && decide (q.ref.block = block))

/-- A block can be released: its warps have ended, in a tripod launch with their last frames committed (10 R185), or
it has been stopped, and its operations have finished. -/
def State.releasable (s : State) (b : Block) : Bool :=
  !b.released && s.blockQuiet b.launch b.id &&
  (b.stopped || (s.warpsOf b.launch b.id).all fun w => w.ended && !w.frame.ended)

/-- Remove a block's warps, operations and splice operations. In a tripod launch that goes on, the locks of its
operations count against other blocks until the next cluster or package generation (10 R188). -/
def State.dropBlockWork (s : State) (launch block : Nat) (locks : Bool) : State :=
  let mine (r : WarpRef) : Bool := decide (r.launch = launch) && decide (r.block = block)
  let stay (o : EngineOp) : EngineOp := if mine o.ref then { o with stage := .committed } else o
  { s with x := { s.x with
    warps := s.x.warps.filter fun w => !mine w.ref
    ops := if locks then s.x.ops.map stay else s.x.ops.filter fun o => !mine o.ref
    splices := s.x.splices.filter fun q => !mine q.ref } }

/-- Errors that no WAITB has reported in the block's batches are recorded (13 R217). -/
def State.reportBlock (s : State) : List Warp → State
  | [] => s
  | w :: ws => (s.reportBatches w.ref ((w.errors.map BatchError.closeNo).eraseDups)).reportBlock ws

/-- A block is released: what it used is free, its launch completes when it was the last. -/
def State.releaseBlock (s : State) (l : Launch) (b : Block) : State :=
  let s := s.reportBlock (s.warpsOf l.uid b.id)
  let n := ((s.warpsOf l.uid b.id).map Warp.retired).foldl (· + ·) 0
  let s := s.dropBlockWork l.uid b.id (l.record.tripod && !b.stopped)
  let s := s.updBlock l.uid b.id fun b => { b with released := true }
  let s := s.updLaunch l.uid fun l => { l with endedBlocks := l.endedBlocks + 1, endedRetired := l.endedRetired + n }
  ((s.closeCluster l (l.record.clusterOf b.id)).closeSpan l (l.record.spanOf b.id)).settleLaunch l.uid

/-- BLOCK_RELEASE (07 R127). -/
def execBlockRelease (launch block : Nat) (s : State) : Host.Outcome State Fault Refusal :=
  match s.launch? launch, s.block? launch block with
  | some l, some b => if s.releasable b then .next (s.releaseBlock l b) else .fault (.notEnabled "BLOCK_RELEASE")
  | _, _ => .fault (.notEnabled "BLOCK_RELEASE")

/-- ENERGY_BUDGET_UPDATE (07 R128): the control die sets a core's budget; no block is evicted. -/
def execEnergyBudgetUpdate (core budget : Nat) (s : State) : Host.Outcome State Fault Refusal :=
  .next (s.updCore core fun c => { c with budget := budget })

end Sys2Proof.Machine
end

