-- ==== Sys2Proof/Machine/Host.lean ====
section
/-! DEFINITION. The host's registers (27 R370 to R373) and its commands but for DEBUG (27 R374, R378, R379,
R382 to R384). -/

namespace Sys2Proof.Machine

/-! ### Registers -/

/-- What the outside does to the device once bring-up is done (28 R386). -/
def whenUp (s : State) (name : String) (k : Host.Outcome State Fault Refusal) : Host.Outcome State Fault Refusal :=
  if s.ctl.power = .up then k else .fault (.notEnabled name)

/-- A queue after its doorbell is written with t (27 R373): a tail that leaves more entries without completion
records than the ring holds is ignored, and ERR is set. -/
def Queue.ring (x : Queue) (t : Nat) (now : DWord) : Queue :=
  let n := x.tail + (t % 2 ^ 32 + 2 ^ 32 - x.tail % 2 ^ 32) % 2 ^ 32
  if x.done + x.slots < n then { x with err := true }
  else if x.head = x.tail then { x with tail := n, headClk := now, aged := 0 }
  else { x with tail := n }

/-- DOORBELL (27 R371, R373): bits [63:32] are ignored. -/
def execDoorbell (iface q : Nat) (v : DWord) (s : State) : Host.Outcome State Fault Refusal :=
  whenUp s "DOORBELL" <| .next (
    if (s.iface iface).enabled ∧ q < s.qcountOf iface then s.updQueue iface q fun x => x.ring v.toNat s.time else s)

/-- A queue with a descriptor in force (27 R372); TEST counts for interface 0 only. -/
def Queue.describe (x : Queue) (iface v : Nat) : Queue :=
  { x with
    cmplPa := bits v 179 128
    ringPa := bits v 115 64
    test := decide (iface = 0) && bitAt v 29
    log2n := bits v 28 24
    weight := bits v 7 0 }

/-- A descriptor that may take effect: while WEIGHT is not 0 only WEIGHT may change; a ring that is to be served
has a legal size and aligned addresses (notes/assumptions/17.md). DESIGN CHOICE (notes/assumptions/47.md): nonzero
reserved bits refuse no write and are dropped. -/
def Queue.accepts (x : Queue) (iface v : Nat) : Bool :=
  let y := x.describe iface v
  (decide (x.weight = 0) || decide ({ y with weight := x.weight } = x)) &&
  (decide (y.weight = 0) ||
    (inLimits y.log2n 4 16 1 && decide (y.cmplPa % 64 = 0) && decide (y.ringPa % 256 = 0)))

/-- QUEUE_DESCRIPTOR_WRITE (27 R372). -/
def execQueueDescriptorWrite (iface q : Nat) (v : BitVec 256) (s : State) : Host.Outcome State Fault Refusal :=
  whenUp s "QUEUE_DESCRIPTOR_WRITE" <| .next (
    if (s.iface iface).enabled ∧ q < s.qcountOf iface ∧ (s.queue iface q).accepts iface v.toNat then
      s.updQueue iface q fun x => x.describe iface v.toNat
    else s)

/-- The queues granted to virtual interfaces when interface i gets n. -/
def State.grantSum (s : State) (i n : Nat) : Nat :=
  ((List.range 127).map fun k => if k + 1 = i then n else (s.iface (k + 1)).qcount).foldl (· + ·) 0

/-- INTERFACE_GRANT_WRITE (27 R370): refused while the interface is enabled or when the sum would exceed
8,192. DESIGN CHOICE (notes/assumptions/47.md): nonzero reserved bits refuse no write and are dropped. -/
def execInterfaceGrantWrite (i : Nat) (v : DWord) (s : State) : Host.Outcome State Fault Refusal :=
  whenUp s "INTERFACE_GRANT_WRITE" <| .next (
    let n := bits v.toNat 13 0
    if 1 ≤ i ∧ i ≤ 127 ∧ (s.iface i).enabled = false ∧ s.grantSum i n ≤ 8192 then
      s.updIface i fun x => { x with dieMask := BitVec.ofNat 8 (bits v.toNat 23 16), qcount := n }
    else s)

/-- VIRTUAL_INTERFACE_ENABLE (27 R370). -/
def execVirtualInterfaceEnable (i : Nat) (on : Bool) (s : State) : Host.Outcome State Fault Refusal :=
  whenUp s "VIRTUAL_INTERFACE_ENABLE" <| .next (
    if 1 ≤ i ∧ i ≤ 127 then s.updIface i fun x => { x with enabled := on } else s)

/-- REGISTER_WRITE (27 R371): PTROOT and FTBASE. -/
def execRegisterWrite (iface offset : Nat) (v : DWord) (s : State) : Host.Outcome State Fault Refusal :=
  whenUp s "REGISTER_WRITE" <| .next (
    if (s.iface iface).enabled then
      match offset with
      | 0 => s.updIface iface fun x => { x with ptroot := v }
      | 8 => s.updIface iface fun x => { x with ftbase := v }
      | _ => s
    else s)

/-! ### Commands -/

/-- A command at the head of its queue: its 64 bytes as a number. -/
structure Cmd where
  i : Nat
  q : Nat
  n : Nat
  v : Nat
  deriving DecidableEq, Repr

/-- Dword k of a command. -/
def Cmd.dw (c : Cmd) (k : Nat) : Nat := bits c.v (64 * k + 63) (64 * k)

/-- Bytes 1 to 7 and every dword that the command does not use are zero (27 R378). -/
def Cmd.clean (c : Cmd) (used : List Nat) : Bool :=
  decide (bits c.v 63 8 = 0) && (List.range 7).all fun k => used.contains (k + 1) || decide (c.dw (k + 1) = 0)

/-- Where a started command of a queue stands. -/
def State.setCmd (s : State) (c : Cmd) (st : CmdState) : State :=
  s.updQueue c.i c.q fun x => { x with running := some ⟨c.n, s.time, (s.iface c.i).ptroot, st⟩ }

/-- A command has its status; its completion record follows (27 R374). -/
def State.endCmd (s : State) (c : Cmd) (k : Option FaultKind) : State :=
  s.setCmd c (.ended (if k.isSome then .faulted else .ok) k)

/-- A command that ends OK. -/
def State.okCmd (s : State) (c : Cmd) : State := s.endCmd c none

/-- A command that ends BAD_COMMAND. -/
def State.badCmd (s : State) (c : Cmd) : State := s.endCmd c (some .badCommand)

/-- A command of an opcode starts: it stands at the head and every earlier entry has completed (27 R374). -/
def runCmd (s : State) (i q op : Nat) (name : String) (used : List Nat) (f : Cmd → State) :
    Host.Outcome State Fault Refusal :=
  whenUp s name (
    match s.headEntry i q with
    | none => .fault (.notEnabled name)
    | some n =>
      let c : Cmd := ⟨i, q, n, leNat (s.entryBytes i q n 64)⟩
      if bits c.v 7 0 ≠ op ∨ (s.queue i q).quiet = false then .fault (.notEnabled name)
      else .next (if c.clean used then f c else s.badCmd c))

/-- A command that reads or writes device memory starts: not while a die recovers, whose ports would hold it (24 R352). -/
def runMemCmd (s : State) (i q op : Nat) (name : String) (used : List Nat) (f : Cmd → State) :
    Host.Outcome State Fault Refusal :=
  if s.recovering then .fault (.notEnabled name) else runCmd s i q op name used f

/-- Host physical addresses of a command: 52 bits, aligned (27 R378: a reserved bit is zero). -/
def hostPaOk (pa align : Nat) : Bool := decide (pa < 2 ^ 52) && decide (pa % align = 0)

/-- COPY (27 R378): main to main under PTROOT; the source is read before anything is written
(notes/assumptions/18.md). -/
def execCopy (iface q : Nat) (s : State) : Host.Outcome State Fault Refusal :=
  runMemCmd s iface q 1 "COPY" [1, 2, 3] fun c =>
    let n := c.dw 3
    if n = 0 ∨ 2 ^ 32 < n then s.badCmd c
    else
      let w := s.sessionWorld iface
      let r := s.readVa none (s.mmu iface) w (c.dw 1) n
      match r.fault with
      | some (k, _) => r.s.endCmd c (some k)
      | none =>
        let x := r.s.writeVa none (s.mmu iface) w none (c.dw 2) r.bytes
        x.2.endCmd c (x.1.map Prod.fst)

/-- SIGNAL (27 R378). -/
def execSignal (iface q : Nat) (s : State) : Host.Outcome State Fault Refusal :=
  runMemCmd s iface q 2 "SIGNAL" [1, 2] fun c =>
    let x := s.writeVa none (s.mmu iface) (s.sessionWorld iface) none (c.dw 1) (leBytes 8 (c.dw 2))
    x.2.endCmd c (x.1.map Prod.fst)

/-- The compare of a WAIT on unsigned 64-bit values (27 R378, 11 R205). -/
def waitCmp64 (cmp w v : Nat) : Bool :=
  match cmp with
  | 0 => decide (w = v)
  | 1 => decide (w ≠ v)
  | 2 => decide (w < v)
  | 3 => decide (w ≤ v)
  | 4 => decide (v < w)
  | _ => decide (v ≤ w)

/-- WAIT (27 R378): it starts to wait; an address that cannot be read ends it FAULTED. -/
def execWait (iface q : Nat) (s : State) : Host.Outcome State Fault Refusal :=
  runMemCmd s iface q 3 "WAIT" [1, 2, 3, 4] fun c =>
    if 5 < c.dw 3 then s.badCmd c
    else
      let r := s.readVa none (s.mmu iface) (s.sessionWorld iface) (c.dw 1) 8
      match r.fault with
      | some (k, _) => s.endCmd c (some k)
      | none => s.setCmd c (.waiting (c.dw 1) (c.dw 2) (c.dw 3) (c.dw 4))

/-- What a waiting WAIT reads. -/
def State.waitWord (s : State) (i : Nat) (r : Running) (va : Nat) : VaRead :=
  s.readVa none ⟨i, r.root⟩ (s.sessionWorld i) va 8

/-- A started command gets its status. -/
def State.endRunning (s : State) (i q : Nat) (r : Running) (st : Status) (k : Option FaultKind) : State :=
  s.updQueue i q fun x => { x with running := some { r with st := .ended st k } }

/-- WAIT_SATISFIED (27 R378); a mapping that has gone ends the command FAULTED. -/
def execWaitSatisfied (iface q : Nat) (s : State) : Host.Outcome State Fault Refusal :=
  match (s.queue iface q).running with
  | none => .fault (.notEnabled "WAIT_SATISFIED")
  | some r =>
    match r.st with
    | .waiting va v cmp _ =>
      let x := s.waitWord iface r va
      if s.recovering then .fault (.notEnabled "WAIT_SATISFIED")
      else
      match x.fault with
      | some (k, _) => .next (s.endRunning iface q r .faulted (some k))
      | none =>
        if waitCmp64 cmp (leNat x.bytes) v then .next (s.endRunning iface q r .ok none)
        else .fault (.notEnabled "WAIT_SATISFIED")
    | _ => .fault (.notEnabled "WAIT_SATISFIED")

/-- WAIT_COMMAND_TIMEOUT (27 R378). -/
def execWaitCommandTimeout (iface q : Nat) (s : State) : Host.Outcome State Fault Refusal :=
  match (s.queue iface q).running with
  | none => .fault (.notEnabled "WAIT_COMMAND_TIMEOUT")
  | some r =>
    match r.st with
    | .waiting va v cmp t =>
      let x := s.waitWord iface r va
      if (!s.recovering && decide (x.fault = none) && !waitCmp64 cmp (leNat x.bytes) v) = true ∧
          t * Config.clocksPerUs ≤ (s.time - r.start).toNat then
        .next (s.endRunning iface q r .faulted (some .waitTimeout))
      else .fault (.notEnabled "WAIT_COMMAND_TIMEOUT")
    | _ => .fault (.notEnabled "WAIT_COMMAND_TIMEOUT")

/-- PUBACK (27 R378): the host has read images up to v; image 0 is one of them (10 R190). -/
def execPuback (iface q : Nat) (s : State) : Host.Outcome State Fault Refusal :=
  runCmd s iface q 4 "PUBACK" [1, 2] fun c =>
    if 2 ^ 16 ≤ c.dw 1 then s.badCmd c
    else
      match tget (s.iface iface).windows (c.dw 1) with
      | none => s.okCmd c
      | some w =>
        (s.updIface iface fun x => { x with windows := tput x.windows (c.dw 1) { w with acked := max w.acked (c.dw 2 + 1) } }).okCmd c

/-! ### SUMMARY (27 R379, R384) -/

/-- Launches of a queue that have left it and not completed. -/
def State.inFlight (s : State) (i q : Nat) : Nat :=
  (s.x.launches.filter fun l => decide (l.iface = i) && decide (l.queue = q) &&
    (match l.stage with | .completed _ => false | _ => true)).length

/-- The state of an interface's session, as the summary codes it. -/
def Iface.sessionCode (f : Iface) : Nat :=
  match f.session with
  | some x => if x.debug then 2 else 1
  | none => if f.sessionLost then 3 else 0

/-- The header. -/
def State.summaryHeader (s : State) (i : Nat) : List Byte :=
  let f := s.iface i
  leBytes 2 i ++ leBytes 2 (s.qcountOf i) ++ leBytes 1 (s.logicalDies i).length ++ leBytes 1 (s.sessionWorld i) ++
  leBytes 1 f.sessionCode ++ leBytes 1 0 ++ leBytes 8 s.time.toNat ++ leBytes 8 f.ptroot.toNat ++
  leBytes 8 f.ftbase.toNat ++ leBytes 2 f.windows.length ++ leBytes 2 f.groups.length ++ leBytes 28 0

/-- Slots that a cluster site has healthy: 64 less its fenced banks; 0 for a site that is not enabled. -/
def State.healthySlots (s : State) (d site : Nat) : Nat :=
  match s.ctl.map.dies[d]? with
  | none => 0
  | some f => if f.sites.getLsbD site then ((List.range 64).filter fun n => !s.bankFenced d site n).length else 0

/-- The entry of a logical die. -/
def State.summaryDie (s : State) (d : Nat) : List Byte :=
  leBytes 1 (s.ordinarySites d).length ++ leBytes 1 (b2n (s.loupeSite? d).isSome) ++ leBytes 1 (s.die d).world ++
  leBytes 1 0 ++ ((List.range 13).map fun k => leBytes 1 (s.healthySlots d k)).flatten ++ leBytes 3 0 ++
  leBytes 1 (((s.ctl.map.dies[d]?).map fun f => f.gdMap.toNat).getD 0) ++ leBytes 3 0 ++ leBytes 4 (s.spadFree d) ++
  leBytes 36 0

/-- The entry of a queue. A command at the head blocks its queue. -/
def State.summaryQueue (s : State) (i q : Nat) : List Byte :=
  let x := s.queue i q
  let blocked := s.queueServed i q && decide (x.head < x.tail) && decide (s.entryOp i q x.head ≠ 0)
  leBytes 8 (x.head % 2 ^ 16 + x.done % 2 ^ 16 * 2 ^ 16 + s.inFlight i q % 2 ^ 16 * 2 ^ 32 + b2n x.err * 2 ^ 48 +
    b2n blocked * 2 ^ 49)

/-- The 4 KiB of a summary. -/
def State.summaryBytes (s : State) (i qbase : Nat) : List Byte :=
  let dies := ((s.logicalDies i).map s.summaryDie).flatten
  s.summaryHeader i ++ dies ++ leBytes (960 - dies.length) 0 ++
    ((List.range 384).map fun k => s.summaryQueue i (qbase + k)).flatten

/-- An entry completes out of ring order. -/
def State.completeEarly (s : State) (i q n : Nat) : State :=
  let x := s.queue i q
  if x.head = n then s.advanceHead i q else s.updQueue i q fun x => { x with earlyDone := x.earlyDone ++ [n] }

/-- A SUMMARY that the queue engine may take now: at the head, or within 64 slots beyond an entry that blocks
there. -/
def State.summaryAt (s : State) (i q n : Nat) : Bool :=
  let x := s.queue i q
  s.queueServed i q && decide (x.head ≤ n) && decide (n < x.tail) && decide (n ≤ x.head + 64) &&
  !x.earlyDone.contains n && decide (s.entryOp i q n = 5)

/-- SUMMARY (27 R379): its state is taken and its record written in one step. -/
def execSummary (iface q n : Nat) (s : State) : Host.Outcome State Fault Refusal :=
  whenUp s "SUMMARY" <|
    if s.summaryAt iface q n then
      let c : Cmd := ⟨iface, q, n, leNat (s.entryBytes iface q n 64)⟩
      let good := c.clean [1, 2] && hostPaOk (c.dw 1) 4096
      let s' :=
        if good then
          (s.writeHost (c.dw 1) (s.summaryBytes iface (c.dw 2))).updIface iface fun x => { x with sessionLost := false }
        else s
      let prot := decide (s.sessionWorld iface ≠ 0)
      let st : Status := if good then .ok else .faulted
      let kind := if good then 0 else FaultKind.code .badCommand
      .next ((s'.completeEntry iface q (launchId q n) st kind 0 0 prot).completeEarly iface q n)
    else .fault (.notEnabled "SUMMARY")

/-! ### INVAL (09 R170) -/

/-- INVAL (27 R378): the pages that its range meets. -/
def execInval (iface q : Nat) (s : State) : Host.Outcome State Fault Refusal :=
  runCmd s iface q 6 "INVAL" [1, 2] fun c =>
    if c.dw 2 % 65536 ≠ 0 then s.badCmd c
    else s.setCmd c (.invalidating (c.dw 1 / 65536) (if c.dw 2 = 0 then 0 else (c.dw 1 + c.dw 2 - 1) / 65536 + 1))

/-- A cached leaf covers a page from first to before last. -/
def TlbEntry.meets (e : TlbEntry) (first last : Nat) : Bool :=
  if e.big then overlaps (e.page / 4096 * 4096) 4096 first (last - first)
  else decide (first ≤ e.page) && decide (e.page < last)

/-- A launch of an interface holds a translation of such a page for its fault buffer (07 R393). -/
def State.heldPages (s : State) (i first last : Nat) : Bool :=
  s.x.launches.any fun l => decide (l.iface = i) &&
    (match l.stage with | .completed _ => false | _ => true) &&
    l.faultFrames.any fun x => decide (first ≤ x.1) && decide (x.1 < last)

/-- A walker's entry leads to a page from first to before last. -/
def WalkerEntry.meets (e : WalkerEntry) (first last : Nat) : Bool :=
  let n := 2 ^ levelShift e.level / 65536
  overlaps (e.pre * n) n first (last - first)

/-- INVALIDATION_COMPLETE (09 R170): no command holds a covered translation, and no die or walker caches one. -/
def execInvalidationComplete (iface q : Nat) (s : State) : Host.Outcome State Fault Refusal :=
  match (s.queue iface q).running with
  | none => .fault (.notEnabled "INVALIDATION_COMPLETE")
  | some r =>
    match r.st with
    | .invalidating first last =>
      if s.heldPages iface first last || s.recovering then .fault (.notEnabled "INVALIDATION_COMPLETE")
      else
        let drop (d : Die) : Die := { d with tlb := d.tlb.filter fun e => !(decide (e.iface = iface) && e.meets first last) }
        let s := { s with x := { s.x with dies := s.x.dies.map fun (d : Nat × Die) => (d.1, drop d.2) } }
        let s := s.updCtl fun c =>
          { c with walkers := c.walkers.filter fun e => !(decide (e.iface = iface) && e.meets first last) }
        let told := (List.range 8).filter fun d => s.dieInUse d && decide ((s.die d).world = s.sessionWorld iface)
        let s := told.foldl (fun s d => s.notify d (s.sessionWorld iface) 0) s
        .next (s.endRunning iface q r .ok none)
    | _ => .fault (.notEnabled "INVALIDATION_COMPLETE")

/-! ### WINDOW (27 R378, 10 R190, R191) -/

/-- WINDOW: bit 0 of dword 5 opens with image 0, or closes (notes/assumptions/19.md). -/
def execWindow (iface q : Nat) (s : State) : Host.Outcome State Fault Refusal :=
  runMemCmd s iface q 7 "WINDOW" [1, 2, 3, 4, 5] fun c =>
    if 2 ^ 16 ≤ c.dw 1 ∨ 4 ≤ c.dw 5 then s.badCmd c
    else if c.dw 5 % 2 = 0 then (s.updIface iface fun x => { x with windows := tdel x.windows (c.dw 1) }).okCmd c
    else if hostPaOk (c.dw 4) 8 = false then s.badCmd c
    else
      let w := s.sessionWorld iface
      let r := s.readVa none (s.mmu iface) w (c.dw 2) (c.dw 3)
      match r.fault with
      | some (k, _) => r.s.endCmd c (some k)
      | none =>
        let x : Window := ⟨c.dw 2, c.dw 3, c.dw 4, bitAt (c.dw 5) 1, w, writeBytes [] 0 r.bytes, 0, 0⟩
        (r.s.updIface iface fun f => { f with windows := tput f.windows (c.dw 1) x }).okCmd c

/-- PUBLICATION_WINDOW_READ (10 R191): one whole 64-byte line of the published image. DESIGN CHOICE
(notes/assumptions/19.md): lines are counted from the window's first byte. -/
def execPublicationWindowRead (iface window addr : Nat) (s : State) : Host.Outcome State Fault Refusal :=
  match tget (s.iface iface).windows window with
  | none => .fault (.notEnabled "PUBLICATION_WINDOW_READ")
  | some w =>
    if addr < w.bytes then
      .next (s.updCtl fun c => { c with hostReads := c.hostReads ++ [readBytes w.image (addr / 64 * 64) 64] })
    else .fault (.notEnabled "PUBLICATION_WINDOW_READ")

/-! ### GROUP (27 R382) -/

/-- The route table's entries. -/
def State.routeTable (s : State) (pa n : Nat) : List Nat :=
  (List.range n).map fun k => leNat (readBytes s.mem (hostBase + pa + 16 * k) 16)

/-- A route entry is one that rank's entry may be. -/
def State.routeOk (s : State) (rank k e : Nat) : Bool :=
  let p := bits e 71 64
  decide (bits e 127 72 = 0) &&
  (if k = rank then decide (p = 0xFF) && decide (bits e 63 0 = s.serial.toNat) else s.portUp p)

/-- Every member's session has installed the same group key, for a group of a protected world (25 R356); what the
other devices' sessions hold is free. -/
def State.groupKeysOk (s : State) (i rank : Nat) (table : List Nat) : Bool :=
  match (s.iface i).session with
  | none => true
  | some x => table.zipIdx.all fun e =>
      decide (e.2 = rank) || decide (Config.peerGroupKey s.free (BitVec.ofNat 64 (bits e.1 63 0)) = x.groupKey)

/-- A chain of a group is open. -/
def State.groupBusy (s : State) (i g : Nat) : Bool :=
  s.ctl.chains.any fun c => decide (c.iface = i) && decide (c.group = g) && s.chainOpen c

/-- GROUP: sets up or removes a group after its checks. -/
def execGroup (iface q : Nat) (s : State) : Host.Outcome State Fault Refusal :=
  runCmd s iface q 8 "GROUP" [1, 2, 3, 4, 5] fun c =>
    let n := c.dw 2
    let rank := c.dw 3
    if 256 ≤ c.dw 1 ∨ s.groupBusy iface (c.dw 1) then s.badCmd c
    else if n = 0 then (s.updIface iface fun x => { x with groups := tdel x.groups (c.dw 1) }).okCmd c
    else if powerIn n 1 256 = false ∨ n ≤ rank ∨ hostPaOk (c.dw 5) 64 = false then s.badCmd c
    else
      let t := s.routeTable (c.dw 5) n
      if (t.zipIdx.all fun x => s.routeOk rank x.2 x.1) = false ∨ s.groupKeysOk iface rank t = false then s.badCmd c
      else
        let g : Group := ⟨n, rank, if c.dw 4 = 0 then 1000000 else c.dw 4,
          t.map fun e => (bits e 71 64, BitVec.ofNat 64 (bits e 63 0))⟩
        (s.updIface iface fun x => { x with groups := tput x.groups (c.dw 1) g }).okCmd c

/-! ### COUNTERS (27 R383, 24 R347) -/

/-- The enabled sites of a die, ordinary and loupe. -/
def State.enabledSites (s : State) (d : Nat) : List Nat :=
  match s.ctl.map.dies[d]? with
  | none => []
  | some f => (List.range 13).filter fun k => f.sites.getLsbD k

/-- The keys of a die's cores, in ascending site and core. -/
def State.coreKeys (s : State) (d : Nat) : List Nat :=
  ((s.enabledSites d).map fun k => (List.range 4).map fun c => State.coreKey d k c).flatten

/-- A core's own clock: device time, or its die's loupe clock. -/
def State.coreClk (s : State) (k : Nat) : DWord :=
  if s.loupeSite? (k / 64) = some (k % 64 / 4) then BitVec.ofNat 64 (s.loupeClk (k / 64)) else s.time

/-- Bin n of a core at its clock t: each clock of a scheduler adds one to one bin, so bin 0 holds what is left of the
clocks since the last clear. -/
def CoreState.bin (c : CoreState) (t : DWord) (n : Nat) : Nat :=
  if n % 7 ≠ 0 then c.bins.getD n 0
  else t.toNat - c.since.toNat - ((c.bins.drop n).take 7).foldl (· + ·) 0

/-- A core's counters at its clock t, bin 0 written out. -/
def CoreState.settled (c : CoreState) (t : DWord) : CoreState := { c with bins := (List.range 14).map (c.bin t) }

/-- A core's counters now. -/
def State.counters (s : State) (k : Nat) : CoreState := (s.core k).settled (s.coreClk k)

/-- The start of the grain window of the device's time. -/
def State.windowStart (s : State) : DWord := BitVec.ofNat 64 (windowOf s.time * Config.clocksPerSecond)

/-- A core's counters as the host reads them: coarsened for a die of a protected world, as they stood at the window's
start. -/
def State.countersOf (s : State) (d k : Nat) : List Nat × List Nat :=
  if (s.die d).world = 0 then ((s.counters k).bins, (s.counters k).classes)
  else
    let c := (tget s.ctl.coarse k).getD CoreState.fresh
    let f (x : Nat) : Nat := x / 2 ^ 20 * 2 ^ 20
    (c.bins.map f, c.classes.map f)

/-- The 256 bytes of a core. -/
def State.coreBlock (s : State) (d k : Nat) : List Byte :=
  let (b, c) := s.countersOf d k
  let words (xs : List Nat) (lo n : Nat) : List Byte := (((xs.drop lo).take n).map fun x => leBytes 8 x).flatten
  words b 0 7 ++ words c 0 8 ++ leBytes 8 0 ++ words b 7 7 ++ words c 8 8 ++ leBytes 8 0

/-- A die's header and cores. -/
def State.dieCounters (s : State) (d : Nat) : List Byte :=
  let ks := s.coreKeys d
  leBytes 1 ks.length ++ leBytes 1 (s.die d).world ++ leBytes 62 0 ++ (ks.map fun k => s.coreBlock d k).flatten

/-- The counters of an interface. -/
def State.countersBytes (s : State) (i : Nat) : List Byte :=
  let ds := s.logicalDies i
  let prot := ds.any fun d => decide ((s.die d).world ≠ 0)
  leBytes 8 (if prot then s.windowStart else s.time).toNat ++ leBytes 1 ds.length ++ leBytes 55 0 ++ (ds.map s.dieCounters).flatten

/-- Clear the counters of a core at its clock t. -/
def CoreState.clear (t : DWord) (c : CoreState) : CoreState :=
  { c with bins := List.replicate 14 0, since := t, classes := List.replicate 16 0 }

/-- Clear the counters of an interface's dies; those of a protected world at the next boundary. -/
def State.clearCounters (s : State) : List Nat → State
  | [] => s
  | d :: ds =>
    let ks := s.coreKeys d
    let s :=
      if (s.die d).world = 0 then ks.foldl (fun s k => s.updCore k (CoreState.clear (s.coreClk k))) s
      else s.updCtl fun c => { c with clearAtBoundary := c.clearAtBoundary ++ ks }
    s.clearCounters ds

/-- COUNTERS. -/
def execCounters (iface q : Nat) (s : State) : Host.Outcome State Fault Refusal :=
  runCmd s iface q 10 "COUNTERS" [1, 2] fun c =>
    if hostPaOk (c.dw 1) 4096 = false ∨ 2 ≤ c.dw 2 then s.badCmd c
    else
      let s := s.writeHost (c.dw 1) (s.countersBytes iface)
      (if c.dw 2 = 1 then s.clearCounters (s.logicalDies iface) else s).okCmd c

end Sys2Proof.Machine
end

