-- ==== Sys2Proof/Machine/Debug.lean ====
section
/-! DEFINITION. The DEBUG command (27 R380) and the completion of commands (27 R374). -/

namespace Sys2Proof.Machine

/-! ### The command's dwords -/

/-- Sub-op, logical die, loupe core, index, record and arguments. -/
def Cmd.sub (c : Cmd) : Nat := bits (c.dw 1) 7 0
def Cmd.ldie (c : Cmd) : Nat := bits (c.dw 1) 15 8
def Cmd.lcore (c : Cmd) : Nat := bits (c.dw 1) 17 16
def Cmd.index (c : Cmd) : Nat := bits (c.dw 1) 63 32
def Cmd.record (c : Cmd) : BitVec 128 := BitVec.ofNat 128 (bits c.v 255 128)
def Cmd.arg (c : Cmd) (k : Nat) : Nat := c.dw (4 + k)

/-- Whether a world's commands are refused: a protected world whose session, if there is one, has DEBUG 0
(24 R345). -/
def State.worldClosed (s : State) (w : Nat) : Bool :=
  decide (w ≠ 0) && !(s.ctl.ifaces.any fun f => f.2.session.any fun x => decide (x.world = w) && x.debug)

/-- What a sub-op does: a fault kind with no effect, or a state with the command in it. -/
abbrev DebugResult := Except FaultKind State

/-- The result of a sub-op as the state after it. -/
def DebugResult.settle (r : DebugResult) (s : State) (c : Cmd) : State :=
  match r with
  | .error k => s.endCmd c (some k)
  | .ok s => s

/-- A sub-op starts: its opcode and SUB stand at the head, and its fields marked zero are (27 R378, R380). -/
def runDebug (s : State) (i q sub : Nat) (name : String) (used : List Nat) (f : Cmd → DebugResult) :
    Host.Outcome State Fault Refusal :=
  match s.headEntry i q with
  | none => .fault (.notEnabled name)
  | some n =>
    if bits (leNat (s.entryBytes i q n 64)) 71 64 ≠ sub then .fault (.notEnabled name)
    else
      runCmd s i q 9 name (1 :: used) fun c =>
        if bits (c.dw 1) 31 18 ≠ 0 then s.badCmd c else (f c).settle s c

/-- The physical die that LDIE names, with an enabled loupe cluster. -/
def State.debugDie (s : State) (c : Cmd) : Except FaultKind Nat :=
  match (s.logicalDies c.i)[c.ldie]? with
  | none => .error .badCommand
  | some d =>
    if (s.loupeSite? d).isNone then .error .badCommand
    else if s.worldClosed (s.die d).world then .error .permission
    else .ok d

/-- The uncompleted launch of an interface with an ID. -/
def State.liveLaunch (s : State) (i id : Nat) : Option Launch :=
  (s.x.launches.filter fun l => decide (l.iface = i) && decide (l.id = id) &&
    (match l.stage with | .completed _ => false | _ => true)).getLast?

/-- The launch that ARG0 names. -/
def State.debugLaunch (s : State) (c : Cmd) : Except FaultKind Launch :=
  match s.liveLaunch c.i (c.arg 0) with
  | none => .error .badCommand
  | some l => if s.worldClosed l.record.world then .error .permission else .ok l

/-- The resident warp that ARG0 to ARG2 name. -/
def State.debugWarp (s : State) (c : Cmd) : Except FaultKind Warp :=
  match s.debugLaunch c with
  | .error k => .error k
  | .ok l =>
    match s.warp? ⟨l.uid, c.arg 1, c.arg 2⟩ with
    | none => .error .badCommand
    | some w => if w.ended then .error .badCommand else .ok w

/-- A sub-op that changes a die's loupe cluster. -/
def State.debugLoupe (s : State) (c : Cmd) (good : Bool) (f : LoupeCluster → LoupeCluster) : DebugResult :=
  match s.debugDie c with
  | .error k => .error k
  | .ok d => if good then .ok ((s.updLoupe d f).okCmd c) else .error .badCommand

/-! ### Sub-ops on a loupe cluster -/

/-- A watchpoint that a write is not refused for (20 R302). -/
def wpLegal (w : BitVec 128) : Bool :=
  decide (wpCmp w ≠ 3) && decide (wpLen w ≤ 20) && decide (wpBase w % 2 ^ wpLen w = 0) &&
  decide (bits w.toNat 63 32 = 0) && decide (bits w.toNat 22 17 = 0) && decide (bits w.toNat 7 1 = 0)

/-- WPSET. -/
def execWpset (iface q : Nat) (s : State) : Host.Outcome State Fault Refusal :=
  runDebug s iface q 1 "WPSET" [2, 3] fun c =>
    s.debugLoupe c (decide (c.index < 64) && wpLegal c.record) fun x =>
      { x with wps := tput x.wps (64 * c.lcore + c.index) c.record }

/-- PROGSET: one program table entry (20 R305). -/
def execProgset (iface q : Nat) (s : State) : Host.Outcome State Fault Refusal :=
  runDebug s iface q 2 "PROGSET" [2, 3] fun c =>
    s.debugLoupe c (decide (c.index < 64)) fun x =>
      { x with sram := writeBytes x.sram (4 * c.index) (leBytes 4 (bits c.record.toNat 15 0)) }

/-- DRLOAD: code into the code area of darkroom SRAM (27 R381). -/
def execDrload (iface q : Nat) (s : State) : Host.Outcome State Fault Refusal :=
  runDebug s iface q 3 "DRLOAD" [4, 5] fun c =>
    let n := c.arg 1
    s.debugLoupe c (decide (n % 4 = 0) && decide (n ≤ 61440) && decide (0x1000 ≤ c.index) &&
        decide (c.index + n ≤ 0x10000) && hostPaOk (c.arg 0) 1) fun x =>
      { x with sram := writeBytes x.sram c.index (readBytes s.mem (hostBase + c.arg 0) n) }

/-- A loupe control record (20 R296) that a write is not refused for. -/
def ctlLegal (v : Nat) : Bool :=
  let p := bits v 47 32
  decide (bits v 127 116 = 0) && (decide (p = 0) || (decide (16 ≤ p) && decide (p ≤ 4096)))

/-- CTLSET: the loupe control record; the count of launches sampled starts again. -/
def execCtlset (iface q : Nat) (s : State) : Host.Outcome State Fault Refusal :=
  runDebug s iface q 4 "CTLSET" [2, 3] fun c =>
    let v := c.record.toNat
    s.debugLoupe c (ctlLegal v) fun x =>
      { x with ctl := ⟨bits v 115 64, bits v 63 48, bits v 47 32, bits v 31 0⟩, sampleCount := 0 }

/-- The contact sheet as the host reads it: a header, then the ring. -/
def LoupeCluster.sheetBytes (x : LoupeCluster) : List Byte :=
  leBytes 4 (x.sheetIx % 65536) ++ leBytes 8 x.wraps ++ leBytes 52 0 ++
  ((List.range 65536).map fun k => leBytes 16 ((tget x.sheet k).getD 0).toNat).flatten

/-- CSREAD. -/
def execCsread (iface q : Nat) (s : State) : Host.Outcome State Fault Refusal :=
  runDebug s iface q 10 "CSREAD" [4] fun c =>
    match s.debugDie c with
    | .error k => .error k
    | .ok d =>
      if hostPaOk (c.arg 0) 4096 then .ok ((s.writeHost (c.arg 0) (s.die d).loupe.sheetBytes).okCmd c)
      else .error .badCommand

/-- A slot's images: sixteen registers of eight images of 128 bytes, the newest first (notes/assumptions/20.md). -/
def filmImages (regs : List FilmReg) : List Byte :=
  ((List.range 16).map fun r =>
    ((List.range 8).map fun k =>
      match (regs[r]?.bind fun f => f.images[k]?) with
      | some (_, ws) => ((List.range 32).map fun l => leBytes 4 (ws.getD l 0).toNat).flatten
      | none => leBytes 128 0).flatten).flatten

/-- A slot's PC table. -/
def filmPcs (regs : List FilmReg) : List Byte :=
  ((List.range 16).map fun r =>
    ((List.range 8).map fun k =>
      leBytes 4 (((regs[r]?.bind fun f => f.images[k]?).map fun x => x.1.toNat).getD 0)).flatten).flatten

/-- The film strip as the host reads it. -/
def LoupeCluster.filmBytes (x : LoupeCluster) : List Byte :=
  let slot (k : Nat) : List FilmReg := (tget x.film k).getD []
  ((List.range 32).map fun k => filmImages (slot k)).flatten ++ ((List.range 32).map fun k => filmPcs (slot k)).flatten

/-- FSREAD. -/
def execFsread (iface q : Nat) (s : State) : Host.Outcome State Fault Refusal :=
  runDebug s iface q 11 "FSREAD" [4] fun c =>
    match s.debugDie c with
    | .error k => .error k
    | .ok d =>
      if hostPaOk (c.arg 0) 4096 then .ok ((s.writeHost (c.arg 0) (s.die d).loupe.filmBytes).okCmd c)
      else .error .badCommand

/-- The register codes of a naming record; 256 stands for none. -/
def filmNames (v : Nat) : List Nat :=
  (List.range 16).map fun k => let b := bits v (8 * k + 7) (8 * k); if b = 0xFF then 256 else b

/-- FSNAME: the registers that a slot tracks. -/
def execFsname (iface q : Nat) (s : State) : Host.Outcome State Fault Refusal :=
  runDebug s iface q 12 "FSNAME" [2, 3] fun c =>
    let ns := filmNames c.record.toNat
    s.debugLoupe c (decide (c.index < 32) && ns.all fun b => decide (b < 0xC0) || decide (b = 256)) fun x =>
      { x with film := tput x.film c.index (ns.map fun b => ⟨b, []⟩) }

/-! ### Sub-ops on a warp -/

/-- A warp is to be on a loupe core: it leaves for one, or waits for a slot; one on its way home that is to wait is back
there first. -/
def State.debugTransfer (s : State) (w : Warp) : State :=
  if w.loupe.place = .returning ∧ s.slotFor w.ref = none then (s.updWarp w.ref Warp.movedPaths).sendToLoupe w.ref
  else s.sendToLoupe w.ref

/-- TRANSFER: a host debugger trigger (20 R294). A die without a loupe cluster takes none. -/
def execTransfer (iface q : Nat) (s : State) : Host.Outcome State Fault Refusal :=
  runDebug s iface q 5 "TRANSFER" [4, 5, 6] fun c =>
    match s.debugWarp c with
    | .error k => .error k
    | .ok w =>
      if (s.loupeSite? (s.dieOf w.ref)).isNone then .error .badCommand
      else .ok ((s.debugTransfer w).setCmd c (.moving w.ref false))

/-- The hit events of a warp that wait for predicates end as after false results (20 R303). -/
def State.dropHits (s : State) (r : WarpRef) : State :=
  let d := s.dieOf r
  let mine (h : Hit) : Bool := decide (h.ref = r) && !h.engine
  let hs := (s.die d).loupe.hits.filter mine
  let s := s.updLoupe d fun x => { x with hits := x.hits.filter fun h => !mine h }
  hs.foldl (fun s h => s.endHit { h with anyTrue := false, noPred := false }) s

/-- A pause that is not at a fault ends; a held instruction proceeds. -/
def State.endPause (s : State) (w : Warp) : State :=
  let s := s.updWarp w.ref fun x => { x with loupe := { x.loupe with pause := .none } }
  match w.loupe.pause with
  | .watch slot => s.updPath w.ref slot fun p => { p with passed := true }
  | _ => s

/-- A warp that is at home, or on its way there, waits for no slot: a LOUPE or DBGBRK that does completes (21 R319,
R320). -/
def State.dropSlotWait (s : State) (r : WarpRef) (place : WarpPlace) : State :=
  (s.endSlotWaits r).updWarp r fun x => { x with loupe := { x.loupe with place := place, brk := none } }

/-- RELEASE: the warp returns home; at a fault, the fault then acts as under ABORT (27 R380). -/
def State.debugRelease (s : State) (w : Warp) : State :=
  let s := (s.dropHits w.ref).endPause w
  let s :=
    match w.loupe.place with
    | .loupe _ _ => s.sendHome w.ref
    | .leaving _ _ => s.dropSlotWait w.ref .returning
    | .wanting _ => s.dropSlotWait w.ref .home
    | _ => s
  match w.loupe.pause with
  | .fault _ _ _ _ _ => s.abort w.ref.launch .faulted
  | _ => s

/-- The RELEASE at the head of a queue names a warp on a loupe core whose SELFTEST runs: it runs to its end there before
the warp leaves (21 R327). -/
def State.releaseHeld (s : State) (iface q : Nat) : Bool :=
  match s.headEntry iface q with
  | none => false
  | some n =>
    match s.debugWarp ⟨iface, q, n, leNat (s.entryBytes iface q n 64)⟩ with
    | .error _ => false
    | .ok w => w.onLoupe?.isSome && w.testing

/-- RELEASE (27 R380). -/
def execRelease (iface q : Nat) (s : State) : Host.Outcome State Fault Refusal :=
  if s.releaseHeld iface q then .fault (.notEnabled "RELEASE")
  else
    runDebug s iface q 6 "RELEASE" [4, 5, 6] fun c =>
      match s.debugWarp c with
      | .error k => .error k
      | .ok w => .ok ((s.debugRelease w).setCmd c (.moving w.ref true))

/-- PAUSE (27 R380): a transferred warp pauses at its next instruction boundary. -/
def execPause (iface q : Nat) (s : State) : Host.Outcome State Fault Refusal :=
  runDebug s iface q 7 "PAUSE" [4, 5, 6] fun c =>
    match s.debugWarp c with
    | .error k => .error k
    | .ok w =>
      if w.onLoupe?.isNone then .error .badCommand
      else
        let stop (x : Warp) : Warp :=
          if x.loupe.pause = .none then { x with loupe := { x.loupe with pause := .debugger } } else x
        .ok ((s.updWarp w.ref stop).okCmd c)


/-- RESUME (27 R380): a warp goes on from a pause, a halt or a fault. At a fault it re-executes the instruction in its
faulting lanes, as RETRY with M = 0 does, or continues at its successor (19 R287). -/
def execDebugResume (iface q : Nat) (s : State) : Host.Outcome State Fault Refusal :=
  runDebug s iface q 8 "DEBUG_RESUME" [4, 5, 6, 7] fun c =>
    match s.debugWarp c with
    | .error k => .error k
    | .ok w =>
      match w.loupe.pause with
      | .fault _ slot fpc npc fmask =>
        if 2 ≤ c.arg 3 then .error .badCommand
        else
          .ok (((s.endPause w).updPath w.ref slot fun p =>
            if c.arg 3 = 1 then p.goOn npc else p.retryAt fpc fmask npc).okCmd c)
      | _ => if c.arg 3 ≠ 0 then .error .badCommand else .ok ((s.endPause w).okCmd c)

/-- ARMBRK (27 R380, 21 R320). -/
def execArmbrk (iface q : Nat) (s : State) : Host.Outcome State Fault Refusal :=
  runDebug s iface q 9 "ARMBRK" [2, 3, 4] fun c =>
    match s.debugLaunch c with
    | .error k => .error k
    | .ok l => .ok ((s.updLaunch l.uid fun x => { x with dbgArmed := c.record.getLsbD 0 }).okCmd c)

/-! ### Completion (27 R374) -/

/-- The status of a TRANSFER or RELEASE whose warp has arrived, or is gone. -/
def State.movedStatus (s : State) (r : WarpRef) (home : Bool) : Option (Status × Option FaultKind) :=
  match s.warp? r with
  | none => some (if home then (.ok, none) else (.faulted, some .badCommand))
  | some w =>
    if w.ended then some (if home then (.ok, none) else (.faulted, some .badCommand))
    else
      match w.loupe.place with
      | .loupe _ _ => if home then none else some (.ok, none)
      | .home => if home then some (.ok, none) else none
      | _ => none

/-- A started command's status, when it has one. -/
def State.cmdStatus (s : State) (r : Running) : Option (Status × Option FaultKind) :=
  match r.st with
  | .ended st k => some (st, k)
  | .moving w home => s.movedStatus w home
  | _ => none

/-- An entry at the head that no command row takes: an opcode from 11 to 255, or a DEBUG of no sub-op. -/
def State.strayHead (s : State) (i q : Nat) : Option Nat :=
  match s.headEntry i q with
  | none => none
  | some n =>
    let v := leNat (s.entryBytes i q n 64)
    let op := bits v 7 0
    let sub := bits v 71 64
    if (s.queue i q).quiet && (decide (11 ≤ op) || (decide (op = 9) && (decide (sub = 0) || decide (12 < sub)))) then some n
    else none

/-- A command's completion record, and the next entry comes to the head. -/
def State.finishCmd (s : State) (i q n : Nat) (st : Status) (k : Option FaultKind) : State :=
  let s := s.updQueue i q fun x => { x with running := none }
  (s.completeEntry i q (launchId q n) st ((k.map FaultKind.code).getD 0) 0 0 (decide (s.sessionWorld i ≠ 0))).advanceHead i q

/-- COMMAND_COMPLETION (27 R374, R378). -/
def execCommandCompletion (iface q : Nat) (s : State) : Host.Outcome State Fault Refusal :=
  match (s.queue iface q).running with
  | some r =>
    match s.cmdStatus r with
    | some (st, k) => .next (s.finishCmd iface q r.n st k)
    | none => .fault (.notEnabled "COMMAND_COMPLETION")
  | none =>
    match s.strayHead iface q with
    | some n => .next (s.finishCmd iface q n .faulted (some .badCommand))
    | none => .fault (.notEnabled "COMMAND_COMPLETION")

end Sys2Proof.Machine
end

