-- ==== Sys2Proof/Machine/Preempt.lean ====
section
/-! DEFINITION. Pre-emption (19 R291 to R293): drain, flush and save, the saved context of a unit and its restore
(14 R245). A flushed block is held among the saved ones without warps: it is placed again from its start. -/

namespace Sys2Proof.Machine

/-! ### Units -/

/-- The unit that is pre-empted whole and holds a block: the grid, a span, a launch cluster. -/
def LaunchRecord.unitOf (r : LaunchRecord) (block : Nat) : Nat :=
  if r.cores then 0 else if r.span ≠ 0 then r.spanOf block else r.clusterOf block

/-- The resident blocks of a unit. -/
def State.unitBlocks (s : State) (l : Launch) (u : Nat) : List Block :=
  (s.blocksOf l.uid).filter fun b => decide (l.record.unitOf b.id = u)

/-- A reference names a warp of one of some blocks. -/
def inBlocks (bs : List Block) (r : WarpRef) : Bool :=
  bs.any fun b => decide (b.launch = r.launch) && decide (b.id = r.block)

/-- Every warp of a block has ended: it completes, and no method is chosen for it (R293). -/
def State.blockEnded (s : State) (b : Block) : Bool := (s.warpsOf b.launch b.id).all fun w => w.ended

/-! ### The choice of a method (R291) -/

/-- The estimated clocks a block has left, at an issue rate of instructions per 1,000 clocks; none when no peer
has ended, or when the core has issued nothing. -/
def State.blockEstimate (s : State) (l : Launch) (b : Block) (rate : Nat) : Option Nat :=
  let own := ((s.warpsOf b.launch b.id).map Warp.retired).foldl (· + ·) 0
  if l.endedBlocks = 0 then none
  else
    let left := l.endedRetired / l.endedBlocks - own
    if left = 0 then some 0 else if rate = 0 then none else some (left * 1000 / rate)

/-- Requests of the named operations leave a matrix engine. -/
def MatrixEngine.dropOps (e : MatrixEngine) (ids : List Nat) : MatrixEngine :=
  let keep (qs : List Quarter) : List Quarter := qs.filter fun q => !ids.contains q.op
  { e with
    mrt := keep e.mrt
    passes := e.passes.map fun (p : Pass) => { p with quarters := keep p.quarters }
    replays := e.replays.filter fun x => !ids.contains x.op }

/-- The engine operations of blocks are forgotten. -/
def State.dropOpsOf (s : State) (bs : List Block) : State :=
  let ids := (s.x.ops.filter fun o => inBlocks bs o.ref).map EngineOp.id
  { s with x := { s.x with
    ops := s.x.ops.filter fun o => !ids.contains o.id
    engines := s.x.engines.map fun e => (e.1, e.2.dropOps ids) } }

/-- A barrier without the arrivals of some blocks. -/
def Barrier.without (b : Barrier) (bs : List Block) : Barrier :=
  { b with
    arrived := b.arrived.filter fun r => !inBlocks bs r
    recorded := b.recorded.filter fun x => !inBlocks bs x.1 }

/-- Hit events of blocks that a predicate has not seen leave the darkroom core's queues. -/
def State.forgetHits (s : State) (bs : List Block) : State :=
  let f (d : Die) : Die :=
    { d with loupe := { d.loupe with hits := d.loupe.hits.filter fun h => h.engine || !inBlocks bs h.ref } }
  { s with x := { s.x with dies := s.x.dies.map fun (d : Nat × Die) => (d.1, f d.2) } }

/-- A block's strips, the slots that its warps filled and the scale memory are empty again (14 R223). -/
def State.emptyEngine (s : State) (l : Launch) (b : Block) : State :=
  if l.record.accn = 0 then s
  else
    s.updEngine b.die b.site fun e =>
      { e with
        strips := e.strips.filter fun x =>
          !(decide (b.stripBase ≤ x.1) && decide (x.1 < b.stripBase + l.record.accn))
        slots := e.slots.filter fun x => !inBlocks [b] x.2.filler
        scale := [] }

/-- Flush-and-restart: a block whose operations have finished is released without a save; it waits to be placed again
from its start. -/
def State.flushBlock (s : State) (l : Launch) (b : Block) : State :=
  let s := ((s.dropOpsOf [b]).emptyEngine l b).forgetHits [b]
  let s := (s.dropBlockWork l.uid b.id false).dropChains fun c => inBlocks [b] c.ref
  s.updBlock l.uid b.id fun b =>
    { b with bsm := [], barriers := [], ext := false, overlay := [], frameMax := 0, pre := .saving, soft := [], woken := [] }

/-- A block to be flushed stops, its arrivals withdrawn; its operations are waited for (16 R271). -/
def State.beginFlush (s : State) (l : Launch) (b : Block) : State :=
  let s := s.updCluster l.uid (l.record.clusterOf b.id) fun c => { c with barc := c.barc.without [b] }
  let s := s.updLaunch l.uid fun x => { x with barp := x.barp.without [b] }
  s.updBlock l.uid b.id fun b => { b with pre := .flushing }

/-- Whether a block is flushed rather than saved: the launch is idempotent and the block has written nothing outside
itself, nor has any block of a launch cluster that owns a matrix engine, which is saved or flushed whole (14 R245;
notes/assumptions/43.md). -/
def State.mayFlush (s : State) (l : Launch) (b : Block) : Bool :=
  l.record.idem && !b.ext &&
  (decide (l.record.accn = 0) ||
    (s.blocksOf l.uid).all fun x => decide (l.record.clusterOf x.id ≠ l.record.clusterOf b.id) || (!x.ext && !x.released && !s.blockEnded x))

/-- The method when drain is not chosen; the outstanding writes of a block to be saved land (04 R69). -/
def State.flushOrSave (s : State) (l : Launch) (b : Block) : State :=
  if s.mayFlush l b then s.beginFlush l b
  else
    (s.landAll ((s.warpsOf l.uid b.id).map Warp.ref)).updBlock l.uid b.id fun b => { b with pre := .saving }

/-- The blocks that a method is chosen for at once: a block alone, or every one of a launch cluster with a matrix engine
that has not ended. DEDUCED (notes/assumptions/43.md): R245 saves such a cluster's blocks together, so that they drain
together too. -/
def State.together (s : State) (l : Launch) (b : Block) : List Block :=
  if l.record.accn = 0 then [b]
  else (s.blocksOf l.uid).filter fun x =>
    decide (l.record.clusterOf x.id = l.record.clusterOf b.id) && !x.released && !s.blockEnded x

/-- The method when drain is not chosen, for all of them. -/
def State.flushOrSaveAll (s : State) (l : Launch) (bs : List Block) : State := bs.foldl (fun s x => s.flushOrSave l x) s

/-- The estimate of a block that is within its die's drain limit. -/
def State.drains (s : State) (l : Launch) (rate : Nat) (b : Block) : Option Nat :=
  (s.blockEstimate l b rate).filter fun n => decide (n ≤ (s.die b.die).drainLimit)

/-- A block drains: it has twice its estimate. -/
def State.beginDrain (s : State) (l : Launch) (rate : Nat) (b : Block) : State :=
  s.updBlock l.uid b.id fun x =>
    { x with pre := .draining (s.time + BitVec.ofNat 64 (2 * ((s.drains l rate b).getD 0))) }

/-- Choose a method for a block. -/
def State.chooseMethod (s : State) (l : Launch) (rate : Nat) (b : Block) : State :=
  match s.block? l.uid b.id with
  | none => s
  | some b =>
    let g := s.together l b
    if b.released || s.blockEnded b || g.any fun x => decide (x.pre ≠ .running) then s
    else if g.all fun x => (s.drains l rate x).isSome then g.foldl (fun s x => s.beginDrain l rate x) s
    else s.flushOrSaveAll l g

/-- Choose for each block of a list. -/
def State.chooseMethods (s : State) (l : Launch) (rate : Nat) : List Block → State
  | [] => s
  | b :: bs => (s.chooseMethod l rate b).chooseMethods l rate bs

/-- PREEMPTION (R291): the control die pre-empts a unit; rate is the core's recent issue rate. -/
def execPreemption (launch unit rate : Nat) (s : State) : Host.Outcome State Fault Refusal :=
  match s.launch? launch with
  | none => .fault (.notEnabled "PREEMPTION")
  | some l =>
    let bs := s.unitBlocks l unit
    if (bs.any fun b => !b.released) && l.stopping.isNone then .next (s.chooseMethods l rate bs)
    else .fault (.notEnabled "PREEMPTION")

/-- DRAIN_LIMIT_EXPIRY (R291): a block that drains has not ended at twice its estimate. -/
def execDrainLimitExpiry (launch block : Nat) (s : State) : Host.Outcome State Fault Refusal :=
  match s.launch? launch, s.block? launch block with
  | some l, some b =>
    match b.pre with
    | .draining till =>
      if till.toNat ≤ s.time.toNat ∧ s.blockEnded b = false ∧ b.released = false then
        .next (s.flushOrSaveAll l (s.together l b))
      else .fault (.notEnabled "DRAIN_LIMIT_EXPIRY")
    | _ => .fault (.notEnabled "DRAIN_LIMIT_EXPIRY")
  | _, _ => .fault (.notEnabled "DRAIN_LIMIT_EXPIRY")

/-! ### Saving (R292) -/

/-- A path as a save holds it: its wait issues again, an UNDO's too (16 R271); a tripod path's splice operation is saved
with it, for the commit to come. -/
def Path.saved (tripod : Bool) (p : Path) : Path :=
  let p := p.moved
  { p with park := match p.park with
    | .splice q => if tripod then .splice q else .none
    | k => k }

/-- A warp as a save holds it: its waits issue again, an INJECT is disarmed (21 R324), and one that was under
the loupe is to be transferred again, with a ticket for a slot. -/
def Warp.saved (w : Warp) (tripod : Bool) (ticket : Nat) : Warp :=
  { w with
    p0 := w.p0.map (Path.saved tripod)
    p1 := w.p1.map (Path.saved tripod)
    inject := none
    loupe := { w.loupe with place := if w.loupe.place = .home then .home else .wanting (w.ticket?.getD ticket) } }

/-! #### Sealed slots (14 R245) -/

/-- A tile sealed in sectors of 4 KiB from an IV on: the ciphertext and the tags. -/
def sealTile (key : BitVec 256) (iv : Nat) (tile : List Byte) : List Byte × List Byte :=
  let cts := (chunks 4096 (tile.length / 4096 + 1) tile).zipIdx.map fun x => gcmCrypt key (iv + x.2) x.1
  (cts.flatten, (cts.zipIdx.map fun x => gcmTag key (iv + x.2) x.1).flatten)

/-- The tile of a sealed image; none when a tag fails. -/
def openTile (key : BitVec 256) (iv : Nat) (ct tags : List Byte) : Option (List Byte) :=
  let cs := chunks 4096 (ct.length / 4096 + 1) ct
  let ts := chunks 16 (tags.length / 16 + 1) tags
  if (cs.zipIdx.map fun x => gcmTag key (iv + x.2) x.1) = ts then
    some ((cs.zipIdx.map fun x => gcmCrypt key (iv + x.2) x.1).flatten)
  else none

/-- 4 KiB sectors of a sealed slot; the second slot of a tile holds no bytes of its own. -/
def Slot.sectors (x : Slot) : Nat := if x.sealed then (x.tile.length + 4095) / 4096 else 0

/-- Slots as they leave through the port: sealed ones as ciphertext, with their seals, and the next IV. -/
def sealSlots (key : BitVec 256) (cluster : Nat) : Nat → Table Slot → Table Slot × List SealedTile × Nat
  | iv, [] => ([], [], iv)
  | iv, (n, x) :: r =>
    let rest := sealSlots key cluster (iv + x.sectors) r
    if x.sectors = 0 then ((n, x) :: rest.1, rest.2)
    else
      let y := sealTile key iv x.tile
      ((n, { x with tile := y.1 }) :: rest.1, ⟨cluster, n, iv, y.2⟩ :: rest.2.1, rest.2.2)

/-- The same for the engines of a snapshot. -/
def sealEngines (key : BitVec 256) : Nat → List (Nat × MatrixEngine) →
    List (Nat × MatrixEngine) × List SealedTile × Nat
  | iv, [] => ([], [], iv)
  | iv, (c, e) :: r =>
    let y := sealSlots key c iv e.slots
    let rest := sealEngines key y.2.2 r
    ((c, { e with slots := y.1 }) :: rest.1, y.2.1 ++ rest.2.1, rest.2.2)

/-- Slots as they enter again: the sealed ones verified and opened; and those whose tag fails. -/
def unsealSlots (key : BitVec 256) (seals : List SealedTile) : Table Slot → Table Slot × List (Nat × Slot)
  | [] => ([], [])
  | (n, x) :: r =>
    let rest := unsealSlots key seals r
    match seals.find? fun z => decide (z.slot = n) with
    | none => ((n, x) :: rest.1, rest.2)
    | some z =>
      match openTile key z.iv x.tile z.tags with
      | some tile => ((n, { x with tile := tile }) :: rest.1, rest.2)
      | none => (rest.1, (n, x) :: rest.2)

/-- The save key of a launch's world (14 R245). -/
def State.saveKey (s : State) (l : Launch) : BitVec 256 := ((s.iface l.iface).session.map Session.saveKey).getD 0

/-- The state of a matrix engine that a save holds (14 R245). -/
def MatrixEngine.saved (e : MatrixEngine) : MatrixEngine :=
  { MatrixEngine.fresh with owner := e.owner, slots := e.slots, banks := e.banks, strips := e.strips, scale := e.scale }

/-- The engines that the clusters of a snapshot hold. -/
def State.savedEngines (s : State) (cs : List LaunchCluster) : List (Nat × MatrixEngine) :=
  cs.filterMap fun c =>
    let e := s.engine c.die c.site
    if e.owner = some (c.launch, c.num) then some (c.num, e.saved) else none

/-- The sectors of a snapshot's sealed slots, each sealed under an IV of its own. -/
def Snapshot.sectors (z : Snapshot) : Nat :=
  z.engines.foldl (fun n e => e.2.slots.foldl (fun n x => n + x.2.sectors) n) 0

/-- The saved context of blocks of a launch: the clusters and spans that pass the tests. -/
def State.snapshot (s : State) (l : Launch) (unit : Nat) (bs : List Block) (cs : List LaunchCluster)
    (ks : List Span) : Snapshot :=
  let es := sealEngines (s.saveKey l) s.ctl.saveIv (s.savedEngines cs)
  { launch := l.uid
    unit := unit
    blocks := bs
    warps := (s.x.warps.filter fun w => inBlocks bs w.ref).map fun w => w.saved l.record.tripod s.nextOp
    clusters := cs
    spans := ks
    engines := es.1
    seals := es.2.1
    ops := s.x.ops.filter fun o => inBlocks bs o.ref
    splices := if l.record.tripod then s.x.splices.filter fun q => inBlocks bs q.ref else []
    gen := l.barp.gen }

/-- Every engine operation of some blocks has finished. -/
def State.opsDone (s : State) (bs : List Block) : Bool := s.x.ops.all fun o => !inBlocks bs o.ref || o.finished

/-- A warp can be saved: it is in no transfer and in no SELFTEST, and no LOUPE or DBGBRK of it waits to begin one
(19 R293, 21 R327). -/
def Warp.savable (w : Warp) : Bool :=
  (match w.loupe.place with
    | .leaving _ _ => false
    | .returning => false
    | _ => true) &&
  w.allPaths.all fun p => !p.testing && decide (p.park ≠ .loupeSlot)

/-- No splice operation of some blocks owes a result (19 R292); UNDO issues again, and in tripod mode operations are
saved. -/
def State.splicesDone (s : State) (bs : List Block) : Bool :=
  s.x.splices.all fun q => !inBlocks bs q.ref || q.work.parks (((s.launch? q.ref.launch).map fun l => l.record.tripod).getD false)

/-- Every closed batch of some blocks' warps is complete, so that a WAITB that issues again finds it so (16 R271). -/
def State.batchesDone (s : State) (bs : List Block) : Bool :=
  s.x.warps.all fun w => !inBlocks bs w.ref || w.ended || decide (w.doneCloses = w.closes)

/-- Whether a unit's save can be written: each block has ended or stopped for it, its operations have finished,
no warp is in a transfer, a test or a watchpoint's hold. -/
def State.saveReady (s : State) (bs : List Block) : Bool :=
  (bs.any fun b => !b.released) && (bs.all fun b => b.released || decide (b.pre = .saving) || decide (b.pre = .flushing)) &&
  s.opsDone bs && s.splicesDone bs && s.batchesDone bs &&
  (s.x.warps.all fun w => !inBlocks bs w.ref || w.savable) &&
  s.x.dies.all fun d => d.2.loupe.hits.all fun h => h.engine || !inBlocks bs h.ref

/-- Blocks with their warps, operations, clusters, spans and engines leave the dies. -/
def State.removeBlocks (s : State) (l : Launch) (bs : List Block) (nums spans : List Nat) : State :=
  let s := (s.dropOpsOf bs).forgetHits bs
  let free (e : MatrixEngine) : MatrixEngine :=
    match e.owner with
    | some (u, n) =>
      if u = l.uid ∧ nums.contains n then e.cleared else e
    | none => e
  { s with x := { s.x with
    warps := s.x.warps.filter fun w => !inBlocks bs w.ref
    splices := s.x.splices.filter fun q => !inBlocks bs q.ref
    blocks := s.x.blocks.filter fun b => !(decide (b.launch = l.uid) && decide (b ∈ bs))
    clusters := s.x.clusters.filter fun c => !(decide (c.launch = l.uid) && nums.contains c.num)
    spans := s.x.spans.filter fun k => !(decide (k.launch = l.uid) && spans.contains k.num)
    engines := s.x.engines.map fun e => (e.1, free e.2) } }

/-- Negatives of a launch hold blocks that leave their dies: it has none until its next (24 R353;
notes/assumptions/41.md). -/
def State.forgetNegatives (s : State) (uid : Nat) : State :=
  let keep (x : Die) : Die := { x with negative := x.negative.filter fun n => decide (n.snap.launch ≠ uid) }
  { s with x := { s.x with dies := s.x.dies.map fun (x : Nat × Die) => (x.1, keep x.2) } }

/-- SAVE_COMPLETE (R292): the save area of a unit is written, and its resources are free. -/
def execSaveComplete (launch unit : Nat) (s : State) : Host.Outcome State Fault Refusal :=
  match s.launch? launch with
  | none => .fault (.notEnabled "SAVE_COMPLETE")
  | some l =>
    let bs := s.unitBlocks l unit
    if s.saveReady bs ∧ l.stopping = none then
      let s := s.landAll ((s.x.warps.filter fun w => inBlocks bs w.ref).map Warp.ref)
      let s := (bs.filter fun b => decide (b.pre = .flushing)).foldl (fun s b => s.flushBlock l b) s
      let cs := s.x.clusters.filter fun c => decide (c.launch = l.uid) && bs.any fun b => decide (l.record.clusterOf b.id = c.num)
      let ks := if l.record.span = 0 then [] else
        s.x.spans.filter fun k => decide (k.launch = l.uid) && bs.any fun b => decide (l.record.spanOf b.id = k.num)
      let z := s.snapshot l unit (s.unitBlocks l unit) cs ks
      let s := s.removeBlocks l (s.unitBlocks l unit) (cs.map LaunchCluster.num) (ks.map Span.num)
      let s := s.updCtl fun c => { c with saves := c.saves ++ [z], saveIv := c.saveIv + z.sectors }
      .next ((s.forgetNegatives l.uid).updLaunch l.uid fun x => { x with saved := x.saved ++ [unit] })
    else .fault (.notEnabled "SAVE_COMPLETE")

/-! ### Restoring -/

/-- Bind the slots of a saved engine to healthy banks; the slots for which there is none. -/
def State.bindSaved (s : State) (d site : Nat) : Table (Nat × Option Nat) → State × List Nat
  | [] => (s, [])
  | b :: r =>
    match s.bindSlot d site b.1 b.2.2.isSome with
    | some s => s.bindSaved d site r
    | none => let x := s.bindSaved d site r; (x.1, b.1 :: x.2)

/-- The warp that filled a slot whose seal fails is to report SEAL_TAG at its next WAITB (14 R245). -/
def State.sealFailed (s : State) (x : Slot) : State :=
  ({ s with nextOp := s.nextOp + 1 } : State).updWarp x.filler fun w =>
    { w with errors := w.errors ++ [⟨x.fillClose, s.nextOp, .sealTag, 0, 0, w.liveLanes, [], true⟩] }

/-- Put a saved engine's state into a site's engine: its slots go to healthy banks of that engine. A tile whose seal
fails leaves its slots empty. Also the slots that find no bank, and those whose seal fails. -/
def State.loadEngine (s : State) (l : Launch) (seals : List SealedTile) (d site : Nat) (e : MatrixEngine) :
    State × List Nat × List Slot :=
  let y := unsealSlots (s.saveKey l) seals e.slots
  let gone (n : Nat) (x : Slot) : Bool := x.second && y.2.any fun b => decide (b.1 + 1 = n)
  let put (x : MatrixEngine) : MatrixEngine :=
    { x with
      owner := e.owner, slots := y.1.filter fun x => !gone x.1 x.2, banks := [], strips := e.strips, scale := e.scale }
  let z := (s.updEngine d site put).bindSaved d site e.banks
  (z.1, z.2, y.2.map Prod.snd)

/-- A saved block at its new place, running. -/
def Block.movedTo (b : Block) (p : Placement) (cluster : Nat) : Block :=
  { b with die := p.die, site := p.site, core := p.cores.getD (b.id % max cluster 1) 0, pre := .running }

/-- A flushed block starts again: its arguments are read, its warps start; a fault acts as under ABORT
(07 R126). -/
def State.startAgain (s : State) (l : Launch) (b : Block) : State :=
  let r := l.record
  let v := s.readVa none (s.mmu l.iface) r.world r.argVa r.argSize
  match v.fault with
  | some (k, _) => (v.s.dispatcherRecord l.uid k b.id).abort l.uid .faulted
  | none =>
    ((v.s.sendStart b.die r.world v.bytes).updBlock l.uid b.id fun b => { b with bsm := writeBytes [] 0 v.bytes }).startWarps b
      r.entry (List.range r.warps)

/-- A launch stops: no further block of it is placed. -/
def State.stops (s : State) (uid : Nat) : Bool := ((s.launch? uid).bind Launch.stopping).isSome

/-- Bring back a saved block, unless the launch stops (07 R126): its warps are bound again (07 R134), its locks move to its
core. -/
def State.restoreBlock (s : State) (l : Launch) (z : Snapshot) (b : Block) : State :=
  if s.stops l.uid then s
  else
  let s := { s with x := { s.x with blocks := s.x.blocks ++ [b] } }
  let ws := z.warps.filter fun w => decide (w.ref.block = b.id)
  let move (o : EngineOp) : EngineOp := { o with locks := o.locks.map fun (k : Lock) => { k with core := b.coreKey } }
  let os := (z.ops.filter fun o => decide (o.ref.block = b.id)).map move
  let s := { s with x := { s.x with ops := s.x.ops ++ os } }
  if ws = [] ∧ b.released = false then s.startAgain l b
  else
    ws.foldl (fun (s : State) w =>
      { s with x := { s.x with warps := s.x.warps ++ [{ w with sched := s.bindSched b w.ref }] } }) s

/-- Bring back one saved launch cluster at a placement; none when it does not fit there. -/
def State.restoreCluster (s : State) (l : Launch) (z : Snapshot) (c : LaunchCluster) (p : Placement) : Option State :=
  let s := { s with x := { s.x with clusters := s.x.clusters ++ [{ c with die := p.die, site := p.site }] } }
  let y := match z.engines.find? fun e => decide (e.1 = c.num) with
    | some e => s.loadEngine l (z.seals.filter fun t => decide (t.cluster = c.num)) p.die p.site e.2
    | none => (s, [], [])
  let bs := (z.blocks.filter fun b => decide (l.record.clusterOf b.id = c.num)).map fun b => b.movedTo p l.record.cluster
  if y.2.1 ≠ [] then none
  else some (y.2.2.foldl State.sealFailed (bs.foldl (fun s b => s.restoreBlock l z b) y.1))

/-- Whether a placement can take a saved cluster now. -/
def State.restoreFits (s : State) (l : Launch) (z : Snapshot) (c : LaunchCluster) (p : Placement) : Bool :=
  let r := l.record
  let k := r.spanOf (c.num * max r.cluster 1)
  s.placeOk l p && (p.cores.all fun i => s.admits (State.coreKey p.die p.site i) r) &&
  (decide (r.accn = 0) || decide ((s.engine p.die p.site).owner = none)) &&
  (!(z.spans.any fun x => decide (x.num = k)) ||
    match s.span? l.uid k with
    | some x => decide (x.die = p.die)
    | none => decide (r.spadSize ≤ s.spadFree p.die))

/-- Open the saved span of a cluster on its new die. -/
def State.openSpan (s : State) (l : Launch) (z : Snapshot) (c : LaunchCluster) (die : Nat) : State :=
  let k := l.record.spanOf (c.num * max l.record.cluster 1)
  match s.span? l.uid k, z.spans.find? fun x => decide (x.num = k) with
  | none, some x => { s with x := { s.x with spans := s.x.spans ++ [{ x with die := die }] } }
  | _, _ => s

/-- Bring back saved clusters in order. -/
def State.restoreAll (s : State) (l : Launch) (z : Snapshot) : List (LaunchCluster × Placement) → Option State
  | [] => some s
  | (c, p) :: r =>
    if s.stops l.uid then some s
    else if s.restoreFits l z c p then
      ((s.openSpan l z c p.die).restoreCluster l z c p).bind fun s => s.restoreAll l z r
    else none

/-- Splice operations whose warps are not resident are gone. -/
def State.dropOrphanSplices (s : State) : State :=
  { s with x := { s.x with splices := s.x.splices.filter fun q => (s.warp? q.ref).isSome } }

/-- RESTORE (R292, 14 R245): a saved unit is placed again, each launch cluster whole, on ordinary cores. -/
def execRestore (launch unit : Nat) (sites : List Placement) (s : State) : Host.Outcome State Fault Refusal :=
  match s.launch? launch, s.ctl.saves.find? fun z => decide (z.launch = launch) && decide (z.unit = unit) with
  | some l, some z =>
    if l.stopping.isSome ∨ s.recovering ∨ sites.length ≠ z.clusters.length then .fault (.notEnabled "RESTORE")
    else
      let s' := s.updCtl fun c => { c with saves := c.saves.filter fun y => decide (y ≠ z) }
      let s' := s'.updLaunch launch fun x => { x with saved := x.saved.filter fun y => decide (y ≠ unit) }
      let s' := { s' with x := { s'.x with splices := s'.x.splices ++ z.splices } }
      match s'.restoreAll l z (z.clusters.zip sites) with
      | some s' => .next (s'.dropOrphanSplices.settleLaunch launch)
      | none => .fault (.notEnabled "RESTORE")
  | _, _ => .fault (.notEnabled "RESTORE")

end Sys2Proof.Machine
end

