-- ==== Sys2Proof/Machine/Worlds.lean ====
section
/-! DEFINITION. Worlds, sessions, grain windows and messages at a die's ports (24 R341 to R348, R351). -/

namespace Sys2Proof.Machine

/-! ### Zeroing a die (24 R341) -/

/-- A loupe cluster whose SRAM is zeroed; its control record and counters are registers. -/
def LoupeCluster.zeroed (x : LoupeCluster) : LoupeCluster :=
  { LoupeCluster.fresh with
    ctl := x.ctl, hitSeq := x.hitSeq, tseq := x.tseq, skipped := x.skipped, sampleCount := x.sampleCount }

/-- A matrix engine whose SRAM is zeroed: stationary banks, strips, scale memory, filter cache. -/
def MatrixEngine.zeroed (e : MatrixEngine) : MatrixEngine :=
  { MatrixEngine.fresh with fenced := e.fenced, lastCheck := e.lastCheck }

/-- A span's scratchpad, zeroed where it lies on a die. -/
def Span.zeroedOn (k : Span) (d : Nat) : Span := if k.die = d then { k with spad := [], broken := [] } else k

/-- Zero every byte of a die's SRAM. What blocks hold is gone with them; a span may have none there. -/
def State.zeroDie (s : State) (d : Nat) : State :=
  let s := s.updLoupe d LoupeCluster.zeroed
  { s with x := { s.x with
    spans := s.x.spans.map fun k => k.zeroedOn d
    engines := s.x.engines.map fun e => (e.1, if e.1 / 16 = d then e.2.zeroed else e.2) } }

/-- A die holds no resident block and no pending engine command. -/
def State.dieEmpty (s : State) (d : Nat) : Bool :=
  (s.x.blocks.all fun b => decide (b.die ≠ d)) && (s.x.ops.all fun o => o.finished || decide (s.dieOf o.ref ≠ d))

/-- WORLD_LATCH (24 R341): an empty die is zeroed and latched. A protected world exists under its session
(R345). -/
def execWorldLatch (die world : Nat) (s : State) : Host.Outcome State Fault Refusal :=
  let known := decide (world = 0) ||
    (decide (world ≤ 8) && s.ctl.ifaces.any fun f => f.2.session.any fun x => decide (x.world = world))
  whenUp s "WORLD_LATCH" (
    if s.dieInUse die ∧ (s.die die).st = .running ∧ s.dieEmpty die ∧ known = true then
      .next ((s.zeroDie die).updDie die fun d => { d with world := world })
    else .fault (.notEnabled "WORLD_LATCH"))

/-! ### Sessions (24 R345) -/

/-- Clocks of 3·H. -/
def threeH (ms : Nat) : DWord := BitVec.ofNat 64 (3 * ms * Config.clocksPerMs)

/-- A request that a session may be made of: an enabled interface without one, a free world, H in its range. -/
def State.sessionOk (s : State) (r : SessionRequest) : Bool :=
  (s.iface r.iface).enabled && (s.iface r.iface).session.isNone && inLimits r.world 1 8 1 &&
  inLimits r.heartbeatMs 100 10000 1 && s.ctl.ifaces.all fun f => f.2.session.all fun x => decide (x.world ≠ r.world)

/-- SESSION_ESTABLISH (24 R345, R343, R344; 14 R245): the session's keys are installed, its save key made. -/
def execSessionEstablish (req : SessionRequest) (s : State) : Host.Outcome State Fault Refusal :=
  whenUp s "SESSION_ESTABLISH" <| .next (
    if s.sessionOk req then
      let x : Session :=
        { world := req.world, heartbeatMs := req.heartbeatMs, debug := req.debug, lastSeq := none
          deadline := s.time + threeH req.heartbeatMs, dataKey := req.dataKey, weightKey := req.weightKey
          saveKey := Config.freeKey s.ctl.keys, groupKey := req.groupKey }
      (s.updIface req.iface fun f => { f with session := some x }).updCtl fun c =>
        { c with
          worldKey := tput c.worldKey req.world c.keys, keys := c.keys + 1
          dataKeys := tput c.dataKeys c.keys req.dataKey }
    else s)

/-- HEARTBEAT (24 R345): it counts when it is verified before the deadline and its number is larger than the
previous one's; else it is discarded. -/
def execHeartbeat (iface : Nat) (seq : DWord) (s : State) : Host.Outcome State Fault Refusal :=
  whenUp s "HEARTBEAT" <| .next (
    match (s.iface iface).session with
    | none => s
    | some x =>
      if s.time.toNat < x.deadline.toNat ∧ x.lastSeq.all (fun n => decide (n.toNat < seq.toNat)) then
        s.updIface iface fun f =>
          { f with session := some { x with lastSeq := some seq, deadline := s.time + threeH x.heartbeatMs } }
      else s)

/-! ### Teardown (24 R346) -/

/-- Launches of a world that have not completed. -/
def State.worldLaunches (s : State) (i w : Nat) : List Launch :=
  s.x.launches.filter fun l => decide (l.iface = i) && decide (l.record.world = w) &&
    (match l.stage with | .completed _ => false | _ => true)

/-- A launch ends SESSION_LOST: its work is abandoned, nothing is drained or saved. -/
def State.loseLaunch (s : State) (l : Launch) : State :=
  let bs := s.blocksOf l.uid
  let s := (s.dropOpsOf bs).forgetHits bs
  let s := bs.foldl (fun s b => s.dropBlockWork l.uid b.id false) s
  let s := s.updCtl fun c => { c with chains := c.chains.filter fun x => decide (x.ref.launch ≠ l.uid) }
  s.completeLaunch l.uid .sessionLost

/-- Queued launches of a world in a queue's entries complete SESSION_LOST. -/
def State.loseEntries (s : State) (i q w : Nat) : List Nat → State
  | [] => s
  | n :: ns =>
    let r := LaunchRecord.ofBits (leNat (s.entryBytes i q n 256))
    let s :=
      if s.entryOp i q n = 0 ∧ r.world = w ∧ !(s.queue i q).earlyDone.contains n then
        (s.completeEntry i q (launchId q n) .sessionLost 0 0 0 true).completeEarly i q n
      else s
    s.loseEntries i q w ns

/-- Queued launches of a world in every queue of its interface. -/
def State.loseQueues (s : State) (i w : Nat) : List Nat → State
  | [] => s
  | q :: qs =>
    let x := s.queue i q
    (s.loseEntries i q w ((List.range (x.tail - x.head)).map fun k => x.head + k)).loseQueues i w qs

/-- A die of a lost world: zeroed, its reset ended, its negatives and messages gone. -/
def State.loseDie (s : State) (d : Nat) : State :=
  (s.zeroDie d).updDie d fun x =>
    { x with
      st := .running, negative := none, held := [], replayed := [], discard := [], accepted := [], reels := [], reelOff := []
      stepErrors := [] }

/-- The dies of a world are lost. -/
def State.loseDies (s : State) (w : Nat) : List Nat → State
  | [] => s
  | d :: ds => (if (s.die d).world = w then s.loseDie d else s).loseDies w ds

/-- HEARTBEAT_DEADLINE (24 R346): the deadline passes and the world is torn down. -/
def execHeartbeatDeadline (iface : Nat) (s : State) : Host.Outcome State Fault Refusal :=
  match (s.iface iface).session with
  | none => .fault (.notEnabled "HEARTBEAT_DEADLINE")
  | some x =>
    if s.time.toNat < x.deadline.toNat then .fault (.notEnabled "HEARTBEAT_DEADLINE")
    else
      let s := (s.worldLaunches iface x.world).foldl State.loseLaunch s
      let s := s.loseDies x.world (List.range 8)
      let s := s.loseQueues iface x.world ((s.iface iface).queues.map Prod.fst)
      let s := s.updIface iface fun f => { f with session := none, sessionLost := true }
      .next (s.updCtl fun c => { c with worldKey := tput c.worldKey x.world c.keys, keys := c.keys + 1 })

/-! ### Grain windows (24 R347, R348) -/

/-- Clears that were asked for take effect. -/
def State.clearCores (s : State) : List Nat → State
  | [] => s
  | k :: ks => (s.updCore k (CoreState.clear (s.coreClk k))).clearCores ks

/-- The counters of every enabled core as they stand. -/
def State.allCounters (s : State) : Table CoreState :=
  (((List.range 8).map s.coreKeys).flatten).map fun k => (k, s.counters k)

/-- A grain window has ended that the control die has not yet closed; nothing else happens before it does. -/
def State.windowDue (s : State) : Bool := decide (s.ctl.window < windowOf s.time)

/-- A grain window ends: coarsened counters take the values they have now, and the records of windows that have ended
are released. -/
def State.endWindow (s : State) : State :=
  let s := s.clearCores s.ctl.clearAtBoundary
  let s := s.updCtl fun c => { c with window := windowOf s.time, coarse := s.allCounters, clearAtBoundary := [] }
  s.releaseRecords s.ctl.heldRecords

/-- GRAIN_WINDOW_BOUNDARY. -/
def execGrainWindowBoundary (s : State) : Host.Outcome State Fault Refusal :=
  if s.windowDue then .next s.endWindow else .fault (.notEnabled "GRAIN_WINDOW_BOUNDARY")

/-! ### Messages (24 R342, R351) -/

/-- The operation that sent a refused message completes its batch in error (24 R342). -/
def State.refuseOp (s : State) (m : DieMessage) : State :=
  match m.op.bind s.op? with
  | none => s
  | some o =>
    match s.launch? o.ref.launch with
    | some l => if o.finished then s else s.endWork l o 0 (some (.permission, m.addr))
    | none => s

/-- The interface that a message serves: its operation's, else that of its world's session, else interface 0. -/
def State.messageIface (s : State) (m : DieMessage) : Nat :=
  match m.op.bind s.op? with
  | some o => o.mmu.iface
  | none => ((s.ctl.ifaces.find? fun f => f.2.session.any fun x => decide (x.world = m.world)).map Prod.fst).getD 0

/-- A message that a unit of the device may send: to another unit, in use, about bytes that one of the two owns. -/
def State.messageOk (s : State) (m : DieMessage) : Bool :=
  let used (d : Nat) : Bool := decide (d = 8) || (decide (d < 8) && s.dieInUse d)
  let owner := if m.answers then m.src else m.dst
  decide (m.src ≠ m.dst) && used m.src && used m.dst && s.populatedRange m.addr (max m.bytes.length 1) &&
  decide (s.ownerOf m.addr = owner)

/-- DIE_PORT_MESSAGE: a message of another world than a die's is refused and logged; any other is stamped and reeled,
and a write performed, or held while the die recovers. -/
def execDiePortMessage (msg : DieMessage) (s : State) : Host.Outcome State Fault Refusal :=
  whenUp s "DIE_PORT_MESSAGE" (
    if s.messageOk msg = false then .fault (.notEnabled "DIE_PORT_MESSAGE")
    else if msg.dst < 8 ∧ (s.die msg.dst).world ≠ msg.world then
      .next ((s.logRefused (s.messageIface msg) (if msg.src < 8 then some msg.src else none) msg.dst msg.world).refuseOp msg)
    else if msg.answers then .next (s.stampMessage msg)
    else .next (s.deliverWrite msg))

end Sys2Proof.Machine
end

