-- ==== Sys2Proof/Machine/Recovery.lean ====
section
/-! DEFINITION. Negatives, fatal die errors and recovery (24 R349 to R354). -/

namespace Sys2Proof.Machine

/-! ### Negatives (24 R349, R350) -/

/-- The die that holds a die's negatives: the one in use whose negative predecessor it is, the next in ring order. -/
def State.negativeHost (s : State) (d : Nat) : Option Nat :=
  ((List.range 7).map fun k => (d + 1 + k) % 8).find? fun h => s.dieInUse h

/-- The dies that hold blocks of a launch. -/
def State.launchDies (s : State) (uid : Nat) : List Nat :=
  (List.range 8).filter fun d => (s.blocksOf uid).any fun b => decide (b.die = d)

/-- The blocks, clusters and spans of a launch on a die, as a negative holds them. -/
def State.negativeOf (s : State) (l : Launch) (d : Nat) : Snapshot :=
  s.snapshot l d ((s.blocksOf l.uid).filter fun b => decide (b.die = d))
    (s.x.clusters.filter fun c => decide (c.launch = l.uid) && decide (c.die = d))
    (s.x.spans.filter fun k => decide (k.launch = l.uid) && decide (k.die = d))

/-- A die's negative goes to its host, as a message on the host's port (24 R351; notes/assumptions/38.md). A die without a
host keeps none. -/
def State.writeNegative (s : State) (l : Launch) (d : Nat) : State :=
  match s.negativeHost d with
  | none => s
  | some h =>
    let z := s.negativeOf l d
    let s := s.stampMessage ⟨d, h, l.record.world, none, s.ctl.map.negativeBase h, [], false⟩
    (s.updDie d fun x => { x with negative := some ⟨h, z⟩ }).updCtl fun c => { c with saveIv := c.saveIv + z.sectors }

/-- A die that has its negative: its reels are empty and its stamps start again. -/
def State.startReels (s : State) (d : Nat) : State :=
  if (s.negativeHost d).isNone then s
  else s.updDie d fun x =>
    { x with reels := [], reelOff := [], stamp := 0, accepted := [], discard := [], stepErrors := [] }

/-- Write the negatives of dies, and start their reels anew. -/
def State.writeNegatives (s : State) (l : Launch) (ds : List Nat) : State :=
  ds.foldl State.startReels (ds.foldl (fun s d => s.writeNegative l d) s)

/-- The context of every warp of a launch can be saved: no result is owed to it and no SELFTEST of it runs. -/
def State.contextsReady (s : State) (uid : Nat) : Bool :=
  s.x.warps.all fun w => decide (w.ref.launch ≠ uid) || s.mayArrive w

/-- NEGATIVE_COMPLETE (24 R350): the launch's operations have finished, every negative is written, and the
waiters resume. -/
def execNegativeComplete (launch : Nat) (s : State) : Host.Outcome State Fault Refusal :=
  match s.launch? launch with
  | none => .fault (.notEnabled "NEGATIVE_COMPLETE")
  | some l =>
    let ds := s.launchDies launch
    if l.negWait && s.opsDone (s.blocksOf launch) && s.contextsReady launch && (l.replays.all fun r => decide (r.behind = 0)) &&
        ds.all fun d => decide ((s.die d).st = .running) then
      let refs := (s.x.warps.filter fun w => decide (w.ref.launch = launch)).map Warp.ref
      let s := (s.landAll refs).writeNegatives l ds
      let s := s.updLaunch launch fun x => { x with negWait := false, replays := [] }
      .next (s.releaseWaiters .package l.barp.gen refs)
    else .fault (.notEnabled "NEGATIVE_COMPLETE")

/-! ### Fatal errors (24 R352 to R354) -/

/-- The complete negative from which a launch's blocks on a die can recover: the launch has RESIL, the die that
holds the negative is in use, no reel of the die has stopped, and this is no second error. -/
def State.recoverable (s : State) (l : Launch) (d : Nat) : Option Snapshot :=
  let x := s.die d
  match x.negative with
  | none => none
  | some n =>
    if l.record.resil ≠ 0 ∧ n.snap.launch = l.uid ∧ s.negativeHost d = some n.host ∧ x.reelOff = [] ∧ x.st = .running then
      some n.snap
    else none

/-- The warps of a launch that wait at its package barrier fault BARRIER_BROKEN, as a record only (24 R353). -/
def State.breakBarrier (s : State) : List Warp → State
  | [] => s
  | w :: ws =>
    let at' (p : Path) : Bool := match p.park with
      | .barrier .package _ => true
      | .arrive .package => true
      | _ => false
    let s := match w.live.find? fun x => at' x.2 with
      | none => s
      | some (slot, p) =>
        (s.faultRecord w.ref.launch ⟨p.lanes, p.pc, w.ref.block, w.ref.warp, w.pathBit slot, .path, .barrierBroken⟩
          [⟨lowestLane p.lanes, .barrierBroken, 0, 0⟩]).1
    s.breakBarrier ws

/-- A launch's blocks on a die are lost with it; chains are the collective engine's (25 R359). -/
def State.loseBlocksOn (s : State) (l : Launch) (d : Nat) : State :=
  let bs := (s.blocksOf l.uid).filter fun b => decide (b.die = d)
  let nums := (s.x.clusters.filter fun c => decide (c.launch = l.uid) && decide (c.die = d)).map LaunchCluster.num
  let spans := (s.x.spans.filter fun k => decide (k.launch = l.uid) && decide (k.die = d)).map Span.num
  s.removeBlocks l bs nums spans

/-- Steps of the collective engine that a die's blocks have issued and that still run; they outlive the die (25 R359). -/
def State.stepsOn (s : State) (l : Launch) (d : Nat) : List EngineOp :=
  s.x.ops.filter fun o => decide (o.ref.launch = l.uid) && decide (s.dieOf o.ref = d) && !o.finished &&
    (match o.work with | .step _ _ => true | _ => false)

/-- A launch that recovery does not cover ends DIE_LOST (24 R353): its blocks on every die stop. One that is lost with the
die, and whose steps the collective engine still runs, waits for them. -/
def State.loseDieOf (s : State) (l : Launch) (d : Nat) : State :=
  let s := s.breakBarrier (s.x.warps.filter fun w => decide (w.ref.launch = l.uid))
  let s := (s.abort l.uid .dieLost).updLaunch l.uid fun x => { x with stopping := some .dieLost }
  let steps := s.stepsOn l d
  let held := (s.blocksOf l.uid).filter fun b => decide (b.die = d) && steps.any fun o => decide (o.ref.block = b.id)
  let husk (b : Block) : Block := { b with bsm := [], barriers := [], overlay := [], soft := [], woken := [] }
  let s := s.loseBlocksOn l d
  let s := { s with x := { s.x with blocks := s.x.blocks ++ held.map husk, ops := s.x.ops ++ steps } }
  s.settleLaunch l.uid

/-- A launch cluster's engine stands again as a negative holds it (14 R245). DESIGN CHOICE (notes/assumptions/31.md): a
slot for which no healthy bank is left is empty. -/
def State.reloadEngine (s : State) (l : Launch) (z : Snapshot) (c : LaunchCluster) : State :=
  match z.engines.find? fun e => decide (e.1 = c.num) with
  | none => s
  | some e =>
    let y := s.loadEngine l (z.seals.filter fun t => decide (t.cluster = c.num)) c.die c.site e.2
    y.2.2.foldl State.sealFailed
      (y.1.updEngine c.die c.site fun x => { x with slots := x.slots.filter fun b => !y.2.1.contains b.1 })

/-- A covered launch's blocks stand again as its negative holds them (24 R352 step 3). -/
def State.restoreNegative (s : State) (l : Launch) (d : Nat) (z : Snapshot) : State :=
  let steps := s.stepsOn l d
  let s := s.loseBlocksOn l d
  let s := { s with x := { s.x with
    blocks := s.x.blocks ++ z.blocks
    warps := s.x.warps ++ z.warps
    clusters := s.x.clusters ++ z.clusters
    spans := s.x.spans ++ z.spans
    ops := s.x.ops ++ z.ops ++ steps
    splices := s.x.splices ++ z.splices } }
  let s := z.clusters.foldl (fun s c => s.reloadEngine l z c) s
  s.updLaunch l.uid fun x =>
    { x with
      overlays := x.overlays.filter fun o => decide (o.2.1 ≠ d)
      barp := { x.barp with arrived := x.barp.arrived.filter fun r => !inBlocks z.blocks r }
      replays := (x.replays.filter fun r => decide (r.die ≠ d)) ++ [⟨d, x.barp.gen - z.gen, []⟩] }

/-- A die's registers and SRAM after its reset (24 R339): world, port records and reels stay with the control die
and the senders. -/
def State.resetDie (s : State) (d : Nat) : State :=
  let s := s.updDie d fun x => { x with tlb := [], loupe := LoupeCluster.fresh }
  let s := (s.coreKeys d).foldl (fun s k => s.updCore k fun c =>
    { CoreState.fresh with budget := c.budget, since := s.coreClk k }) s
  { s with x := { s.x with
    spans := s.x.spans.map fun k => k.zeroedOn d
    engines := s.x.engines.filter fun e => decide (e.1 / 16 ≠ d) } }

/-- Negatives that a die holds for another are lost with its error (24 R354). -/
def State.loseNegativesOn (s : State) (d : Nat) : State :=
  let keep (x : Die) : Die := { x with negative := x.negative.filter fun n => decide (n.host ≠ d) }
  { s with x := { s.x with dies := s.x.dies.map fun (x : Nat × Die) => (x.1, keep x.2) } }

/-- The launches with blocks on a die. -/
def State.launchesOn (s : State) (d : Nat) : List Launch :=
  s.x.launches.filter fun l => (s.blocksOf l.uid).any fun b => decide (b.die = d)

/-- FATAL_DIE_ERROR (24 R352, R353): launches that recovery does not cover end; the die is reset, and a covered
launch's negative restored; a die whose reset fails is fenced (R340). -/
def execFatalDieError (die : Nat) (resetOk : Bool) (s : State) : Host.Outcome State Fault Refusal :=
  whenUp s "FATAL_DIE_ERROR" <|
  if !s.dieInUse die then .fault (.notEnabled "FATAL_DIE_ERROR")
  else
    let s := s.logEvent (.dieFatal die)
    let ls := s.launchesOn die
    let cover (l : Launch) : Option Snapshot := if resetOk then s.recoverable l die else none
    let lost := ls.filter fun l => (cover l).isNone
    let kept := (ls.filterMap fun l => (cover l).map fun z => (l, z)).head?
    let s := lost.foldl (fun s l => s.loseDieOf l die) s
    let s := (s.resetDie die).loseNegativesOn die
    let held := (s.die die).held
    match kept with
    | some (l, z) => .next ((s.restoreNegative l die z).updDie die fun x => { x with st := .recovering l.uid })
    | none =>
      let s := s.updDie die fun x =>
        { x with
          st := .running, fenced := !resetOk, negative := none, reels := [], reelOff := [], stamp := 0
          accepted := [], discard := [], held := [], replayed := [], stepErrors := [] }
      .next (held.foldl State.deliverWrite s)

/-- The reel entries of a die in ascending stamp order. -/
def Die.reelOrder (x : Die) : List ReelEntry :=
  ((x.reels.map Prod.snd).flatten).mergeSort fun a b => decide (a.stamp ≤ b.stamp)

/-- Replay reel entries: writes are performed again, responses wait for the reads that ask again (24 R352
step 4). A message about no memory has nothing to be performed. -/
def State.replayReel (s : State) (d : Nat) : List ReelEntry → State
  | [] => s
  | e :: r =>
    let s :=
      if e.msg.answers then s.updDie d fun x => { x with replayed := x.replayed ++ [(e.msg.addr, e.msg.bytes)] }
      else if s.populatedRange e.msg.addr (max e.msg.bytes.length 1) then s.writePhys e.msg.world e.msg.addr e.msg.bytes
      else s
    s.replayReel d r

/-- DIE_RECOVERY_COMPLETE (24 R352 steps 4 to 6): the reels are replayed, what the receivers had accepted is to be
discarded, the held messages are delivered, and the die goes on from the negative's generation. -/
def execDieRecoveryComplete (die : Nat) (s : State) : Host.Outcome State Fault Refusal :=
  match (s.die die).st with
  | .running => .fault (.notEnabled "DIE_RECOVERY_COMPLETE")
  | .recovering uid =>
    let x := s.die die
    let s := s.replayReel die x.reelOrder
    let s := s.updDie die fun x => { x with st := .running, discard := x.accepted, held := [] }
    let s := x.held.foldl State.deliverWrite s
    let gen := (x.negative.map fun n => n.snap.gen).getD 0
    let ms := ((s.launch? uid).map fun l => s.membersOn l die).getD []
    .next (s.releaseWaiters .package gen (ms.map Warp.ref))

end Sys2Proof.Machine
end

