-- ==== Sys2Proof/Machine/Bringup.lean ====
section
/-! DEFINITION. Power-on and reset (28 R386), the fused defect map and its printed form (R387 to R389), islands
(R390), receiver margining (R391), firmware and attestation (27 R385). -/

namespace Sys2Proof.Machine

/-! ### The defect map (28 R387, R388) -/

/-- A fence entry as (site, bank), when it is valid. -/
def fenceOf (e : Nat) : Option (Nat × Nat) := if bitAt e 15 then some (bits e 9 6, bits e 5 0) else none

/-- A compute-die record's fields. -/
def DieFuses.ofBits (v : Nat) : DieFuses where
  sites := BitVec.ofNat 13 (bits v 12 0)
  dstate := bits v 17 16
  loupe := bits v 31 28
  gdMap := BitVec.ofNat 8 (bits v 39 32)
  fences := (List.range 24).filterMap fun e => fenceOf (bits v (16 * e + 79) (16 * e + 64))

/-- A die that is absent. -/
def DieFuses.absent : DieFuses := ⟨0, 2, 15, 0, []⟩

/-- Bytes [a, a + n) of the map, zero where none are given. -/
def fuseBytes (f : List Byte) (a n : Nat) : List Byte := (List.range n).map fun k => f.getD (a + k) 0

/-- Whether the last two of n bytes are the CRC of those before them. -/
def crcOk (bs : List Byte) : Bool := decide (leNat (bs.drop (bs.length - 2)) = crc16 (bs.take (bs.length - 2)))

/-- The record of compute die d: absent when its CRC fails or DIEMASK lacks it. -/
def dieOfFuses (f : List Byte) (mask : BitVec 8) (d : Nat) : DieFuses :=
  let bs := fuseBytes f (32 + 64 * d) 64
  if crcOk bs && mask.getLsbD d then DieFuses.ofBits (leNat bs) else DieFuses.absent

/-- The map; none when the header's CRC fails. -/
def DefectMap.ofBytes (f : List Byte) : Option DefectMap :=
  let h := fuseBytes f 0 32
  let v := leNat h
  let mask := BitVec.ofNat 8 (bits v 47 40)
  if crcOk h then
    some {
      serial := BitVec.ofNat 64 (bits v 191 128)
      cxlMap := BitVec.ofNat 16 (bits v 127 112)
      peerMap := BitVec.ofNat 48 (bits v 111 64)
      lpdMap := BitVec.ofNat 16 (bits v 63 48)
      dieMask := mask
      dies := (List.range 8).map (dieOfFuses f mask) }
  else none

/-- An uppercase hex digit. -/
def hexDigit (n : Nat) : Char := "0123456789ABCDEF".toList.getD n '0'

/-- The hex pairs of bytes. -/
def hexPairs (bs : List Byte) : List Char := (bs.map fun b => [hexDigit (b.toNat / 16), hexDigit (b.toNat % 16)]).flatten

/-- A record in printed form (28 R389): groups of eight bytes with a dash between them. -/
def printRecord (bs : List Byte) : List Char :=
  List.intercalate ['-'] ((chunks 8 (bs.length / 8 + 1) bs).map hexPairs)

/-- The records of a fused map as they stand: the header, then the dies in ascending order (28 R387). -/
def fuseRecords (f : List Byte) : List (List Byte) :=
  fuseBytes f 0 32 :: (List.range 8).map fun d => fuseBytes f (32 + 64 * d) 64

/-- The fused map in printed form: its records' bytes with a slash between the records (28 R389). -/
def printedMap (f : List Byte) : List Char := List.intercalate ['/'] ((fuseRecords f).map printRecord)

/-! ### Bring-up (28 R386) -/

/-- A peer port is enabled: all four lanes are usable and its training has succeeded. -/
def DefectMap.portOk (m : DefectMap) (failed : BitVec 12) (p : Nat) : Bool :=
  decide (bits m.peerMap.toNat (4 * p + 3) (4 * p) = 15) && !failed.getLsbD p

/-- Steps 3 to 6 with a map: the device's SRAM is zeroed, present dies whose step 4 fails are fenced, the others
numbered. Device DRAM, whose key is gone, holds nothing that can be read (24 R343). -/
def State.train (s : State) (env : PowerEnv) (m : DefectMap) (firmware : BitVec 384) : State :=
  let good (d : Nat) : Bool := decide (((m.dies[d]?).map DieFuses.dstate).getD 2 = 0)
  let fenced := (List.range 8).filter fun d => good d && env.failedDies.getLsbD d
  let ports := (List.range 12).filterMap fun p => if m.portOk env.failedPorts p then none else some (p, Port.mk false 0)
  { State.reset with
    mem := s.mem.filter fun c => decide (hostBase ≤ c.1)
    x := { Exec.reset with dies := fenced.map fun d => (d, { Die.fresh with fenced := true }) }
    ctl := { Control.reset with
      firmware := firmware
      map := m
      fuses := s.ctl.fuses
      identity := s.ctl.identity
      numbered := BitVec.ofNat 8 (((List.range 8).map fun d => if good d && !env.failedDies.getLsbD d then 2 ^ d else 0).foldl (· + ·) 0)
      ports := ports
      worldKey := [(0, s.ctl.keys)]
      keys := s.ctl.keys + 1
      dataKeys := tput s.ctl.dataKeys s.ctl.keys env.key0
      key0 := env.key0 }
    agenda := s.agenda
    free := s.free + 1 }

/-- The map of a device that has read no fuses: nothing of it can be used. -/
def DefectMap.unread : DefectMap := ⟨0, 0, 0, 0, 0, []⟩

/-- A device that does not come up: it answers with retry status for ever. -/
def State.stuck (s : State) (firmware : BitVec 384) : State :=
  { State.reset with
    mem := s.mem.filter fun c => decide (hostBase ≤ c.1)
    ctl := { Control.reset with
      power := .stuck, firmware := firmware, map := DefectMap.unread, fuses := s.ctl.fuses, identity := s.ctl.identity
      numbered := 0, worldKey := [(0, s.ctl.keys)]
      keys := s.ctl.keys + 1 }
    agenda := s.agenda
    free := s.free + 1 }

/-- Steps 2 to 6. -/
def State.bringUp (s : State) (env : PowerEnv) (firmware : BitVec 384) : State :=
  match DefectMap.ofBytes s.ctl.fuses with
  | some m => s.train env m firmware
  | none => s.stuck firmware

/-- Both signatures over a SHA-384 digest verify (27 R385). -/
def bothVerify (digest : BitVec 384) (ed25519 mlDsa : Nat) : Bool := Config.ed25519Ok digest ed25519 && Config.mlDsaOk digest mlDsa

/-- A device identity certificate, or an attestation report by its bytes, is accepted (27 R385). -/
def Certificate.accepted (c : Certificate) : Bool := bothVerify (sha384 c.bytes) c.ed25519 c.mlDsa

/-- A firmware image is accepted (27 R385). -/
def firmwareOk (f : FirmwareImage) : Bool := bothVerify f.digest f.ed25519 f.mlDsa

/-- The fused bytes that an event's surroundings name are the device's: nothing writes the map in the field (28 R392). -/
def State.sameFuses (s : State) (env : PowerEnv) : Bool := decide (env.fuses = s.ctl.fuses)

/-- POWER_ON (28 R386). -/
def execPowerOn (env : PowerEnv) (s : State) : Host.Outcome State Fault Refusal :=
  if s.ctl.power ≠ .off ∨ s.sameFuses env = false then .fault (.notEnabled "POWER_ON")
  else if firmwareOk env.firmware then .next (s.bringUp env env.firmware.digest)
  else .next (s.stuck 0)

/-- PACKAGE_RESET (28 R386): steps 2 to 6 under the firmware already verified. -/
def execPackageReset (env : PowerEnv) (s : State) : Host.Outcome State Fault Refusal :=
  whenUp s "PACKAGE_RESET" <|
    if s.sameFuses env then .next (s.bringUp env s.ctl.firmware) else .fault (.notEnabled "PACKAGE_RESET")

/-- MODULE_POWER_REMOVAL (28 R386): every SRAM, fuse shadow, key and counter is lost. -/
def execModulePowerRemoval (s : State) : Host.Outcome State Fault Refusal :=
  .next { s.stuck 0 with ctl := { (s.stuck 0).ctl with power := .off } }

/-! ### Islands (28 R390) -/

/-- The nominal clock of an island in MHz (01 R14, R18). -/
def nominalMhz (i : Nat) : Nat :=
  if i = 25 then Config.ringMhz else if i = 24 then 1600 else if i % 3 = 1 then 1050 else 2100

/-- VOFF: its eight bits as a signed number. -/
def voltOffset (v : Nat) : Int := (BitVec.ofNat 8 (bits v 47 40)).toInt

/-- An island register write that is not refused. DESIGN CHOICE (notes/assumptions/47.md): a nonzero reserved bit refuses the
whole write, as a value out of range does. -/
def State.islandOk (s : State) (iface i v : Nat) : Bool :=
  let loupe := decide (i < 24) && decide (i % 3 = 1)
  let protected' := decide (i < 24) && decide ((s.die (i / 3)).world ≠ 0)
  decide (iface = 0) && decide (i ≤ 25) && decide (bits v 63 48 = 0) && decide (bits v 39 32 = 0) &&
  decide (bits v 15 12 = 0) && decide (-20 ≤ voltOffset v) && decide (voltOffset v ≤ 20) &&
  (loupe || decide (bits v 11 0 ≤ nominalMhz i)) && !(protected' && decide (voltOffset v ≠ 0))

/-- The loupe clocks of a die up to now are counted at the rate that ends now (01 R14). -/
def State.loupeMark (s : State) (d : Nat) : State :=
  let n := s.loupeClk d
  s.updCtl fun c => { c with loupeBase := tput c.loupeBase d (s.time, n) }

/-- ISLAND_REGISTER_WRITE: a loupe island keeps its FMHZ, and follows that of its die's ordinary clusters (01 R14). -/
def execIslandRegisterWrite (iface i : Nat) (v : DWord) (s : State) : Host.Outcome State Fault Refusal :=
  whenUp s "ISLAND_REGISTER_WRITE" <| .next (
    if s.islandOk iface i v.toNat then
      let v := if i < 24 ∧ i % 3 = 1 then BitVec.ofNat 64 (v.toNat / 4096 * 4096) else v
      let s := if i < 24 ∧ i % 3 = 0 then s.loupeMark (i / 3) else s
      s.updCtl fun c => { c with islands := tput c.islands i v }
    else s)

/-! ### Receiver margining (28 R391) -/

/-- The fields of the margin register that a run is asked with. -/
def marginClass (v : Nat) : Nat := bits v 3 0
def marginLink (v : Nat) : Nat := bits v 7 4
def marginLane (v : Nat) : Nat := bits v 15 8

/-- Whether a GO has no reserved value: the links and lanes of 01 R17 (notes/assumptions/21.md). -/
def marginLegal (v : Nat) : Bool :=
  decide (bits v 21 16 = 0) && inLimits (bits v 31 24) 1 127 1 &&
  (match marginClass v with
    | 0 => decide (marginLink v = 0) && decide (marginLane v < 16)
    | 1 => decide (marginLink v < 12) && decide (marginLane v < 4)
    | 2 => decide (marginLink v < 8)
    | 3 => decide (marginLane v < 96)
    | _ => false)

/-- A lane that the defect map or bring-up has fenced. -/
def State.marginFenced (s : State) (v : Nat) : Bool :=
  let k := marginLink v
  let n := marginLane v
  match marginClass v with
  | 0 => !s.ctl.map.cxlMap.getLsbD n
  | 1 => !s.ctl.map.peerMap.getLsbD (4 * k + n)
  | 2 => !s.dieInUse k || !((s.ctl.map.dies[k]?.map DieFuses.gdMap).getD 0).getLsbD (n / 32)
  | _ => !s.ctl.map.lpdMap.getLsbD k

/-- A link of a protected world's die: its GDDR-7. -/
def State.marginProtected (s : State) (v : Nat) : Bool :=
  decide (marginClass v = 2) && decide ((s.die (marginLink v)).world ≠ 0)

/-- The unit whose memory holds the page that an interface's translation of a VA leads to now: a die, or 8. -/
def State.pageOwner (s : State) (i : Mmu) (world va : Nat) : Option Nat :=
  match s.walk i world va with
  | .leaf e big => some (s.ownerOf (s.leafAddr i e big va))
  | _ => none

/-- A launch uses the memory of a unit: its code comes from the code store, in LPDDR-6 (04 R62), and it has a block on the
die, or a die that it has a block on has translated a page of it. -/
def State.launchUses (s : State) (l : Launch) (u : Nat) : Bool :=
  decide (l.stage = .running) &&
  (decide (u = 8) || (s.blocksOf l.uid).any fun b => decide (b.die = u) || (s.die b.die).tlb.any fun e =>
    decide (e.iface = l.iface) && decide (s.ownerOf (s.physOf (s.mmu l.iface) (entryPa e.leaf.toNat)) = u))

/-- A chain uses the memory of a unit: a pending step reads its input there or writes its output there. -/
def State.chainUses (s : State) (c : Chain) (u : Nat) : Bool :=
  (s.chainOps c.id).any fun o =>
    match o.work, s.launch? o.ref.launch with
    | .step _ w, some l =>
      (decide (w.stStep = 0) && decide (s.pageOwner o.mmu l.record.world w.src = some u)) ||
      (w.stLast && decide (s.pageOwner o.mmu l.record.world w.dst = some u))
    | _, _ => false

/-- A negative that is being written uses the memory of the die that holds it. -/
def State.negativeUses (s : State) (u : Nat) : Bool :=
  s.x.launches.any fun l => l.negWait && (s.launchDies l.uid).any fun d => decide (s.negativeHost d = some u)

/-- A chain, launch or negative uses the link: chains the ports of their routes; all of them the memories that they reach.
CXL margins under traffic. LPDDR-6 has its channels interleaved, and is one unit here (notes/assumptions/21.md). -/
def State.marginBusy (s : State) (v : Nat) : Bool :=
  let memory (u : Nat) : Bool := (s.x.launches.any fun l => s.launchUses l u) ||
    (s.ctl.chains.any fun c => s.chainUses c u) || s.negativeUses u
  match marginClass v with
  | 0 => false
  | 1 => s.ctl.chains.any fun c => s.chainOpen c &&
      (s.groupOf c.iface c.group).any fun g => g.routes.any fun r => decide (r.1 = marginLink v)
  | 2 => memory (marginLink v)
  | _ => memory 8

/-- The margin register after a GO that has ended or begun; its reserved bits read zero (00 R4). -/
def marginWord (v done res errs : Nat) : DWord :=
  BitVec.ofNat 64 (bits v 31 22 * 2 ^ 22 + bits v 15 0 + min errs (2 ^ 28 - 1) * 2 ^ 32 + res * 2 ^ 60 + done * 2 ^ 62)

/-- MARGIN_GO: a write to the margin register. -/
def execMarginGo (iface : Nat) (v : DWord) (s : State) : Host.Outcome State Fault Refusal :=
  whenUp s "MARGIN_GO" <| .next (
    let x := v.toNat
    if iface ≠ 0 ∨ s.ctl.marginBusy ∨ v.getLsbD 63 = false then s
    else if marginLegal x = false ∨ s.marginFenced x ∨ s.marginProtected x then
      s.updCtl fun c => { c with margin := marginWord x 1 2 0 }
    else if s.marginBusy x then s.updCtl fun c => { c with margin := marginWord x 1 3 0 }
    else s.updCtl fun c => { c with margin := marginWord x 0 0 0, marginBusy := true })

/-- MARGIN_DONE: the run ends with its result. -/
def execMarginDone (fail : Bool) (errs : Nat) (s : State) : Host.Outcome State Fault Refusal :=
  if s.ctl.marginBusy then
    .next (s.updCtl fun c => { c with margin := marginWord c.margin.toNat 1 (b2n fail) errs, marginBusy := false })
  else .fault (.notEnabled "MARGIN_DONE")

/-! ### Firmware and attestation (27 R385) -/

/-- MEASUREMENTS: firmware digest, the fused defect map as it stands and fuse configuration under the requester's nonce, with
both signatures. -/
def execMeasurements (iface : Nat) (nonce : BitVec 256) (s : State) : Host.Outcome State Fault Refusal :=
  whenUp s "MEASUREMENTS" <| .next (
    if (s.iface iface).enabled then
      let digest := sha384 (leBytes 32 nonce.toNat ++ leBytes 48 s.ctl.firmware.toNat ++ s.ctl.fuses ++ Config.fuseConfig)
      s.updCtl fun c =>
        { c with reports := c.reports ++
          [⟨iface, nonce, c.firmware, c.fuses, Config.fuseConfig, Config.signEd25519 digest, Config.signMlDsa digest⟩] }
    else s)

/-- FIRMWARE_UPDATE: accepted only when both signatures verify. -/
def execFirmwareUpdate (image : FirmwareImage) (s : State) : Host.Outcome State Fault Refusal :=
  whenUp s "FIRMWARE_UPDATE" <| .next (
    if firmwareOk image then s.updCtl fun c => { c with firmware := image.digest } else s)

end Sys2Proof.Machine
end

