-- ==== Sys2Proof/Machine/Packed.lean ====
section
/-! DEFINITION. Packed dot products, ternary decode and conversions (06 R117 to R121). -/

namespace Sys2Proof.Machine

/-! ### Integer dot products (06 R117) -/

/-- Sum of products of elements read as signed or unsigned. -/
def dotInt (w : Nat) (sx sy : Bool) (x y : Word) : Int :=
  (List.zipWith (fun a b => asInt a w sx * asInt b w sy) (elemsOf x.toNat w) (elemsOf y.toNat w)).foldl (· + ·) 0

/-- An integer dot product into the S32 accumulator vD. -/
def dotOp (s : State) (m : Bool) (d a : Field) (b : Src) (ok : Nat → Bool) (w : Nat) (sx sy : Nat → Bool) :
    Host.Outcome State Fault Refusal :=
  laneWord s (.vvv m true d a b) (fun c => ok c.etype) d fun c l =>
    c.v d.toNat l + BitVec.ofInt 32 (dotInt w (sx c.etype) (sy c.etype) (c.v a.toNat l) (c.vb b l))

/-- VDOT4 (06 R117): S8 or N8. -/
def execVdot4 (m : Bool) (d a : Field) (b : Src) (s : State) : Host.Outcome State Fault Refusal :=
  dotOp s m d a b (fun t => decide (t = 4) || decide (t = 5)) 8 isSigned isSigned

/-- VDOT4M (06 R117): S8, x signed, y unsigned. -/
def execVdot4m (m : Bool) (d a : Field) (b : Src) (s : State) : Host.Outcome State Fault Refusal :=
  dotOp s m d a b (fun t => decide (t = 4)) 8 (fun _ => true) fun _ => false

/-- VDOT8 (06 R117): S4. -/
def execVdot8 (m : Bool) (d a : Field) (b : Src) (s : State) : Host.Outcome State Fault Refusal :=
  dotOp s m d a b (fun t => decide (t = 14)) 4 (fun _ => true) fun _ => true

/-! ### Floating-point dot products (06 R118) -/

/-- The exact sum of the accumulator and the products, with the status of its special cases: NV also for
infinities of opposite sign in the sum beside a NaN. -/
def dotFp (rnd : Nat) (acc : FVal) (xs ys : List FVal) : Res :=
  let ps := List.zipWith mulVal xs ys
  let ts := acc :: ps.map Prod.fst
  let (e, f) := sumVals rnd ts
  let g := if anyInf true ts && anyInf false ts then stNV else 0
  (e, ps.foldl (fun a p => a ||| p.2) (f ||| g ||| snanFlag (acc :: (xs ++ ys))))

/-- A floating-point dot product into the F32 accumulator vD, rounded once. -/
def fdotOp (s : State) (m : Bool) (d a : Field) (b : Src) (ok : Nat → Bool) : Host.Outcome State Fault Refusal :=
  laneOp s (.vvv m true d a b) (fun c => ok c.etype) d.toNat fun c l =>
    let r := dotFp c.rnd (f32Val (c.v d.toNat l)) (fpElems c (c.v a.toNat l)) (fpElems c (c.vb b l))
    let (x, f) := roundF f32 c.rnd false r.1
    let st := f ||| r.2
    if modeTrapNv c.p.mode ∧ hasBit st stNV then .fault .invalidOp 0 0 else .ok [BitVec.ofNat 32 x] st

/-- VFDOT4 (06 R118): E4M3, E5M2, E3M2 or E2M3. -/
def execVfdot4 (m : Bool) (d a : Field) (b : Src) (s : State) : Host.Outcome State Fault Refusal :=
  fdotOp s m d a b fun t => decide (9 ≤ t) && decide (t ≤ 12)

/-- VFDOT8 (06 R118): E2M1. -/
def execVfdot8 (m : Bool) (d a : Field) (b : Src) (s : State) : Host.Outcome State Fault Refusal :=
  fdotOp s m d a b fun t => decide (t = 13)

/-! ### Ternary decode (06 R119) -/

/-- VUNP5 (06 R119): byte k of each Active lane as five S8 trits in vD, vD+1. -/
def execVunp5 (m : Bool) (d a : Field) (lit : Word) (s : State) : Host.Outcome State Fault Refusal :=
  laneOp s ⟨m, 8, [d.toNat, d.toNat + 1, a.toNat], [a.toNat]⟩ anyType d.toNat fun c l =>
    let (ts, ok) := trits (elemAt (c.v a.toNat l).toNat 8 lit.toNat)
    let bytes := ts.map (wrapN 8)
    if modeTrapNv c.p.mode ∧ !ok then .fault .invalidOp 0 0
    else .ok [BitVec.ofNat 32 (packElems 8 (bytes.take 4)), BitVec.ofNat 32 (packElems 8 (bytes.drop 4))]
      (if ok then 0 else stNV)

/-! ### Conversions (06 R120, R121) -/

/-- Target type and part of a conversion's literal (06 R120). -/
def cvtType (lit : Word) : Nat := bits lit.toNat 3 0
def cvtPart (lit : Word) : Nat := bits lit.toNat 6 4

/-- A floating-point type. -/
def isFloat (t : Nat) : Bool := (floatFmt t).isSome

/-- Both floating-point, or both integer. -/
def sameClass (a b : Nat) : Bool := (isFloat a && isFloat b) || (isIntType a && isIntType b)

/-- The part index is in range (06 R120): at equal widths it is 0. -/
def partOk (src dst p : Nat) : Bool :=
  if elemWidth src ≤ elemWidth dst then decide (p < elemWidth dst / elemWidth src)
  else decide (p < elemWidth src / elemWidth dst)

/-- The elements and status of a conversion: source elements that go to the target word. -/
def cvtElems (c : Ctx) (t : Nat) (xs : List Nat) : List (Nat × Nat) :=
  xs.map fun x => roundTo t c.rnd c.sat (elemExact c.etype x)

/-- The converted word (06 R120): widening takes the part's source elements; narrowing fills the part of
the old word. -/
def cvtWord (c : Ctx) (t p : Nat) (x old : Word) : Word × Nat :=
  let ws := elemWidth c.etype
  let wt := elemWidth t
  let src := elemsOf x.toNat ws
  if ws ≤ wt then
    let n := 32 / wt
    packRes wt (cvtElems c t ((src.drop (p * n)).take n))
  else
    let n := 32 / ws
    let rs := cvtElems c t src
    let keep := elemsOf old.toNat wt
    packRes wt ((keep.take (p * n)).map (fun e => (e, 0)) ++ rs ++ (keep.drop (p * n + n)).map fun e => (e, 0))

/-- A conversion: ok judges the pair of types (06 R121); T5 is in no class. -/
def cvtOp (s : State) (m : Bool) (d a : Field) (lit : Word) (ok : Nat → Nat → Bool) :
    Host.Outcome State Fault Refusal :=
  laneOpWith s (.vvl m false d a)
    (fun c => if elemWidth c.etype ≤ elemWidth (cvtType lit) then [] else [d.toNat])
    (fun c => ok c.etype (cvtType lit) && partOk c.etype (cvtType lit) (cvtPart lit)) d.toNat fun c l =>
    let r := cvtWord c (cvtType lit) (cvtPart lit) (c.v a.toNat l)
      (if elemWidth c.etype ≤ elemWidth (cvtType lit) then 0 else c.v d.toNat l)
    if modeTrapNv c.p.mode ∧ hasBit r.2 stNV then .fault .invalidOp 0 0 else .ok [r.1] r.2

/-- VCVTW (06 R121): widening within a class. -/
def execVcvtw (m : Bool) (d a : Field) (lit : Word) (s : State) : Host.Outcome State Fault Refusal :=
  cvtOp s m d a lit fun x t => sameClass x t && decide (elemWidth x ≤ elemWidth t)

/-- VCVTN (06 R121): narrowing within a class; equal widths are placed as widening does. -/
def execVcvtn (m : Bool) (d a : Field) (lit : Word) (s : State) : Host.Outcome State Fault Refusal :=
  cvtOp s m d a lit fun x t => sameClass x t && decide (elemWidth t ≤ elemWidth x)

/-- VCVTFI (06 R121): floating-point to integer. -/
def execVcvtfi (m : Bool) (d a : Field) (lit : Word) (s : State) : Host.Outcome State Fault Refusal :=
  cvtOp s m d a lit fun x t => isFloat x && isIntType t

/-- VCVTIF (06 R121): integer to floating-point. -/
def execVcvtif (m : Bool) (d a : Field) (lit : Word) (s : State) : Host.Outcome State Fault Refusal :=
  cvtOp s m d a lit fun x t => isIntType x && isFloat t

end Sys2Proof.Machine
end

