-- ==== Sys2Proof/Machine/Dispatch.lean ====
section
/-! DEFINITION. One arm for each constructor of `Instr`: a direct call of its meaning. -/

namespace Sys2Proof.Machine

/-- What an instruction or event does to the device. -/
def exec (i : Instr) (s : State) : Host.Outcome State Fault Refusal :=
  match i with
  | .sadd m d a b => Sys2Proof.Machine.execSadd m d a b s
  | .ssub m d a b => Sys2Proof.Machine.execSsub m d a b s
  | .smul m d a b => Sys2Proof.Machine.execSmul m d a b s
  | .smulh m d a b => Sys2Proof.Machine.execSmulh m d a b s
  | .smulhn m d a b => Sys2Proof.Machine.execSmulhn m d a b s
  | .sdiv m d a b => Sys2Proof.Machine.execSdiv m d a b s
  | .sdivn m d a b => Sys2Proof.Machine.execSdivn m d a b s
  | .srem m d a b => Sys2Proof.Machine.execSrem m d a b s
  | .sremn m d a b => Sys2Proof.Machine.execSremn m d a b s
  | .sand m d a b => Sys2Proof.Machine.execSand m d a b s
  | .sor m d a b => Sys2Proof.Machine.execSor m d a b s
  | .sxor m d a b => Sys2Proof.Machine.execSxor m d a b s
  | .sandn m d a b => Sys2Proof.Machine.execSandn m d a b s
  | .sshl m d a b => Sys2Proof.Machine.execSshl m d a b s
  | .sshr m d a b => Sys2Proof.Machine.execSshr m d a b s
  | .ssra m d a b => Sys2Proof.Machine.execSsra m d a b s
  | .smin m d a b => Sys2Proof.Machine.execSmin m d a b s
  | .smax m d a b => Sys2Proof.Machine.execSmax m d a b s
  | .sminn m d a b => Sys2Proof.Machine.execSminn m d a b s
  | .smaxn m d a b => Sys2Proof.Machine.execSmaxn m d a b s
  | .spopc m d a => Sys2Proof.Machine.execSpopc m d a s
  | .sclz m d a => Sys2Proof.Machine.execSclz m d a s
  | .sbrev m d a => Sys2Proof.Machine.execSbrev m d a s
  | .sbfx m d a b => Sys2Proof.Machine.execSbfx m d a b s
  | .sbfi m d a b => Sys2Proof.Machine.execSbfi m d a b s
  | .sceq m d a b => Sys2Proof.Machine.execSceq m d a b s
  | .scne m d a b => Sys2Proof.Machine.execScne m d a b s
  | .sclt m d a b => Sys2Proof.Machine.execSclt m d a b s
  | .scle m d a b => Sys2Proof.Machine.execScle m d a b s
  | .scltn m d a b => Sys2Proof.Machine.execScltn m d a b s
  | .sclen m d a b => Sys2Proof.Machine.execSclen m d a b s
  | .nop m => Sys2Proof.Machine.execNop m s
  | .bra m lit => Sys2Proof.Machine.execBra m lit s
  | .bz m a lit => Sys2Proof.Machine.execBz m a lit s
  | .bnz m a lit => Sys2Proof.Machine.execBnz m a lit s
  | .brd m d a lit => Sys2Proof.Machine.execBrd m d a lit s
  | .join m a => Sys2Proof.Machine.execJoin m a s
  | .call m d lit => Sys2Proof.Machine.execCall m d lit s
  | .ret m a => Sys2Proof.Machine.execRet m a s
  | .brx m a => Sys2Proof.Machine.execBrx m a s
  | .loop m d lit => Sys2Proof.Machine.execLoop m d lit s
  | .exit m => Sys2Proof.Machine.execExit m s
  | .setmode m b => Sys2Proof.Machine.execSetmode m b s
  | .getmode m d => Sys2Proof.Machine.execGetmode m d s
  | .setix m b => Sys2Proof.Machine.execSetix m b s
  | .waitf m d a lit => Sys2Proof.Machine.execWaitf m d a lit s
  | .yield m => Sys2Proof.Machine.execYield m s
  | .smov m d b => Sys2Proof.Machine.execSmov m d b s
  | .ssel m d a b => Sys2Proof.Machine.execSsel m d a b s
  | .sffs m d a => Sys2Proof.Machine.execSffs m d a s
  | .vadd m d a b => Sys2Proof.Machine.execVadd m d a b s
  | .vsub m d a b => Sys2Proof.Machine.execVsub m d a b s
  | .vmul m d a b => Sys2Proof.Machine.execVmul m d a b s
  | .vmulh m d a b => Sys2Proof.Machine.execVmulh m d a b s
  | .vmulhn m d a b => Sys2Proof.Machine.execVmulhn m d a b s
  | .vmad m d a b => Sys2Proof.Machine.execVmad m d a b s
  | .vdiv m d a b => Sys2Proof.Machine.execVdiv m d a b s
  | .vdivn m d a b => Sys2Proof.Machine.execVdivn m d a b s
  | .vrem m d a b => Sys2Proof.Machine.execVrem m d a b s
  | .vremn m d a b => Sys2Proof.Machine.execVremn m d a b s
  | .vand m d a b => Sys2Proof.Machine.execVand m d a b s
  | .vor m d a b => Sys2Proof.Machine.execVor m d a b s
  | .vxor m d a b => Sys2Proof.Machine.execVxor m d a b s
  | .vandn m d a b => Sys2Proof.Machine.execVandn m d a b s
  | .vshl m d a b => Sys2Proof.Machine.execVshl m d a b s
  | .vshr m d a b => Sys2Proof.Machine.execVshr m d a b s
  | .vsra m d a b => Sys2Proof.Machine.execVsra m d a b s
  | .vmin m d a b => Sys2Proof.Machine.execVmin m d a b s
  | .vmax m d a b => Sys2Proof.Machine.execVmax m d a b s
  | .vminn m d a b => Sys2Proof.Machine.execVminn m d a b s
  | .vmaxn m d a b => Sys2Proof.Machine.execVmaxn m d a b s
  | .vabs m d a => Sys2Proof.Machine.execVabs m d a s
  | .vneg m d a => Sys2Proof.Machine.execVneg m d a s
  | .vpopc m d a => Sys2Proof.Machine.execVpopc m d a s
  | .vclz m d a => Sys2Proof.Machine.execVclz m d a s
  | .vbrev m d a => Sys2Proof.Machine.execVbrev m d a s
  | .vbfx m d a b => Sys2Proof.Machine.execVbfx m d a b s
  | .vbfi m d a b => Sys2Proof.Machine.execVbfi m d a b s
  | .vmov m d b => Sys2Proof.Machine.execVmov m d b s
  | .vsplat m d a => Sys2Proof.Machine.execVsplat m d a s
  | .vget m d a => Sys2Proof.Machine.execVget m d a s
  | .vceq m d a b => Sys2Proof.Machine.execVceq m d a b s
  | .vcne m d a b => Sys2Proof.Machine.execVcne m d a b s
  | .vclt m d a b => Sys2Proof.Machine.execVclt m d a b s
  | .vcle m d a b => Sys2Proof.Machine.execVcle m d a b s
  | .vgetst m d => Sys2Proof.Machine.execVgetst m d s
  | .vclrst m b => Sys2Proof.Machine.execVclrst m b s
  | .vfadd m d a b => Sys2Proof.Machine.execVfadd m d a b s
  | .vfsub m d a b => Sys2Proof.Machine.execVfsub m d a b s
  | .vfmul m d a b => Sys2Proof.Machine.execVfmul m d a b s
  | .vfma m d a b => Sys2Proof.Machine.execVfma m d a b s
  | .vfms m d a b => Sys2Proof.Machine.execVfms m d a b s
  | .vfnma m d a b => Sys2Proof.Machine.execVfnma m d a b s
  | .vfmin m d a b => Sys2Proof.Machine.execVfmin m d a b s
  | .vfmax m d a b => Sys2Proof.Machine.execVfmax m d a b s
  | .vfabs m d a => Sys2Proof.Machine.execVfabs m d a s
  | .vfneg m d a => Sys2Proof.Machine.execVfneg m d a s
  | .vfcpsgn m d a b => Sys2Proof.Machine.execVfcpsgn m d a b s
  | .vfceq m d a b => Sys2Proof.Machine.execVfceq m d a b s
  | .vfclt m d a b => Sys2Proof.Machine.execVfclt m d a b s
  | .vfcle m d a b => Sys2Proof.Machine.execVfcle m d a b s
  | .vfcun m d a b => Sys2Proof.Machine.execVfcun m d a b s
  | .vfclass m d a => Sys2Proof.Machine.execVfclass m d a s
  | .vfdiv m d a b => Sys2Proof.Machine.execVfdiv m d a b s
  | .vfsqrt m d a => Sys2Proof.Machine.execVfsqrt m d a s
  | .vfrint m d a => Sys2Proof.Machine.execVfrint m d a s
  | .vfrcp m d a => Sys2Proof.Machine.execVfrcp m d a s
  | .vfrsq m d a => Sys2Proof.Machine.execVfrsq m d a s
  | .vfexp2 m d a => Sys2Proof.Machine.execVfexp2 m d a s
  | .vflog2 m d a => Sys2Proof.Machine.execVflog2 m d a s
  | .vfsinpi m d a => Sys2Proof.Machine.execVfsinpi m d a s
  | .vfcospi m d a => Sys2Proof.Machine.execVfcospi m d a s
  | .vftanh m d a => Sys2Proof.Machine.execVftanh m d a s
  | .vdot4 m d a b => Sys2Proof.Machine.execVdot4 m d a b s
  | .vdot4m m d a b => Sys2Proof.Machine.execVdot4m m d a b s
  | .vdot8 m d a b => Sys2Proof.Machine.execVdot8 m d a b s
  | .vfdot4 m d a b => Sys2Proof.Machine.execVfdot4 m d a b s
  | .vfdot8 m d a b => Sys2Proof.Machine.execVfdot8 m d a b s
  | .vunp5 m d a lit => Sys2Proof.Machine.execVunp5 m d a lit s
  | .vcvtw m d a lit => Sys2Proof.Machine.execVcvtw m d a lit s
  | .vcvtn m d a lit => Sys2Proof.Machine.execVcvtn m d a lit s
  | .vcvtfi m d a lit => Sys2Proof.Machine.execVcvtfi m d a lit s
  | .vcvtif m d a lit => Sys2Proof.Machine.execVcvtif m d a lit s
  | .vshup m d a b => Sys2Proof.Machine.execVshup m d a b s
  | .vshdn m d a b => Sys2Proof.Machine.execVshdn m d a b s
  | .vshxor m d a b => Sys2Proof.Machine.execVshxor m d a b s
  | .vshidx m d a b => Sys2Proof.Machine.execVshidx m d a b s
  | .vqswap m d a b => Sys2Proof.Machine.execVqswap m d a b s
  | .vred m d a lit => Sys2Proof.Machine.execVred m d a lit s
  | .vscan m d a lit => Sys2Proof.Machine.execVscan m d a lit s
  | .vreadl m d a b => Sys2Proof.Machine.execVreadl m d a b s
  | .vwritel m d a b => Sys2Proof.Machine.execVwritel m d a b s
  | .vvote m d a lit => Sys2Proof.Machine.execVvote m d a lit s
  | .vmatch m d a => Sys2Proof.Machine.execVmatch m d a s
  | .vmovx m d a => Sys2Proof.Machine.execVmovx m d a s
  | .vmovxw m d a => Sys2Proof.Machine.execVmovxw m d a s
  | .bar m d => Sys2Proof.Machine.execBar m d s
  | .bara m d => Sys2Proof.Machine.execBara m d s
  | .barw m d => Sys2Proof.Machine.execBarw m d s
  | .barc m => Sys2Proof.Machine.execBarc m s
  | .barp m => Sys2Proof.Machine.execBarp m s
  | .ld8 m d a b => Sys2Proof.Machine.execLd8 m d a b s
  | .ld8s m d a b => Sys2Proof.Machine.execLd8s m d a b s
  | .ld16 m d a b => Sys2Proof.Machine.execLd16 m d a b s
  | .ld16s m d a b => Sys2Proof.Machine.execLd16s m d a b s
  | .ld32 m d a b => Sys2Proof.Machine.execLd32 m d a b s
  | .ld64 m d a b => Sys2Proof.Machine.execLd64 m d a b s
  | .ld128 m d a b => Sys2Proof.Machine.execLd128 m d a b s
  | .st8 m d a b => Sys2Proof.Machine.execSt8 m d a b s
  | .st16 m d a b => Sys2Proof.Machine.execSt16 m d a b s
  | .st32 m d a b => Sys2Proof.Machine.execSt32 m d a b s
  | .st64 m d a b => Sys2Proof.Machine.execSt64 m d a b s
  | .st128 m d a b => Sys2Proof.Machine.execSt128 m d a b s
  | .sld32 m d a b => Sys2Proof.Machine.execSld32 m d a b s
  | .sld64 m d a b => Sys2Proof.Machine.execSld64 m d a b s
  | .sst32 m d a b => Sys2Proof.Machine.execSst32 m d a b s
  | .sst64 m d a b => Sys2Proof.Machine.execSst64 m d a b s
  | .vspill m a => Sys2Proof.Machine.execVspill m a s
  | .vfill m d => Sys2Proof.Machine.execVfill m d s
  | .ldacq32 m d a b => Sys2Proof.Machine.execLdacq32 m d a b s
  | .strel32 m d a b => Sys2Proof.Machine.execStrel32 m d a b s
  | .aadd m d a b => Sys2Proof.Machine.execAadd m d a b s
  | .aand m d a b => Sys2Proof.Machine.execAand m d a b s
  | .aor m d a b => Sys2Proof.Machine.execAor m d a b s
  | .axor m d a b => Sys2Proof.Machine.execAxor m d a b s
  | .amin m d a b => Sys2Proof.Machine.execAmin m d a b s
  | .amax m d a b => Sys2Proof.Machine.execAmax m d a b s
  | .aminn m d a b => Sys2Proof.Machine.execAminn m d a b s
  | .amaxn m d a b => Sys2Proof.Machine.execAmaxn m d a b s
  | .aexch m d a b => Sys2Proof.Machine.execAexch m d a b s
  | .acas m d a b => Sys2Proof.Machine.execAcas m d a b s
  | .afadd m d a b => Sys2Proof.Machine.execAfadd m d a b s
  | .afmin m d a b => Sys2Proof.Machine.execAfmin m d a b s
  | .afmax m d a b => Sys2Proof.Machine.execAfmax m d a b s
  | .redadd m a b => Sys2Proof.Machine.execRedadd m a b s
  | .redand m a b => Sys2Proof.Machine.execRedand m a b s
  | .redor m a b => Sys2Proof.Machine.execRedor m a b s
  | .redxor m a b => Sys2Proof.Machine.execRedxor m a b s
  | .redmin m a b => Sys2Proof.Machine.execRedmin m a b s
  | .redmax m a b => Sys2Proof.Machine.execRedmax m a b s
  | .redfadd m a b => Sys2Proof.Machine.execRedfadd m a b s
  | .fence m => Sys2Proof.Machine.execFence m s
  | .publish m b => Sys2Proof.Machine.execPublish m b s
  | .ecw m d a => Sys2Proof.Machine.execEcw m d a s
  | .ego m d => Sys2Proof.Machine.execEgo m d s
  | .bclose m d => Sys2Proof.Machine.execBclose m d s
  | .waitb m b => Sys2Proof.Machine.execWaitb m b s
  | .bpoll m d b => Sys2Proof.Machine.execBpoll m d b s
  | .mloadb m d a => Sys2Proof.Machine.execMloadb m d a s
  | .mma m acc adesc fslot shape fvec => Sys2Proof.Machine.execMma m acc adesc fslot shape fvec s
  | .mdrain m d a b => Sys2Proof.Machine.execMdrain m d a b s
  | .mzero m d => Sys2Proof.Machine.execMzero m d s
  | .spinit m a => Sys2Proof.Machine.execSpinit m a s
  | .unite m d a b => Sys2Proof.Machine.execUnite m d a b s
  | .find m d a => Sys2Proof.Machine.execFind m d a s
  | .csize m d a => Sys2Proof.Machine.execCsize m d a s
  | .relab m a => Sys2Proof.Machine.execRelab m a s
  | .snap m d => Sys2Proof.Machine.execSnap m d s
  | .undo m b => Sys2Proof.Machine.execUndo m b s
  | .trap m b => Sys2Proof.Machine.execTrap m b s
  | .resume m d a => Sys2Proof.Machine.execResume m d a s
  | .loupe m => Sys2Proof.Machine.execLoupe m s
  | .prgn m d => Sys2Proof.Machine.execPrgn m d s
  | .prgx m => Sys2Proof.Machine.execPrgx m s
  | .sget m d a => Sys2Proof.Machine.execSget m d a s
  | .sset m d b => Sys2Proof.Machine.execSset m d b s
  | .dbgbrk m => Sys2Proof.Machine.execDbgbrk m s
  | .selftest m d b => Sys2Proof.Machine.execSelftest m d b s
  | .framend m => Sys2Proof.Machine.execFramend m s
  | .writeLanding w slot k => Sys2Proof.Machine.execWriteLanding w slot k s
  | .pathStarvation w slot => Sys2Proof.Machine.execPathStarvation w slot s
  | .fenceComplete w slot => Sys2Proof.Machine.execFenceComplete w slot s
  | .waitfWake w slot => Sys2Proof.Machine.execWaitfWake w slot s
  | .waitfTimeout w slot => Sys2Proof.Machine.execWaitfTimeout w slot s
  | .yieldExpiry w slot => Sys2Proof.Machine.execYieldExpiry w slot s
  | .publishComplete w slot => Sys2Proof.Machine.execPublishComplete w slot s
  | .frameCommit launch block => Sys2Proof.Machine.execFrameCommit launch block s
  | .batchCompletion w => Sys2Proof.Machine.execBatchCompletion w s
  | .copyEngineCompletion op => Sys2Proof.Machine.execCopyEngineCompletion op s
  | .mainMemoryAtomicCompletion op => Sys2Proof.Machine.execMainMemoryAtomicCompletion op s
  | .stationaryLoadCompletion op => Sys2Proof.Machine.execStationaryLoadCompletion op s
  | .mrtGrant die site => Sys2Proof.Machine.execMrtGrant die site s
  | .passCompletion die site pass => Sys2Proof.Machine.execPassCompletion die site pass s
  | .filterEntryRead op => Sys2Proof.Machine.execFilterEntryRead op s
  | .filterSliceArrival op row k => Sys2Proof.Machine.execFilterSliceArrival op row k s
  | .stripOperationCompletion op => Sys2Proof.Machine.execStripOperationCompletion op s
  | .bankPeriodicCheck die site wrong => Sys2Proof.Machine.execBankPeriodicCheck die site wrong s
  | .spliceApply req => Sys2Proof.Machine.execSpliceApply req s
  | .spinitInitCompletion op => Sys2Proof.Machine.execSpinitInitCompletion op s
  | .relabCompletion op => Sys2Proof.Machine.execRelabCompletion op s
  | .collectiveStepCompletion op => Sys2Proof.Machine.execCollectiveStepCompletion op s
  | .segmentArrival seg => Sys2Proof.Machine.execSegmentArrival seg s
  | .segmentDiscard k => Sys2Proof.Machine.execSegmentDiscard k s
  | .collectiveTimeout op => Sys2Proof.Machine.execCollectiveTimeout op s
  | .flitArrival port flit => Sys2Proof.Machine.execFlitArrival port flit s
  | .diePortMessage msg => Sys2Proof.Machine.execDiePortMessage msg s
  | .transferComplete w => Sys2Proof.Machine.execTransferComplete w s
  | .stallWatchdog w => Sys2Proof.Machine.execStallWatchdog w s
  | .predicateStart die => Sys2Proof.Machine.execPredicateStart die s
  | .predicateReturn die a0 stores => Sys2Proof.Machine.execPredicateReturn die a0 stores s
  | .predicateOverrun die stores => Sys2Proof.Machine.execPredicateOverrun die stores s
  | .logDoorbell die stores => Sys2Proof.Machine.execLogDoorbell die stores s
  | .preemption launch unit rate => Sys2Proof.Machine.execPreemption launch unit rate s
  | .drainLimitExpiry launch block => Sys2Proof.Machine.execDrainLimitExpiry launch block s
  | .saveComplete launch unit => Sys2Proof.Machine.execSaveComplete launch unit s
  | .restore launch unit sites => Sys2Proof.Machine.execRestore launch unit sites s
  | .negativeComplete launch => Sys2Proof.Machine.execNegativeComplete launch s
  | .fatalDieError die resetOk => Sys2Proof.Machine.execFatalDieError die resetOk s
  | .dieRecoveryComplete die => Sys2Proof.Machine.execDieRecoveryComplete die s
  | .worldLatch die world => Sys2Proof.Machine.execWorldLatch die world s
  | .sessionEstablish req => Sys2Proof.Machine.execSessionEstablish req s
  | .heartbeat iface seq => Sys2Proof.Machine.execHeartbeat iface seq s
  | .heartbeatDeadline iface => Sys2Proof.Machine.execHeartbeatDeadline iface s
  | .grainWindowBoundary => Sys2Proof.Machine.execGrainWindowBoundary s
  | .energyBudgetUpdate core budget => Sys2Proof.Machine.execEnergyBudgetUpdate core budget s
  | .priorityAging iface q => Sys2Proof.Machine.execPriorityAging iface q s
  | .launchQueueExit => Sys2Proof.Machine.execLaunchQueueExit s
  | .dependenceResolution launch => Sys2Proof.Machine.execDependenceResolution launch s
  | .launchDispatch launch => Sys2Proof.Machine.execLaunchDispatch launch s
  | .blockPlacement launch cluster sites => Sys2Proof.Machine.execBlockPlacement launch cluster sites s
  | .blockRelease launch block => Sys2Proof.Machine.execBlockRelease launch block s
  | .doorbell iface q v => Sys2Proof.Machine.execDoorbell iface q v s
  | .queueDescriptorWrite iface q v => Sys2Proof.Machine.execQueueDescriptorWrite iface q v s
  | .interfaceGrantWrite iface v => Sys2Proof.Machine.execInterfaceGrantWrite iface v s
  | .islandRegisterWrite iface island v => Sys2Proof.Machine.execIslandRegisterWrite iface island v s
  | .marginGo iface v => Sys2Proof.Machine.execMarginGo iface v s
  | .marginDone fail errs => Sys2Proof.Machine.execMarginDone fail errs s
  | .registerWrite iface offset v => Sys2Proof.Machine.execRegisterWrite iface offset v s
  | .copy iface q => Sys2Proof.Machine.execCopy iface q s
  | .signal iface q => Sys2Proof.Machine.execSignal iface q s
  | .wait iface q => Sys2Proof.Machine.execWait iface q s
  | .waitSatisfied iface q => Sys2Proof.Machine.execWaitSatisfied iface q s
  | .waitCommandTimeout iface q => Sys2Proof.Machine.execWaitCommandTimeout iface q s
  | .puback iface q => Sys2Proof.Machine.execPuback iface q s
  | .summary iface q n => Sys2Proof.Machine.execSummary iface q n s
  | .inval iface q => Sys2Proof.Machine.execInval iface q s
  | .invalidationComplete iface q => Sys2Proof.Machine.execInvalidationComplete iface q s
  | .window iface q => Sys2Proof.Machine.execWindow iface q s
  | .group iface q => Sys2Proof.Machine.execGroup iface q s
  | .counters iface q => Sys2Proof.Machine.execCounters iface q s
  | .wpset iface q => Sys2Proof.Machine.execWpset iface q s
  | .progset iface q => Sys2Proof.Machine.execProgset iface q s
  | .drload iface q => Sys2Proof.Machine.execDrload iface q s
  | .ctlset iface q => Sys2Proof.Machine.execCtlset iface q s
  | .transfer iface q => Sys2Proof.Machine.execTransfer iface q s
  | .release iface q => Sys2Proof.Machine.execRelease iface q s
  | .pause iface q => Sys2Proof.Machine.execPause iface q s
  | .debugResume iface q => Sys2Proof.Machine.execDebugResume iface q s
  | .armbrk iface q => Sys2Proof.Machine.execArmbrk iface q s
  | .csread iface q => Sys2Proof.Machine.execCsread iface q s
  | .fsread iface q => Sys2Proof.Machine.execFsread iface q s
  | .fsname iface q => Sys2Proof.Machine.execFsname iface q s
  | .commandCompletion iface q => Sys2Proof.Machine.execCommandCompletion iface q s
  | .selftestDone w slot r => Sys2Proof.Machine.execSelftestDone w slot r s
  | .measurements iface nonce => Sys2Proof.Machine.execMeasurements iface nonce s
  | .firmwareUpdate image => Sys2Proof.Machine.execFirmwareUpdate image s
  | .powerOn env => Sys2Proof.Machine.execPowerOn env s
  | .packageReset env => Sys2Proof.Machine.execPackageReset env s
  | .modulePowerRemoval => Sys2Proof.Machine.execModulePowerRemoval s
  | .predicateException die stores => Sys2Proof.Machine.execPredicateException die stores s
  | .virtualInterfaceEnable iface on => Sys2Proof.Machine.execVirtualInterfaceEnable iface on s
  | .publicationWindowRead iface window addr => Sys2Proof.Machine.execPublicationWindowRead iface window addr s

end Sys2Proof.Machine
end

