-- ==== Sys2Proof/Machine/Schedule.lean ====
section
/-! DEFINITION. Which paths may issue, and what the clocks that pass are counted for (07 R134, 20 R300, R310 to
R313). -/

namespace Sys2Proof.Machine

/-! ### Pacing (20 R300) -/

/-- A splice operation of a warp waits for a pending SPINIT or RELAB (15 R253, 16 R266). -/
def State.spliceStalls (s : State) (r : WarpRef) : Bool := s.x.splices.any fun q => decide (q.ref = r) && s.spliceWaits q

/-- Whether a splice operation of a warp's path waits for a pending SPINIT or RELAB, or is an UNDO. -/
def State.spliceStops (s : State) (id : Nat) : Bool :=
  match findBy SpliceReq.id id s.x.splices with
  | some q => s.spliceWaits q || (match q.work with | .undo _ => true | _ => false)
  | none => false

/-- A wait of a warp's path at which pacing stops. A path that a pending SPINIT or RELAB holds up stands at a marker,
or at an instruction that lands writes, until the results it owes are there. -/
def State.paceWait (s : State) (r : WarpRef) (p : Path) : Bool :=
  match p.park with
  | .barrier _ _ => true
  | .arrive _ => true
  | .waitf _ _ => true
  | .batch _ => true
  | .yield _ => true
  | .marker => decide (p.pending ≠ []) && s.spliceStalls r
  | .drain => s.spliceStalls r
  | .fence => true
  | .publish _ => true
  | .room => true
  | .rlt _ => true
  | .mrt _ => true
  | .splice id => s.spliceStops id
  | _ => false

/-- Instructions retired since the base. -/
def Warp.sinceBase (w : Warp) : Nat := w.retired - w.loupe.base

/-- The transferred warp of a block that decides: the smallest count since its base, then the lowest WARPID. -/
def decider : List Warp → Option Warp
  | [] => none
  | w :: ws =>
    match decider ws with
    | none => some w
    | some x =>
      if x.sinceBase < w.sinceBase ∨ (x.sinceBase = w.sinceBase ∧ x.ref.warp < w.ref.warp) then some x else some w

/-- Pacing is in force for the deciding warp: a pause by PAUSE stops it unless a watchpoint event holds the warp; the
pauses of a DBGBRK (21 R320), at a fault or at a watchpoint do not (notes/assumptions/33.md). -/
def State.paceActs (s : State) (t : Warp) : Bool :=
  decide (t.loupe.pace ≠ 0) && !(t.live.all fun x => s.paceWait t.ref x.2) &&
  (decide (t.loupe.pause ≠ .debugger) || s.hitWaits t.ref)

/-- A warp is held by pacing. -/
def State.paced (s : State) (w : Warp) : Bool :=
  match decider ((s.warpsOf w.ref.launch w.ref.block).filter fun x => !x.ended && x.onLoupe?.isSome) with
  | none => false
  | some t => decide (t.ref ≠ w.ref) && s.paceActs t && decide (t.sinceBase + t.loupe.pace ≤ w.sinceBase)

/-! ### Eligibility (07 R134) -/

/-- A warp that runs is not held by pacing, or stalled at the end of a frame, and has no fault to be delivered. -/
def State.warpIssues (s : State) (w : Warp) : Bool :=
  s.warpRuns w && !w.frame.ended && !s.paced w && w.live.all fun x => decide (x.2.late = [])

/-- A path of such a warp is not parked, and in tripod mode has its turn (10 R185). -/
def Warp.pathIssues (w : Warp) (tripod slot : Bool) : Bool :=
  match w.path? slot with
  | none => false
  | some p => decide (p.park = .none) && (!tripod || (w.path? (!slot)).isNone || decide (w.frame.turn = slot))

/-- A path is eligible once its next word is fetched and its pipe is free, which the agenda says (notes/assumptions/22.md). -/
def State.eligible (s : State) (r : WarpRef) (slot : Bool) : Bool :=
  match s.warp? r, s.launch? r.launch with
  | some w, some l => s.warpIssues w && w.pathIssues l.record.tripod slot
  | _, _ => false

/-- The eligible paths of a warp. -/
def State.eligibleOf (s : State) (w : Warp) : List Issuer :=
  [false, true].filterMap fun k => if s.eligible w.ref k then some ⟨w.ref, k⟩ else none

/-! ### Schedulers -/

/-- The core a warp runs on, or is bound for. -/
def State.runCore (s : State) (w : Warp) : Nat :=
  match s.block? w.ref.launch w.ref.block, w.onLoupe? with
  | some b, some (c, _) => State.coreKey b.die ((s.loupeSite? b.die).getD 0) c
  | some b, none => b.coreKey
  | none, _ => 0

/-- A scheduler as one number: its core's key, twice, and which of the two (20 R299). -/
def State.schedOf (s : State) (w : Warp) : Nat :=
  2 * s.runCore w + (if w.onLoupe?.isSome then w.loupe.sched else w.sched) % 2

/-- The warp for which a scheduler has issued in its present clock: it issues at most one instruction in each. -/
def State.issuedNow (s : State) (k : Nat) : Option WarpRef :=
  ((tget (s.core (k / 2)).issued (k % 2)).filter fun x => decide (x.1 = s.coreClk (k / 2))).map Prod.snd

/-- A scheduler has issued in the clock before its present one. -/
def State.issuedBefore (s : State) (k : Nat) : Bool :=
  (tget (s.core (k / 2)).issued (k % 2)).any fun x => decide (x.1 + 1 = s.coreClk (k / 2))

/-- An older warp of a scheduler: by start clock, block, WARPID. -/
def olderWarp (a b : Warp) : Bool :=
  decide (a.startClk.toNat < b.startClk.toNat) ||
  (decide (a.startClk = b.startClk) &&
    (decide (a.ref.block < b.ref.block) || (decide (a.ref.block = b.ref.block) && decide (a.ref.warp < b.ref.warp))))

/-- What decides between eligible paths: how long it has starved, its warp, its lowest lane. -/
structure Candidate where
  who : Issuer
  starve : Nat
  starved : Bool
  w : Warp
  lane : Nat
  deriving DecidableEq, Repr

/-- A path goes before another: starved ones first, the longest waiting of them; else the older warp, then the
lower lane. -/
def Candidate.before (a b : Candidate) : Bool :=
  if a.starved ≠ b.starved then a.starved
  else if a.starved && decide (a.starve ≠ b.starve) then decide (b.starve < a.starve)
  else if a.w.ref = b.w.ref then decide (a.lane < b.lane)
  else olderWarp a.w b.w

/-- What decides between a path and others. -/
def candidateOf (w : Warp) (i : Issuer) (p : Path) : Candidate :=
  ⟨i, p.starve, p.starved || decide (Config.starveClocks ≤ p.starve), w, lowestLane p.lanes⟩

/-- The eligible paths of a scheduler, but for those that late names: they have no fetched word or no free pipe. -/
def State.candidates (s : State) (k : Nat) (late : List Issuer) : List Candidate :=
  ((s.x.warps.filter fun w => decide (s.schedOf w = k)).map fun w => (s.eligibleOf w).filterMap fun i =>
    if late.contains i then none else (w.path? i.slot).map (candidateOf w i)).flatten

/-- The path that a scheduler chooses among candidates. -/
def bestOf : List Candidate → Option Candidate
  | [] => none
  | c :: cs =>
    match bestOf cs with
    | none => some c
    | some x => if x.before c then some x else some c

/-- The path that a scheduler chooses: the first of its eligible ones, when it has not issued in its clock yet. -/
def State.chosen (s : State) (k : Nat) (late : List Issuer) : Option Issuer :=
  if (s.issuedNow k).isSome then none else (bestOf (s.candidates k late)).map Candidate.who

/-- The scheduler of a path's warp. -/
def State.schedFor (s : State) (who : Issuer) : Nat := ((s.warp? who.ref).map s.schedOf).getD 0

/-- A path may issue now: it is the one that its scheduler chooses. -/
def State.mayIssue (s : State) (who : Issuer) (late : List Issuer) : Bool := decide (s.chosen (s.schedFor who) late = some who)

/-- A path in a clock in which its scheduler issues for another: eligible and unchosen for one clock more, or for the first
after one in which it issued nothing; or not eligible. -/
def Path.passedOver (p : Path) (eligible again : Bool) : Path :=
  if !eligible then { p with starve := 0, starved := false }
  else if again then { p with starve := p.starve + 1 }
  else { p with starve := 1, starved := false }

/-- The bin for a number of eligible paths (20 R313). -/
def exposureBin (n : Nat) : Nat :=
  if n < 4 then n else if n < 8 then 4 else if n < 16 then 5 else 6

/-- A scheduler issues in its present clock: the clock counts in the bin of its eligible paths (20 R313), and those that are
not chosen wait on. -/
def State.claim (s : State) (who : Issuer) (late : List Issuer) : State :=
  let k := s.schedFor who
  let cs := (s.candidates k late).map Candidate.who
  let after (w : Warp) (slot : Bool) (x : Warp) : Warp :=
    if who = ⟨w.ref, slot⟩ then x else x.updPath slot fun p => p.passedOver (cs.contains ⟨w.ref, slot⟩) (s.issuedBefore k)
  let pass (w : Warp) : Warp := if s.schedOf w = k then after w true (after w false w) else w
  let t := s.updCore (k / 2) fun c =>
    { c with
      issued := tput c.issued (k % 2) (s.coreClk (k / 2), who.ref)
      bins := c.bins.modify (7 * (k % 2) + exposureBin cs.length) fun x => x + 1 }
  { t with x := { t.x with warps := s.x.warps.map pass } }

/-- Paths that are late as the free values have it. -/
def State.freeLate (s : State) : List Issuer :=
  ((s.x.warps.map s.eligibleOf).flatten.zipIdx.filter fun x => Config.freeBit s.free (950000 + x.2)).map Prod.fst

/-- What issues next when nothing else is listed: schedulers issue in any order, each its own choice. -/
def State.choice (s : State) : Option Issuer :=
  let ws := (s.x.warps.map s.schedOf).eraseDups.filterMap fun k => s.chosen k s.freeLate
  ws[Config.freeIndex s.free 900000 % max ws.length 1]?

/-! ### Stall classes (20 R311) -/

/-- The path that holds a warp's lowest lane: none when it stands in a group. -/
def Warp.lowPath (w : Warp) : Option Path :=
  let low := lowestLane (~~~w.exited)
  (w.live.find? fun x => x.2.lanes.getLsbD low || (entryLanes x.2.stack).getLsbD low).map Prod.snd

/-- A warp whose clocks are charged to LOUPE: in a transfer, waiting for a slot at a fault, held by pacing, at a
watchpoint. -/
def State.loupeStall (s : State) (w : Warp) : Bool :=
  (match w.loupe.place, w.loupe.pause with
    | .leaving _ _, _ => true
    | .returning, _ => true
    | .wanting _, .fault _ _ _ _ _ => true
    | _, .watch _ => true
    | _, .engWatch => true
    | _, _ => false) ||
  s.hitWaits w.ref || s.paced w

/-- A class where the spec names none: free (notes/assumptions/1.md). -/
def State.freeClass (s : State) : Nat := Config.freeIndex s.free 800000 % 8

/-- The class of a path that is not parked and for which nothing issues: its word is not fetched, or its pipe is busy,
freely. -/
def State.lateClass (s : State) : Nat := if Config.freeBit s.free 800001 then 5 else 0

/-- The class of a parked path. DEDUCED (notes/assumptions/30.md): a quarter that waits for an entry of the RLT is charged
to BATCH, even while the MRT, which it waits for next, is full too. -/
def State.parkClass (s : State) (w : Warp) (p : Path) : Nat :=
  match p.park with
  | .none => s.lateClass
  | .fence => 0
  | .yield _ => 0
  | .selftest _ _ _ => 0
  | .marker => if p.pending ≠ [] ∧ s.spliceStalls w.ref then 2 else 1
  | .batch _ => 2
  | .room => 2
  | .rlt _ => 2
  | .publish _ => 2
  | .closeRoom => 2
  | .splice id => if s.spliceStops id then 2 else s.freeClass
  | .drain => if s.spliceStalls w.ref then 2 else s.freeClass
  | .waitf _ _ => 3
  | .barrier _ _ => 3
  | .arrive _ => 3
  | .mrt op => if ((s.op? op).map EngineOp.registered).getD true then 6 else 2
  | .loupeSlot => 7

/-- The class that a warp's clocks without an issue are charged to. -/
def State.stallClass (s : State) (w : Warp) : Nat :=
  if s.loupeStall w then 7
  else
    match w.lowPath with
    | none => 4
    | some p =>
      if p.park = .none ∧ (w.frame.ended ∨ w.loupe.pause ≠ .none ∨ !s.blockIssues w.ref) then s.freeClass else s.parkClass w p

/-! ### Clocks that pass -/

/-- The state when n device clocks have passed. -/
def State.later (s : State) (n : Nat) : State := { s with time := s.time + BitVec.ofNat 64 n }

/-- Clocks of a warp's scheduler in the next n device clocks: loupe clocks on a loupe core (20 R299). -/
def State.schedClocks (s : State) (n : Nat) (w : Warp) : Nat :=
  if w.onLoupe?.isSome then (s.later n).loupeClk (s.dieOf w.ref) - s.loupeClk (s.dieOf w.ref) else n

/-- A path was eligible and not chosen in the present clock of its scheduler. -/
def Warp.unchosen (w : Warp) : Bool := w.lowPath.any fun p => decide (p.park = .none) && decide (0 < p.starve)

/-- What n clocks of a warp's scheduler are charged to its profile sets: the present clock not at all when the warp has
issued in it, to ISSUE when its scheduler has issued for another while it was eligible; the others, in which the scheduler
issues nothing, to the class of its wait. On a loupe core each loupe clock is charged as two (20 R311). -/
def State.profAfter (s : State) (n : Nat) (w : Warp) : List ProfSet :=
  let k := s.schedClocks n w
  let unit := if w.onLoupe?.isSome then 2 else 1
  let one := if (s.issuedNow (s.schedOf w)).isSome then min 1 k else 0
  let first := if s.issuedNow (s.schedOf w) = some w.ref then w.prof
    else profCharge (if w.unchosen then 0 else s.stallClass w) (one * unit) w.prof
  profCharge (s.stallClass w) ((k - one) * unit) first

/-- A warp after n device clocks. -/
def State.passWarp (s : State) (n : Nat) (w : Warp) : Warp :=
  if w.ended then w else { w with idle := w.idle + n, prof := if w.prof = [] then [] else s.profAfter n w }

/-- The oldest of some warps. -/
def oldestWarp (ws : List Warp) : Option Warp :=
  ws.foldl (fun (b : Option Warp) w => match b with
    | none => some w
    | some x => if olderWarp w x then some w else some x) none

/-- A scheduler counts n of its clocks. A clock in which it issues nothing has no eligible path, and counts in bin 0 and for
the class that holds its oldest warp; one in which it issues has been counted then (20 R313). -/
def State.countScheduler (s : State) (n k : Nat) : State :=
  match oldestWarp (s.x.warps.filter fun w => !w.ended && decide (s.schedOf w = k)) with
  | none => s
  | some w =>
    let cls := s.stallClass w
    let clocks := s.schedClocks n w - (if (s.issuedNow k).isSome then 1 else 0)
    s.updCore (k / 2) fun c => { c with classes := c.classes.modify (8 * (k % 2) + cls) fun x => x + clocks }

/-- Count for schedulers in turn. -/
def State.countSchedulers (s : State) (n : Nat) : List Nat → State
  | [] => s
  | k :: ks => (s.countScheduler n k).countSchedulers n ks

/-- The schedulers with resident warps. -/
def State.schedulers (s : State) : List Nat :=
  ((s.x.warps.filter fun w => !w.ended).map s.schedOf).eraseDups

/-- n device clocks of one grain window pass. -/
def State.passClocks (s : State) (n : Nat) : State :=
  let c := s.countSchedulers n s.schedulers
  { c with time := s.time + BitVec.ofNat 64 n, x := { c.x with warps := s.x.warps.map (s.passWarp n) } }

/-- A grain window that has ended is closed before anything else happens (24 R347). -/
def State.windowed (s : State) : State := if s.windowDue then s.endWindow else s

/-- Clocks pass, window by window; the first number bounds the windows. -/
def State.passWindows : Nat → State → Nat → State
  | 0, s, _ => s
  | f + 1, s, n =>
    if n = 0 then s
    else
      let s := s.windowed
      let left := Config.clocksPerSecond - s.time.toNat % Config.clocksPerSecond
      if n ≤ left then s.passClocks n else (s.passClocks left).passWindows f (n - left)

/-- n device clocks pass (21 R323). -/
def State.pass (s : State) (n : Nat) : State := State.passWindows (n / Config.clocksPerSecond + 2) s n

end Sys2Proof.Machine
end

