-- ==== Sys2Proof/Machine/Fetch.lean ====
section
/-! DEFINITION. What one step does: an issue with its fetch (03 R51, R52; 04 R62), an event, or, when nothing is
listed, what the device does by itself; and the state in which a given instruction is the next to be fetched. -/

namespace Sys2Proof.Machine

/-! ### One act -/

/-- What follows every act: faults that have waited for outstanding writes are delivered (04 R69), and the collective engine
goes on (25 R359). -/
def afterAct : Host.Outcome State Fault Refusal → Host.Outcome State Fault Refusal
  | .next s => .next (s.runLate 64).runCollective
  | o => o

/-- A state in which a path issues: its scheduler issues in this clock, and in tripod mode the turn is its own (10
R185). -/
def State.issuing (s : State) (who : Issuer) (late : List Issuer) : State :=
  ({ s.claim who late with issuer := some who } : State).updWarp who.ref fun w =>
    { w with frame := { w.frame with turn := who.slot } }

/-- A path issues what stands at its PC; an illegal opcode, a reserved field, or a PC beyond the image faults (03 R51,
R52). -/
def State.issue (s : State) (who : Issuer) (late : List Issuer) : Host.Outcome State Fault Refusal :=
  let s := s.issuing who late
  match s.ctx? with
  | none => .next s
  | some c =>
    match s.decodeAt c.l c.p.pc with
    | .instr i _ => exec i s
    | .illegalOpcode n => .next (c.issueFault .illegalOpcode n)
    | .reservedField n => .next (c.issueFault .reservedField n)

/-- A listed issue; one of a path that its scheduler does not choose now does not happen. -/
def State.actIssue (s : State) (who : Issuer) (late : List Issuer) : Host.Outcome State Fault Refusal :=
  if s.mayIssue who late then afterAct (s.issue who late) else .next s

/-- What an event does to the device. -/
abbrev Happening := State → Host.Outcome State Fault Refusal

/-- An event happens; no path issues in it. -/
def State.happen (s : State) (f : Happening) : Host.Outcome State Fault Refusal :=
  match afterAct (f { s with issuer := none }) with
  | .next s => .next s.bump
  | o => o

/-- A listed event. -/
def State.actEvent (s : State) (i : Instr) : Host.Outcome State Fault Refusal := s.happen (exec i)

/-- A listed act, after the clocks that pass before it. A grain window that ends with them is closed first, by the act
itself where that is the boundary (24 R347). -/
def State.act (s : State) (e : Slated) : Host.Outcome State Fault Refusal :=
  match e.act with
  | .issue who late => (s.pass e.clocks).windowed.actIssue who late
  | .event .grainWindowBoundary => (s.pass e.clocks).actEvent .grainWindowBoundary
  | .event i => (s.pass e.clocks).windowed.actEvent i

/-! ### What the device does by itself -/

/-- Events of a warp's path. -/
def State.pathEvents (s : State) (r : WarpRef) (slot : Bool) (p : Path) : List Happening :=
  [execWriteLanding r slot (Config.freeIndex s.free 910000 % max p.writes.length 1), execPathStarvation r slot,
   execFenceComplete r slot, execWaitfWake r slot, execWaitfTimeout r slot, execYieldExpiry r slot, execPublishComplete r slot]

/-- Events of the warps. -/
def State.warpEvents (s : State) : List Happening :=
  (s.x.warps.map fun w =>
    (w.live.map fun x => s.pathEvents w.ref x.1 x.2).flatten ++
      [execBatchCompletion w.ref, execTransferComplete w.ref, execStallWatchdog w.ref]).flatten

/-- Events of an engine operation. -/
def opEvents (o : EngineOp) : List Happening :=
  [execCopyEngineCompletion o.id, execMainMemoryAtomicCompletion o.id, execStationaryLoadCompletion o.id, execFilterEntryRead o.id,
   execStripOperationCompletion o.id, execSpinitInitCompletion o.id, execRelabCompletion o.id, execCollectiveStepCompletion o.id,
   execCollectiveTimeout o.id]

/-- Events of the engines. -/
def State.engineEvents (s : State) : List Happening :=
  (s.x.ops.map opEvents).flatten ++ (s.x.splices.map fun q => execSpliceApply q.id) ++
  (s.x.engines.map fun e =>
    [execMrtGrant (e.1 / 16) (e.1 % 16)] ++ (e.2.passes.map fun p => execPassCompletion (e.1 / 16) (e.1 % 16) p.id) ++
    (e.2.replays.map fun r => (List.range r.missing.length).map fun k => execFilterSliceArrival r.op r.row k).flatten).flatten

/-- Events of dies, launches and blocks. -/
def State.dieEvents (s : State) : List Happening :=
  (s.x.dies.map fun d =>
    [execPredicateStart d.1, execDieRecoveryComplete d.1] ++
    (if (s.runningHit d.1).isSome then darkroomEvents d.1 s else [])).flatten ++
  (s.x.launches.map fun l => [execDependenceResolution l.uid, execLaunchDispatch l.uid, execNegativeComplete l.uid]).flatten ++
  (s.x.blocks.map fun b =>
    let u := ((s.launch? b.launch).map fun l => l.record.unitOf b.id).getD 0
    [execFrameCommit b.launch b.id, execBlockRelease b.launch b.id, execDrainLimitExpiry b.launch b.id, execSaveComplete b.launch u]).flatten

/-- The command rows of a queue. -/
def queueEvents (i q n : Nat) : List Happening :=
  [execCopy i q, execSignal i q, execWait i q, execWaitSatisfied i q, execWaitCommandTimeout i q, execPuback i q, execSummary i q n, execInval i q,
   execInvalidationComplete i q, execWindow i q, execGroup i q, execCounters i q, execWpset i q, execProgset i q, execDrload i q, execCtlset i q,
   execTransfer i q, execRelease i q, execPause i q, execDebugResume i q, execArmbrk i q, execCsread i q, execFsread i q, execFsname i q,
   execCommandCompletion i q, execPriorityAging i q]

/-- Events of the control die. -/
def State.controlEvents (s : State) : List Happening :=
  [execLaunchQueueExit] ++ (s.ctl.ifaces.map fun f => execHeartbeatDeadline f.1) ++
  (s.allQueues.map fun q => queueEvents q.1 q.2 (s.queue q.1 q.2).head).flatten ++
  ((List.range s.ctl.held.length).map fun k => execSegmentDiscard k)

/-- The events that can happen now of themselves, with the states they lead to. -/
def State.ready (s : State) : List State :=
  (s.warpEvents ++ s.engineEvents ++ s.dieEvents ++ s.controlEvents).filterMap fun i =>
    match s.happen i with
    | .next t => some t
    | _ => none

/-- What idle time takes: at most one device clock before the next act, as the free values have it. -/
def State.idleClocks (s : State) : Nat := Config.freeClocks s.free % 2

/-- The issue of a path that nothing lists. -/
def State.idleIssue (s : State) (who : Issuer) : Host.Outcome State Fault Refusal :=
  match s.actIssue who s.freeLate with
  | .next t => .next t.bump
  | o => o

/-- With nothing listed, a clock passes or none, and then a path issues or an event that can happen does, freely;
nothing else happens when there is neither. -/
def State.idle (s : State) : Host.Outcome State Fault Refusal :=
  let t := s.pass s.idleClocks
  if t.windowDue then t.happen execGrainWindowBoundary
  else
    let es := t.ready
    match t.choice, es[Config.freeIndex s.free 920000 % max es.length 1]? with
    | none, none => .next t.bump
    | some who, none => t.idleIssue who
    | none, some u => .next u
    | some who, some u => if Config.freeBit s.free 930000 then t.idleIssue who else .next u

/-- One step. -/
def State.stepOnce (s : State) : Host.Outcome State Fault Refusal :=
  match s.agenda with
  | [] => s.idle
  | e :: r => ({ s with agenda := r } : State).act e

/-! ### Placing an instruction -/

/-- The launch that a placed instruction runs in: one block of one warp, the largest register allotment, one strip. -/
def probeRecord (bytes : Nat) : LaunchRecord :=
  { LaunchRecord.ofBits 0 with
    codeSize := bytes, gridX := 1, gridY := 1, gridZ := 1, warps := 1, cluster := 1, span := 1, regs := 256, spill := 64
    bsmSize := 65536, spadSize := 65536, accn := 1 }

/-- A launch that has been dispatched with an image. -/
def probeLaunch (uid image bytes : Nat) : Launch :=
  { Launch.fresh uid 0 0 0 (probeRecord bytes) with stage := .running, image := image, privileged := true, placed := [0] }

/-- A device whose next step fetches and runs the words of an image: the image is loaded, a launch of it is placed
on die 0, and its one path is listed to issue, every other path being late (notes/assumptions/5.md). -/
def State.loadProbe (s : State) (bytes : List Byte) : State :=
  let uid := s.nextUid
  let r : WarpRef := ⟨uid, 0, 0⟩
  let p : Placement := ⟨0, 0, [0]⟩
  { s with
    x := { s.x with
      launches := s.x.launches ++ [probeLaunch uid s.x.code.length bytes.length]
      code := s.x.code ++ [⟨0, bytes⟩]
      blocks := s.x.blocks ++ [Block.fresh uid 0 p 0 [] 0]
      warps := s.x.warps ++ [Warp.fresh r 0 0 s.time]
      clusters := s.x.clusters ++ [⟨uid, 0, 0, 0, Barrier.fresh, []⟩]
      spans := s.x.spans ++ [⟨uid, 0, 0, [], [], []⟩]
      engines := tput s.x.engines 0 { s.engine 0 0 with owner := some (uid, 0) } }
    agenda := ⟨0, .issue ⟨r, false⟩ ((s.x.warps.map fun w => [⟨w.ref, false⟩, ⟨w.ref, true⟩]).flatten)⟩ :: s.agenda
    nextUid := uid + 1 }

/-- The bytes of an instruction whose bits are numbered as spec/opcode_table.json numbers them, in two words. -/
def tableBytes (nbits w : Nat) : List Byte := leBytes 8 (w % 2 ^ nbits)

end Sys2Proof.Machine
end

