-- ==== Sys2Proof/Machine/Step.lean ====
section
/-! DEFINITION. The step of the device, and the state in which a given instruction is fetched next. -/

namespace Sys2Proof.Machine

/-- One step of the device (04 R62, 07 R134). -/
def step (s : State) : Host.Outcome State Fault Refusal := s.stepOnce

/-- The state whose next step fetches and runs an instruction of the opcode table. -/
def State.withFetchWord (s : State) (nbits w : Nat) : State := s.loadProbe (tableBytes nbits w)

end Sys2Proof.Machine
end

