-- ==== Sys2Proof/Safety.lean ====
section
/-! DEFINITION. The words in which the statements about this machine are made: an instruction that answers a next
state, what of the device an instruction of one path may touch, and the state in which it has completed. -/

namespace Sys2Proof.Machine

/-- An instruction answers a next state, and that state has a property. -/
def Runs (i : Instr) (s : State) (P : State → Prop) : Prop := ∃ t, exec i s = .next t ∧ P t

/-! ### Frames -/

/-- A loupe cluster but for its contact sheet and its film strip (20 R307, R309). -/
def LoupeCluster.offSheet (x : LoupeCluster) : LoupeCluster := { x with sheet := [], sheetIx := 0, wraps := 0, film := [] }

/-- A die but for the contact sheet and the film strip of its loupe cluster. -/
def Die.offSheet (d : Die) : Die := { d with loupe := d.loupe.offSheet }

/-- From s to t nothing of the device has changed but one warp, the free-value counter, contact sheets and film strips: every
other warp, every byte of main memory, BSM and scratchpad, every launch, block, barrier, engine, core, die and
control-die register is as it was. -/
structure OnlyWarp (s t : State) (r : WarpRef) : Prop where
  rest : t = { s with free := t.free, x := { s.x with warps := t.x.warps, dies := t.x.dies } }
  refs : t.x.warps.map Warp.ref = s.x.warps.map Warp.ref
  others : ∀ q, q ≠ r → t.warp? q = s.warp? q
  dies : ∀ d, (t.die d).offSheet = (s.die d).offSheet

/-! ### An instruction of a path completes -/

/-- The path goes on at npc, or, where a RETRY has put it back to the instruction, at the NPC of the fault (19 R290), with ws
added to its outstanding writes (04 R64), as one instruction's; the marker m parks it while any is outstanding, or a splice
operation owes it a result (04 R65). u is what a loupe core tracks besides (20 R308). -/
def Path.after (p : Path) (npc : Word) (m : Bool) (ws : List (WTarget × Word)) (u : List Uncovered) : Path :=
  { p.goOn (p.back.getD npc) with
    writes := p.writes ++ ws.map fun x => ⟨x.1, x.2, p.pc, nextNo p.writes⟩
    uncovered := u
    park := if m ∧ (p.writes ≠ [] ∨ ws ≠ [] ∨ p.pending ≠ []) then .marker else .none }

/-- The warp w when the issuing path's instruction has completed in it: one more instruction is retired, and its
path is as `Path.after` says; clk is the clock of its last contact-sheet record. -/
def Ctx.after (c : Ctx) (w : Warp) (p : Path) (npc : Word) (m : Bool) (ws : List (WTarget × Word))
    (clk : Option DWord) (u : List Uncovered) : Warp :=
  { w.retire c.l with loupe := { w.loupe with lastClk := clk } }.setPath c.slot (some (p.after npc m ws u))

/-- The issuing path's instruction has completed and has touched nothing but its warp. w and p are warp and path with
the instruction's immediate effects, ws its outstanding register writes, npc where the path goes on unless a RETRY has
named another successor (`Path.after`). -/
structure Ctx.Done (c : Ctx) (t : State) (w : Warp) (p : Path) (npc : Word) (m : Bool) (ws : List (WTarget × Word)) : Prop where
  frame : OnlyWarp c.s t c.ref
  warp : ∃ clk u, t.warp? c.ref = some (c.after w p npc m ws clk u) ∧ (c.w.onLoupe? = none → clk = c.w.loupe.lastClk)
  quiet : c.w.onLoupe? = none → t.x.dies = c.s.x.dies

/-- An instruction completes that only reads, and leaves ws outstanding. -/
def Ctx.Writes (c : Ctx) (t : State) (npc : Word) (m : Bool) (ws : List (WTarget × Word)) : Prop :=
  c.Done t c.w c.p npc m ws

/-- A scalar-unit instruction completes: register d holds v at once (06 R89), without an uncorrectable error. -/
def Ctx.Scalar (c : Ctx) (t : State) (npc : Word) (m : Bool) (d : Field) (v : Word) : Prop :=
  c.Done t { c.w with
    sregs := put0 c.w.sregs d.toNat v, soft := c.w.soft.filter fun e => decide (e ≠ (256 + d.toNat, 0)) } c.p npc m []

/-- The writes of one vector register over the lanes of a mask. -/
def laneSet (q : LaneMask) (d : Nat) (val : Nat → Word) : List (WTarget × Word) := (lanesOf q).map fun l => (.v d l, val l)

/-- The same over a list of lanes with status bits set in the lanes where st gives some (04 R72). -/
def laneListSt (ls : List Nat) (d : Nat) (val : Nat → Word) (st : Nat → Nat) : List (WTarget × Word) :=
  ls.flatMap fun l => (.v d l, val l) :: if st l = 0 then [] else [(.stSet l, BitVec.ofNat 32 (st l))]

/-- The same over the lanes of a mask. -/
def laneSetSt (q : LaneMask) (d : Nat) (val : Nat → Word) (st : Nat → Nat) : List (WTarget × Word) :=
  laneListSt (lanesOf q) d val st

/-- The conditions under which a lane instruction that names vector registers executes its effect: they lie within
the allotment (03 R50), no INJECT is armed (21 R324), and no register holds an uncorrectable error (19 R283). -/
def Ctx.Ready (c : Ctx) (regs : List Nat) : Prop :=
  (∀ n ∈ regs, n < c.l.record.regs) ∧ c.w.inject = none ∧ c.w.soft = []

/-- No s-register of the issuing path's warp holds an uncorrectable error (19 R283). -/
def Ctx.SoundS (c : Ctx) : Prop := ∀ n, 256 ≤ n → c.softAt (n, 0) = false

/-! ### Rounding over the rational numbers -/

/-- The rational number (-1)^neg * m * 2^e. -/
def ratOf (neg : Bool) (m : Nat) (e : Int) : ℚ := (if neg then -1 else 1) * (m : ℚ) * (2 : ℚ) ^ e

/-- A nonnegative rational rounded to an integer for a value of the given sign (05 R78). -/
def roundNatRat (rnd : Nat) (neg : Bool) (x : ℚ) : Nat :=
  let n := ⌊x⌋.toNat
  let r := x - n
  if r = 0 then n
  else if rnd = 0 then (if r < 1 / 2 then n else if 1 / 2 < r then n + 1 else if n % 2 = 0 then n else n + 1)
  else if rnd = 1 then n
  else if rnd = 2 then (if neg then n else n + 1)
  else if rnd = 3 then (if neg then n + 1 else n)
  else (if r < 1 / 2 then n else n + 1)

/-- Round(x, t, rnd, sat) of a nonzero rational for a floating-point format (05 R79): the code of the element. -/
def roundRat (f : FloatFmt) (rnd : Nat) (sat : Bool) (x : ℚ) : Nat :=
  let neg := decide (x < 0)
  let top := Int.log 2 |x|
  let q := top - f.man
  let tooBig : Bool := match fdecode f f.maxCode with
    | .fin _ k p => decide (ratOf false k p < roundNatRat rnd neg (|x| / (2 : ℚ) ^ q) * (2 : ℚ) ^ q)
    | _ => false
  if tooBig then (if f.hasInf then f.infOverflow neg rnd else f.noInfOverflow neg sat)
  else
    let u := max q f.emin
    f.signed neg ((u - f.emin).toNat * 2 ^ f.man + roundNatRat rnd neg (|x| / (2 : ℚ) ^ u))

/-! ### Warp-wide operations -/

/-- The lanes of a mask with a property, as a mask. -/
def maskWhere (q : LaneMask) (f : Nat → Bool) : LaneMask := lanesWhere f (lanesOf q)

/-- A warp-wide operation executes at this issue with contributing set p and receiving set q, reading its operands in
v (07 R141, 08 R146): its group has completed, or no lane of the member set stands elsewhere, and no splice operation owes
the warp a result. -/
def Ctx.WideAt (c v : Ctx) (p q : LaneMask) : Prop :=
  (∃ p0 q0, c.p.carry = some (p0, q0) ∧ v = c ∧ p = p0 &&& ~~~c.w.exited ∧ q = q0 &&& ~~~c.w.exited) ∨
  (c.p.carry = none ∧ c.s.splicing c.ref = false ∧ v = c.landed ∧ p = v.memberSet &&& ~~~v.w.exited ∧ p &&& ~~~v.p.lanes = 0 ∧
    q = v.active &&& p ∧ v.active &&& ~~~v.memberSet = 0)

/-- The value at a leaf or inner node of a reduction over 32 lanes: level 0 is the lane's own value, a node of level k + 1
combines two of level k that stand 2^k lanes apart (08 R150). -/
def redNode {α : Type} (f : α → α → α) (x : Nat → α) : Nat → Nat → α
  | 0, i => x i
  | k + 1, i => f (redNode f x k i) (redNode f x k (i + 2 ^ k))

/-- The same for a scan: lane i combines what lane i - 2^k holds with its own (08 R150). -/
def scanNode {α : Type} (f : α → α → α) (x : Nat → α) : Nat → Nat → α
  | 0, i => x i
  | k + 1, i => if i < 2 ^ k then scanNode f x k i else f (scanNode f x k (i - 2 ^ k)) (scanNode f x k i)

/-! ### Local memory -/

/-- The bytes of a place, while it is there (09 R161). -/
def State.placeMem (s : State) : Place → Option Memory
  | .bsm l b => (s.block? l b).map Block.bsm
  | .spad l k => (s.span? l k).map Span.spad

/-- One byte of a place. -/
def State.placeByte (s : State) (q : Place) (a : Nat) : Byte := get0 ((s.placeMem q).getD []) a

/-- The 32-bit word at a place, lowest byte first (00 R3). -/
def State.placeWord (s : State) (x : Place × Nat) : Word :=
  BitVec.ofNat 32 (leNat ((List.range 4).map fun i => s.placeByte x.1 (x.2 + i)))

/-- A place is there, its bytes in canonical form. -/
def State.PlaceOk (s : State) (q : Place) : Prop := ∃ m, s.placeMem q = some m ∧ m.wf = true

/-- From s to t nothing has changed but bytes of BSM and scratchpads, with what is remembered of them beside their values
(which BSM words hold an uncorrectable error, 19 R283; which bytes of bound forests plain writes have touched, 15 R248;
which words that a WAITF waits for have been written, 11 R205), and blocks' external-write flags. -/
structure OnlyLocal (s t : State) : Prop where
  rest : t = { s with x := { s.x with blocks := t.x.blocks, spans := t.x.spans } }
  blocks : (t.x.blocks.map fun (b : Block) => { b with bsm := [], ext := false, soft := [], woken := [] })
    = s.x.blocks.map fun (b : Block) => { b with bsm := [], ext := false, soft := [], woken := [] }
  spans : (t.x.spans.map fun (k : Span) => { k with spad := [], broken := [], woken := [] })
    = s.x.spans.map fun (k : Span) => { k with spad := [], broken := [], woken := [] }

/-- Every Active lane's access passes its check (11 R192): place q l and offset o l, and what it reads holds no
uncorrectable error (19 R283). No watchpoint can hold it, since the warp is on no loupe core or the hit has been served
(20 R303). -/
structure Ctx.AccessOk (c : Ctx) (k : AccKind) (n : Nat) (x : Nat → Word) (q : Nat → Place) (o : Nat → Nat) : Prop where
  check : ∀ l ∈ lanesOf c.active, c.check k (x l) n = .ok (q l, o l)
  sound : ∀ l ∈ lanesOf c.active, k = .store ∨ c.s.softAt (q l) (o l) n = false
  unwatched : c.w.onLoupe? = none ∨ c.p.passed = true

/-- Read-modify-writes of lanes one after another, each on the word that those before have left: the words afterwards
and what each lane read (11 R199). -/
def rmwSeq (x : Nat → Place × Nat) (f : Nat → Word → Word) :
    List Nat → (Place × Nat → Word) → (Place × Nat → Word) × List (Nat × Word)
  | [], g => (g, [])
  | l :: r, g =>
    let old := g (x l)
    let z := rmwSeq x f r fun p => if p = x l then f l old else g p
    (z.1, (l, old) :: z.2)

/-! ### Waits, faults of lanes, engine operations -/

/-- From s to t nothing has changed but the external-write flag of blocks (19 R291). -/
structure OnlyExt (s t : State) : Prop where
  rest : t = { s with x := { s.x with blocks := t.x.blocks } }
  blocks : (t.x.blocks.map fun (b : Block) => { b with ext := false }) = s.x.blocks.map fun (b : Block) => { b with ext := false }

/-- The issuing path waits at its instruction: its PC stays, and the path changes only in what it waits for. w is its
warp with the instruction's immediate effects. -/
structure Ctx.Parks (c : Ctx) (t : State) (w : Warp) (k : Park) : Prop where
  frame : OnlyWarp c.s t c.ref
  warp : ∃ clk, t.warp? c.ref = some ({ w with loupe := { w.loupe with lastClk := clk } }.setPath c.slot
    (some { c.p with park := k, starve := 0, starved := false }))

/-- The instruction does what needs the warp's outstanding writes to have landed (04 R69): P then holds of the state that
follows. While a splice operation owes the warp a result it waits instead and issues again (16 R267, R269). -/
def Ctx.Drained (c : Ctx) (t : State) (P : Prop) : Prop :=
  if c.s.splicing c.ref = true then c.Parks t c.w .drain else P

/-- The lanes that do not fault complete with their outstanding writes ws, the instruction retires, and the faults es are
delivered as one lane fault of kind k (19 R284); the free-value counter moves on. -/
def Ctx.LaneFaults (c : Ctx) (t : State) (npc : Word) (ws : List (WTarget × Word)) (k : FaultKind) (es : List LaneEntry) : Prop :=
  c.Drained t (∃ s1, c.Writes s1 npc false ws ∧
    t = { s1.deliver c.ref c.slot .lane k es (faultMask es) c.p.pc npc with free := t.free })

/-- The trap of a lane whose status bits are f, when MODE has armed it (05 R81, 06 R109, R115). -/
def Ctx.trapOf (c : Ctx) (f : Nat) : Option FaultKind :=
  if modeTrapNv c.p.mode ∧ hasBit f stNV then some .invalidOp
  else if modeTrapDiv c.p.mode ∧ hasBit f stDZ then some .divide
  else none

/-- The lanes of a list as a lane instruction leaves them that writes words val into register d and status bits st: the
lanes that do not trap complete, and the others, if there are any, fault together (19 R284). -/
def Ctx.Lanes (c : Ctx) (t : State) (len : Nat) (m : Bool) (ls : List Nat) (d : Nat) (val : Nat → Word) (st : Nat → Nat) : Prop :=
  match ls.filterMap fun l => (c.trapOf (st l)).map fun k => (⟨l, k, 0, 0⟩ : LaneEntry) with
  | [] => c.Writes t (c.next len) m (laneListSt ls d val st)
  | e :: es => c.LaneFaults t (c.next len) (laneListSt (ls.filter fun l => (c.trapOf (st l)).isNone) d val st) e.kind (e :: es)

/-- An engine operation joins the open batch of the issuing path's warp (13 R214, R215) with its local ranges
registered, and its instruction completes in the warp w. s0 is the state with the operation's immediate effects. -/
def Ctx.Joins (c : Ctx) (s0 t : State) (w : Warp) (npc : Word) (m : Bool) (work : Work) (locks : List Lock) : Prop :=
  ∃ (o : EngineOp) (s1 : State), o.id = s0.nextOp ∧ o.ref = c.ref ∧ o.closeNo = c.w.closes + 1 ∧ o.pc = c.p.pc ∧
    o.mask = ~~~c.w.exited ∧ o.work = work ∧ o.locks = locks ∧ o.posted = true ∧ o.finished = false ∧ o.err = none ∧
    OnlyExt s0 s1 ∧ ({ c with s := s1.addOp o } : Ctx).Done t w c.p npc m []

/-- An engine operation is refused at issue: it joins the open batch and completes it in error, with a kind and an
address (13 R214, R217); its instruction completes. -/
def Ctx.FailsAtIssue (c : Ctx) (t : State) (npc : Word) (m : Bool) (k : FaultKind) (addr : Word) : Prop :=
  ∃ e : BatchError, e.closeNo = c.w.closes + 1 ∧ e.op = c.s.nextOp ∧ e.kind = k ∧ e.addr = addr ∧ e.pc = c.p.pc ∧
    e.mask = ~~~c.w.exited ∧
    ({ c with s := { c.s with nextOp := c.s.nextOp + 1 } } : Ctx).Done t { c.w with errors := c.w.errors ++ [e] } c.p npc m []

/-- The issuing path sends an operation to the splice engine, with the forest that its warp has bound (15 R249), and goes
on, its result outstanding (16 R267, R269). At an UNDO it waits, and in tripod mode, where its frame ends first (15 R254). -/
def Ctx.Sends (c : Ctx) (t : State) (m : Bool) (len : Nat) (k : SpliceWork) : Prop :=
  let q : SpliceReq := ⟨c.s.nextOp, c.ref, c.slot, c.p.pc, m, len, c.active, 0, c.w.forest, c.w.transfer?, k⟩
  let w := if c.l.record.tripod then { c.w with frame := { c.w.frame.finish with splice := some q.id } } else c.w
  ∃ s1, OnlyExt { c.s with nextOp := c.s.nextOp + 1, x := { c.s.x with splices := c.s.x.splices ++ [q] } } s1 ∧
    if k.parks c.l.record.tripod = true then ({ c with s := s1 } : Ctx).Parks t w (.splice q.id)
    else ({ c with s := s1 } : Ctx).Done t w { c.p with pending := c.p.pending ++ [q.id] } (c.next len) m []

/-- An engine operation has ended, with an error or none: it is finished, outside tripod mode it is gone, and its warp, while
it runs, holds the error unreported (13 R217). -/
structure OpCtx.Finished (c : OpCtx) (s t : State) (err : Option BatchError) : Prop where
  done : ∀ o ∈ t.x.ops, o.id = c.o.id → o.finished = true
  gone : c.l.record.tripod = false → ∀ o ∈ t.x.ops, o.id ≠ c.o.id
  told : ∀ w, s.warp? c.o.ref = some w → w.ended = false →
    ∃ u, t.warp? c.o.ref = some u ∧ u.errors = w.errors ++ err.toList

/-- An access of n bytes at a VA by an operation's engine reaches the n bytes of device DRAM at the physical address pa as they
stand: they lie in one page (09 R168), whose leaf permits the access (R169), under the key of the launch's world (24 R343); the
die that owns them takes the message (R342), and no recovery has anything to hold, to discard or to answer (R352). -/
structure OpCtx.Reaches (c : OpCtx) (s : State) (va n : Nat) (need : Need) (pa : Nat) : Prop where
  page : 0 < n ∧ va % 65536 + n ≤ 65536 ∧ va + n ≤ 2 ^ 52
  canonical : s.mem.wf = true
  mapped : (s.transVia (some c.b.die) c.o.mmu va need c.l.record.world).1 = .ok pa
  dram : s.isDram pa = true
  key : ∀ i < n, s.unitKey (pa + i) = s.keyOf c.l.record.world
  port : s.portRefuses (some c.b.die) c.l.record.world pa = none
  running : ∀ d, (s.die d).st = .running ∧ (s.die d).held = [] ∧ (s.die d).replayed = [] ∧ (s.die d).discard = []

/-- The walk from element x of a forest over the elements of a path to the root r (15 R248). -/
def ForestWalk (s : State) (t : ForestAt) : Nat → List Nat → Nat → Prop
  | x, [], r => s.parent t x = x ∧ r = x
  | x, y :: ys, r => y = x ∧ s.parent t x ≠ x ∧ s.parent t x < t.f.count ∧ ForestWalk s t (s.parent t x) ys r

/-- A splice operation of a path has been applied, after its instruction has retired (16 R267, R269): its results ws are
outstanding writes of the path, which is owed the result of request id no longer; the path stands at npc with its lanes, no
register has changed, and no fault of the operation is there to be delivered. -/
def Ctx.Owed (c : Ctx) (t : State) (id : Nat) (npc : Word) (ws : List (WTarget × Word)) : Prop :=
  ∃ u p, t.warp? c.ref = some u ∧ u.path? c.slot = some p ∧ u.vregs = c.w.vregs ∧ u.sregs = c.w.sregs ∧
    u.status = c.w.status ∧ p.pc = npc ∧ p.lanes = c.p.lanes ∧ p.late = c.p.late ∧ id ∉ p.pending ∧
    p.writes.map (fun x => (x.target, x.value)) = c.p.writes.map (fun x => (x.target, x.value)) ++ ws

/-- Records and log of a forest are there and do not share a byte (15 R246), the launch is not in tripod mode, and no plain
write has touched an element or the log (15 R248). -/
structure ForestAt.Ok (t : ForestAt) (s : State) : Prop where
  records : s.PlaceOk t.rec'.1
  log : s.PlaceOk t.log.1
  apart : t.rec'.1 ≠ t.log.1 ∨ overlaps t.rec'.2 t.f.recBytes t.log.2 t.f.logBytes = false
  plain : t.l.record.tripod = false
  sound : ∀ i < t.f.count, s.spoilt t i = false
  logSound : s.logSpoilt t = false

/-! ### Words and registers -/

/-- The OP values that 03 R47 assigns. -/
def assignedOp (op : Nat) : Bool :=
  [(0x001, 0x032), (0x040, 0x05B), (0x060, 0x068), (0x080, 0x092), (0x0A0, 0x0A6), (0x0C0, 0x0C9), (0x0E0, 0x0EC),
   (0x0F0, 0x0F4), (0x100, 0x106), (0x108, 0x10C), (0x110, 0x117), (0x120, 0x12C), (0x130, 0x136), (0x13C, 0x13D),
   (0x140, 0x148), (0x160, 0x166), (0x180, 0x189)].any fun r => decide (r.1 ≤ op) && decide (op ≤ r.2)

/-- The vector registers that the fields of an instruction name, groups whole (03 R45, R50). -/
def directVregs : Instr → List Nat
  | .vadd _ d a b | .vsub _ d a b | .vmul _ d a b | .vmulh _ d a b | .vmulhn _ d a b | .vmad _ d a b
  | .vdiv _ d a b | .vdivn _ d a b | .vrem _ d a b | .vremn _ d a b | .vand _ d a b | .vor _ d a b
  | .vxor _ d a b | .vandn _ d a b | .vshl _ d a b | .vshr _ d a b | .vsra _ d a b | .vmin _ d a b
  | .vmax _ d a b | .vminn _ d a b | .vmaxn _ d a b | .vbfx _ d a b | .vbfi _ d a b | .vfadd _ d a b
  | .vfsub _ d a b | .vfmul _ d a b | .vfma _ d a b | .vfms _ d a b | .vfnma _ d a b | .vfmin _ d a b
  | .vfmax _ d a b | .vfcpsgn _ d a b | .vfdiv _ d a b | .vdot4 _ d a b | .vdot4m _ d a b | .vdot8 _ d a b
  | .vfdot4 _ d a b | .vfdot8 _ d a b | .vshup _ d a b | .vshdn _ d a b | .vshxor _ d a b | .vshidx _ d a b
  | .vqswap _ d a b | .unite _ d a b | .aadd _ d a b | .aand _ d a b | .aor _ d a b | .axor _ d a b
  | .amin _ d a b | .amax _ d a b | .aminn _ d a b | .amaxn _ d a b | .aexch _ d a b | .acas _ d a b
  | .afadd _ d a b | .afmin _ d a b | .afmax _ d a b => d.toNat :: a.toNat :: b.vregs
  | .vabs _ d a | .vneg _ d a | .vpopc _ d a | .vclz _ d a | .vbrev _ d a | .vfabs _ d a
  | .vfneg _ d a | .vfclass _ d a | .vfsqrt _ d a | .vfrint _ d a | .vfrcp _ d a | .vfrsq _ d a
  | .vfexp2 _ d a | .vflog2 _ d a | .vfsinpi _ d a | .vfcospi _ d a | .vftanh _ d a | .vmatch _ d a
  | .find _ d a | .csize _ d a => [d.toNat, a.toNat]
  | .vcvtw _ d a _ | .vcvtn _ d a _ | .vcvtfi _ d a _ | .vcvtif _ d a _ | .vred _ d a _ | .vscan _ d a _ => [d.toNat, a.toNat]
  | .vunp5 _ d a _ => [d.toNat, d.toNat + 1, a.toNat]
  | .vmov _ d b => d.toNat :: b.vregs
  | .vsplat _ d _ | .vget _ d _ | .vmovx _ d _ => [d.toNat]
  | .vwritel _ d _ _ => [d.toNat]
  | .vgetst _ d | .vfill _ d => [d.toNat]
  | .vspill _ a => [a.toNat]
  | .vmovxw _ _ a => [a.toNat]
  | .vceq _ _ a b | .vcne _ _ a b | .vclt _ _ a b | .vcle _ _ a b | .vfceq _ _ a b | .vfclt _ _ a b
  | .vfcle _ _ a b | .vfcun _ _ a b => a.toNat :: b.vregs
  | .brd _ _ a _ | .vvote _ _ a _ | .vreadl _ _ a _ => [a.toNat]
  | .ld8 _ d a _ | .ld8s _ d a _ | .ld16 _ d a _ | .ld16s _ d a _ | .ld32 _ d a _ | .ldacq32 _ d a _
  | .st8 _ d a _ | .st16 _ d a _ | .st32 _ d a _ | .strel32 _ d a _ => [d.toNat, a.toNat]
  | .ld64 _ d a _ | .st64 _ d a _ => [d.toNat, d.toNat + 1, a.toNat]
  | .ld128 _ d a _ | .st128 _ d a _ => [d.toNat, d.toNat + 1, d.toNat + 2, d.toNat + 3, a.toNat]
  | .redadd _ a b | .redand _ a b | .redor _ a b | .redxor _ a b | .redmin _ a b | .redmax _ a b
  | .redfadd _ a b => a.toNat :: b.vregs
  | .mma _ _ _ _ _ f => if f.toNat = 63 then [] else [f.toNat]
  | _ => []

/-- Whether an instruction that lists element types (06 R88) accepts a type: the integer forms of 06 R102 to R107, the
floating-point forms of 06 R109 to R116 and 11 R201, R202, the packed dot products, reductions and scans. The conversions,
whose list depends on their format, are not among them. -/
def acceptsType (t : Nat) : Instr → Bool
  | .vadd .. | .vsub .. | .vmul .. | .vmulh .. | .vmulhn .. | .vmad .. | .vdiv .. | .vdivn .. | .vrem .. | .vremn ..
  | .vshl .. | .vshr .. | .vsra .. | .vmin .. | .vmax .. | .vminn .. | .vmaxn .. | .vabs .. | .vneg .. | .vpopc ..
  | .vclz .. | .vbrev .. | .vceq .. | .vcne .. | .vclt .. | .vcle .. => [0, 1, 2, 3, 4, 5, 14].contains t
  | .vfadd .. | .vfsub .. | .vfmul .. | .vfma .. | .vfms .. | .vfnma .. | .vfmin .. | .vfmax .. | .vfabs .. | .vfneg ..
  | .vfcpsgn .. | .vfceq .. | .vfclt .. | .vfcle .. | .vfcun .. | .vfclass .. | .vfdiv .. | .vfsqrt .. | .vfrint ..
  | .vfrcp .. | .vfrsq .. | .vfexp2 .. | .vflog2 .. | .vfsinpi .. | .vfcospi .. | .vftanh .. | .afadd .. | .afmin ..
  | .afmax .. | .redfadd .. => [6, 7, 8].contains t
  | .vdot4 .. => [4, 5].contains t
  | .vdot4m .. => t = 4
  | .vdot8 .. => t = 14
  | .vfdot4 .. => [9, 10, 11, 12].contains t
  | .vfdot8 .. => t = 13
  | .vred .. | .vscan .. => t ≤ 8 || t = 14
  | .redmin .. | .redmax .. => t ≤ 1
  | _ => true

/-! ### Invariants -/

/-- The bytes of BSM and scratchpads that a saved context holds are in canonical form. -/
def Snapshot.LocalOk (z : Snapshot) : Prop := (∀ b ∈ z.blocks, b.bsm.wf = true) ∧ ∀ k ∈ z.spans, k.spad.wf = true

/-- Every memory of the dies, running or saved, is in canonical form. -/
structure State.LocalOk (s : State) : Prop where
  bsm : ∀ b ∈ s.x.blocks, b.bsm.wf = true
  spad : ∀ k ∈ s.x.spans, k.spad.wf = true
  sram : ∀ d ∈ s.x.dies, d.2.loupe.sram.wf = true
  saves : ∀ z ∈ s.ctl.saves, z.LocalOk
  negatives : ∀ d ∈ s.x.dies, ∀ n, d.2.negative = some n → n.snap.LocalOk

/-- Every engine operation, running or saved, has a number that the device has given out. -/
structure State.OpsOld (s : State) : Prop where
  ops : ∀ o ∈ s.x.ops, o.id < s.nextOp
  saves : ∀ z ∈ s.ctl.saves, ∀ o ∈ z.ops, o.id < s.nextOp
  negatives : ∀ d ∈ s.x.dies, ∀ n, d.2.negative = some n → ∀ o ∈ n.snap.ops, o.id < s.nextOp

/-- MODE is legal in a path and in its pending entries (03 R55). -/
def Path.ModeOk (p : Path) : Prop := modeLegal p.mode = true ∧ ∀ e ∈ p.stack, modeLegal e.mode = true

/-- MODE is legal wherever lanes of a warp stand, frozen or not. -/
structure Warp.ModeOk (w : Warp) : Prop where
  p0 : ∀ p, w.p0 = some p → p.ModeOk
  p1 : ∀ p, w.p1 = some p → p.ModeOk
  groups : ∀ g ∈ w.groups, ∀ a ∈ g.arrivals, modeLegal a.mode = true
  frozen : ∀ f, w.frozen = some f →
    (∀ p, f.p0 = some p → p.ModeOk) ∧ (∀ p, f.p1 = some p → p.ModeOk) ∧ ∀ g ∈ f.groups, ∀ a ∈ g.arrivals, modeLegal a.mode = true

/-- MODE is legal in every warp, running or saved. -/
structure State.ModeOk (s : State) : Prop where
  warps : ∀ w ∈ s.x.warps, w.ModeOk
  saves : ∀ z ∈ s.ctl.saves, ∀ w ∈ z.warps, w.ModeOk
  negatives : ∀ d ∈ s.x.dies, ∀ n, d.2.negative = some n → ∀ w ∈ n.snap.warps, w.ModeOk

end Sys2Proof.Machine
end

