-- ==== Sys2Proof/Certificates/Slice0/Obligations.lean ====
section
/-! DEFINITION. The statements about this machine, for the provers. Each docstring names the rules of spec/ that it
formalises; a value or behaviour that the model chose is named with its log entry. -/

open Sys2Proof Sys2Proof.Machine

/-- 10 R171 and 24 R343 in the model's words: main and host memory stay in their one canonical form, addresses rising and no zero
byte listed, at every step. -/
def Obligations.MainMemoryStaysCanonical : Prop :=
  ∀ s t : State, s.mem.wf = true → step s = .next t → t.mem.wf = true

/-- The memories of the dies (BSM, scratchpads, loupe SRAM), running or saved, stay in canonical form at every step. -/
def Obligations.LocalMemoriesStayCanonical : Prop :=
  ∀ s t : State, s.LocalOk → step s = .next t → t.LocalOk

/-- Every engine operation keeps a number below the next one that the device gives out, at every step: no number is given twice. -/
def Obligations.OperationNumbersStayFresh : Prop :=
  ∀ s t : State, s.OpsOld → step s = .next t → t.OpsOld

/-- 03 R55: MODE stays legal at every step, in every path, pending entry and group of every warp, running, frozen or saved: SETMODE
and RESUME, the instructions that write a new value, refuse an illegal one. -/
def Obligations.ModeStaysLegal : Prop :=
  ∀ s t : State, s.ModeOk → step s = .next t → t.ModeOk

/-- 28 R386, 27 R370, R372: after a reset the device is up, holds no launch, block or warp, its memory lists nothing, no session is
open and no queue is served; every invariant stated below holds. The device that comes up is the full X40
(notes/assumptions/4.md, the model's choice). 04 R58, 03 R53, 07 R126: a warp starts with one path over all its lanes at the
entry PC, with MODE 0, ix 0 and no outstanding write; every scalar register, vector lane and lane status reads zero; spill stack,
staging, batches and profile stack are empty. -/
def Obligations.ResetAndStartState : Prop :=
  (State.reset.ctl.power = .up ∧ State.reset.time = 0 ∧ State.reset.mem = [] ∧ State.reset.x.launches = [] ∧
   State.reset.x.blocks = [] ∧ State.reset.x.warps = [] ∧ (∀ i q, (State.reset.queue i q).weight = 0) ∧
   (∀ i q, State.reset.queueServed i q = false) ∧ (∀ i, (State.reset.iface i).session = none) ∧
   (∀ i, (State.reset.iface i).enabled = decide (i = 0)) ∧ (∀ d, (State.reset.die d).world = 0) ∧
   State.reset.ctl.map = DefectMap.full ∧
   State.reset.mem.wf = true ∧ State.reset.LocalOk ∧ State.reset.OpsOld ∧ State.reset.ModeOk) ∧
  (∀ (r : WarpRef) (entry sched : Nat) (now : DWord),
     let w := Warp.fresh r entry sched now
     (∃ p, w.p0 = some p ∧ p.pc = BitVec.ofNat 32 entry ∧ p.mode = 0 ∧ p.ix = 0 ∧ p.writes = [] ∧ p.pending = [] ∧
       p.late = [] ∧ p.stack = [] ∧ p.lanes = BitVec.allOnes 32 ∧ p.park = .none) ∧
     w.p1 = none ∧ w.groups = [] ∧ w.exited = 0 ∧ (∀ n, get0 w.sregs n = 0) ∧ (∀ n, get0 w.vregs n = 0) ∧
     (∀ n, get0 w.status n = 0) ∧ w.spill = [] ∧ w.closes = 0 ∧ w.doneCloses = 0 ∧ w.errors = [] ∧ w.forest = none ∧
     w.prof = [] ∧ w.frozen = none ∧ w.ended = false)

/-- 03 R40 to R46: decoding undoes encoding. The bytes of the words of a well-formed instruction, whatever follows
them, decode to that instruction with every operand, and its successor lies behind them. -/
def Obligations.EncodedInstructionsDecode : Prop :=
  ∀ (i : Instr) (rest : List Byte), i.wf = true → encode i ≠ [] →
    decode (codeBytes (encode i) ++ rest) = .instr i (4 * (encode i).length)

/-- 03 R48, R49: a word that decodes is the encoding of the instruction that it decodes to, which is well-formed: no word that
breaks a check of 03 R49 is an instruction, and no instruction has two encodings. -/
def Obligations.DecodedWordsReencode : Prop :=
  ∀ (w lit : Word) (rest : List Byte) (i : Instr) (len : Nat),
    decode (bytesOf w ++ bytesOf lit ++ rest) = .instr i len →
    i.wf = true ∧ (len = 4 ∧ encode i = [w] ∨ len = 8 ∧ encode i = [w, lit])

/-- 03 R48: a word whose OP is unassigned is no instruction, whatever its other bits and whatever follows it; the path that
issues it faults ILLEGAL_OPCODE. The all-zero word and the all-ones word are such words, and every OP from 0x1A0. 03 R52: a fetch
of an instruction word at or beyond the end of the code image faults ILLEGAL_OPCODE as an issue fault, with the successor FPC + 4;
one of a word with L = 1 whose literal word alone lies beyond the end, with the successor FPC + 8. The model's choices: an
unassigned word whose bit 0 is set has the successor FPC + 4 too (notes/assumptions/28.md), and a word that breaks a check of R49
while its literal lies beyond the end faults ILLEGAL_OPCODE (notes/assumptions/47.md). -/
def Obligations.FetchFaults : Prop :=
  (assignedOp 0x000 = false ∧ (∀ op, 0x1A0 ≤ op → assignedOp op = false) ∧
   (∀ (w : Word) (rest : List Byte), assignedOp (fieldOp w).toNat = false → decode (bytesOf w ++ rest) = .illegalOpcode 4) ∧
   ∀ (s : State) (who : Issuer) (late : List Issuer) (c : Ctx) (w : Word) (rest : List Byte), (s.issuing who late).ctx? = some c →
     ((s.imageOf c.l).drop c.p.pc.toNat).take 8 = bytesOf w ++ rest → assignedOp (fieldOp w).toNat = false →
     s.issue who late = .next (c.issueFault .illegalOpcode 4)) ∧
  (∀ (s : State) (who : Issuer) (late : List Issuer) (c : Ctx), (s.issuing who late).ctx? = some c →
     ((s.imageOf c.l).length ≤ c.p.pc.toNat → s.issue who late = .next (c.issueFault .illegalOpcode 4)) ∧
     ∀ w : Word, (s.imageOf c.l).drop c.p.pc.toNat = bytesOf w → assignedOp (fieldOp w).toNat = true →
       (fieldOp w).toNat ≠ 0x146 → fieldL w = true → s.issue who late = .next (c.issueFault .illegalOpcode 8))

/-- Words that chapters 02, 03, 06 (R94) and 08 write out decode to the instructions that they stand for, and the reserved ones
among them to none. -/
def Obligations.WorkedEncodingsDecode : Prop :=
  decode (bytesOf 0x01820206) = .instr (.sdiv false 4 2 (.reg 3)) 4 ∧
  decode (bytesOf 0x18008001 ++ bytesOf 7) = .instr (.vmov false 1 (.lit 7)) 8 ∧
  decode (bytesOf 0x90018101 ++ bytesOf 0x64) = .instr (.vadd true 3 1 (.lit 0x64)) 8 ∧
  decode (bytesOf 0x38420301 ++ bytesOf 0x80000001) = .instr (.vshdn false 4 3 (.lit 0x80000001)) 8 ∧
  decode (bytesOf 0x0A800000) = .instr (.exit false) 4 ∧
  decode (bytesOf 0x5188428C) = .instr (.mma false 2 4 1 1 6) 4 ∧
  decode (bytesOf 0xD18842FE) = .instr (.mma true 2 4 1 1 63) 4 ∧
  decode (bytesOf 0x08C00301 ++ bytesOf 0xFFFFFFF8) = .instr (.bnz false 3 0xFFFFFFF8) 8 ∧
  decode (bytesOf 0x41BE0201 ++ bytesOf 0) = .instr (.ld128 false 124 2 (.lit 0)) 8 ∧
  decode (bytesOf 0x41830201 ++ bytesOf 0) = .reservedField 8 ∧
  decode (bytesOf 0) = .illegalOpcode 4 ∧ decode (bytesOf 0xFFFFFFFF) = .illegalOpcode 4

/-- 04 R62: a step that gives a path its turn runs the instruction that the bytes at its PC decode to; bytes that decode to none
fault as issue faults. The rest is the model's choice (notes/assumptions/1.md, 22.md, 23.md): that an agenda in the state says
which path issues, beside which paths that are late (with no fetched word or no free pipe), or which event happens; that a listed
path which its scheduler does not choose then (07 R134) does nothing; that before either the device clocks of the entry pass, and
a grain window that ends with them is closed, by the event itself where that is the closing; and that behind either the faults
that have waited for outstanding writes are delivered and the collective engine goes on. -/
def Obligations.StepRunsTheDecodedInstruction : Prop :=
  ∀ (s : State) (n : Nat) (r : List Slated),
    (∀ who late, s.agenda = ⟨n, .issue who late⟩ :: r →
      let s0 := (({ s with agenda := r } : State).pass n).windowed
      (s0.mayIssue who late = false → step s = .next s0) ∧
      (s0.mayIssue who late = true → ∀ c, (s0.issuing who late).ctx? = some c →
        let bytes := ((s0.imageOf c.l).drop c.p.pc.toNat).take 8
        (∀ i len, decode bytes = .instr i len → step s = afterAct (exec i (s0.issuing who late))) ∧
        (∀ len, decode bytes = .illegalOpcode len → step s = afterAct (.next (c.issueFault .illegalOpcode len))) ∧
        (∀ len, decode bytes = .reservedField len → step s = afterAct (.next (c.issueFault .reservedField len))))) ∧
    ∀ i, s.agenda = ⟨n, .event i⟩ :: r →
      let s1 := ({ s with agenda := r } : State).pass n
      let s0 := if i = .grainWindowBoundary then s1 else s1.windowed
      step s = match afterAct (exec i { s0 with issuer := none }) with
        | .next t => .next t.bump
        | o => o

/-- 03 R50, R51: a direct register field, FVEC included, that names a vector register at or beyond the warp's allotment, or a
group that reaches beyond it, faults REG_BOUNDS at issue, before the guard, the member set and the element type are looked at. Fields reach only v0 to v127. -/
def Obligations.RegisterBoundsFault : Prop :=
  (∀ (i : Instr) (s : State) (c : Ctx), s.ctx? = some c → (∃ n ∈ directVregs i, c.l.record.regs ≤ n) →
    exec i s = .next (c.issueFault .regBounds (4 * (encode i).length))) ∧
  ∀ i : Instr, i.wf = true → ∀ n ∈ directVregs i, n < 128

/-- 06 R88: an instruction that lists element types and issues under another one faults ILLEGAL_MODE as an issue fault does, after
the register check and before the guard. 06 R120, R121: so does a conversion whose pair of types its form does not take, or whose
part lies beyond the word. -/
def Obligations.TypeFaultsPrecedeTheGuard : Prop :=
  (∀ (i : Instr) (s : State) (c : Ctx), s.ctx? = some c → (∀ n ∈ directVregs i, n < c.l.record.regs) →
     acceptsType c.etype i = false → exec i s = .next (c.issueFault .illegalMode (4 * (encode i).length))) ∧
  ∀ (s : State) (c : Ctx), s.ctx? = some c → ∀ (m : Bool) (d a : Field) (lit : Word),
    d.toNat < c.l.record.regs → a.toNat < c.l.record.regs →
    let t := lit.toNat % 16
    let ws := elemWidth c.etype
    let wt := elemWidth t
    let part := lit.toNat / 16 % 8 < max ws wt / min ws wt
    let fl (t : Nat) : Prop := 6 ≤ t ∧ t ≤ 13
    let int (t : Nat) : Prop := t ≤ 5 ∨ t = 14
    let same := fl c.etype ∧ fl t ∨ int c.etype ∧ int t
    let faults (i : Instr) : Prop := exec i s = .next (c.issueFault .illegalMode 8)
    (¬(same ∧ ws ≤ wt ∧ part) → faults (.vcvtw m d a lit)) ∧
    (¬(same ∧ wt ≤ ws ∧ part) → faults (.vcvtn m d a lit)) ∧
    (¬(fl c.etype ∧ int t ∧ part) → faults (.vcvtfi m d a lit)) ∧
    (¬(int c.etype ∧ fl t ∧ part) → faults (.vcvtif m d a lit))

/-- 11 R192: the check of an access, in its order. It fails with the first of: no such place for the bytes (09 R161 to
R165), a misaligned address, in tripod mode a place or scope it may not use, a locked range; else it gives the place.
19 R283, R284, 06 R90, R103, 11 R192 to R194, R199: lane faults are lane-precise. Under TRAPDIV the lanes of a vector division
that raise a flag fault DIVIDE, the others get their results. The lanes of a load, store, atomic or RED whose check fails fault
with its kind, the access size and the address, and a lane that reads a BSM word with an uncorrectable error faults SOFT_ERROR;
the others' accesses are performed: loads bring their values, and outside tripod mode, where nothing is buffered, stored bytes
hold the value of a lane that covers them, the read-modify-writes follow one another in some order, and no other byte changes. One fault is delivered, which names every faulting
lane; while a splice operation owes the warp a result, the instruction waits instead, without effect (04 R69). A scalar access
whose check fails faults the path. Of a scalar load of such a word, and of a scalar instruction that reads an s-register with an
uncorrectable error, each lane of the path faults (the model's choice, notes/assumptions/45.md). -/
def Obligations.AccessChecksAndLaneFaults : Prop :=
  (∀ (c : Ctx) (k : AccKind) (x : Word) (n : Nat),
     let wide := k = .atomic ∧ 2 ≤ modeScope c.p.mode
     let bad (q : Place) : Prop :=
       c.l.record.tripod = true ∧ ((x.toNat / 2 ^ 28 = 1 ∧ q ≠ .bsm c.l.uid c.ref.block) ∨ wide)
     (localPlace c.l c.ref.block x n = none → c.check k x n = .error .outOfRange) ∧
     ∀ q o, localPlace c.l c.ref.block x n = some (q, o) →
       (x.toNat % n ≠ 0 → c.check k x n = .error .misaligned) ∧
       (x.toNat % n = 0 → bad q → c.check k x n = .error .tripodScope) ∧
       (x.toNat % n = 0 → ¬bad q → c.locked k x q o n = true → c.check k x n = .error .rangeLocked) ∧
       (x.toNat % n = 0 → ¬bad q → c.locked k x q o n = false → c.check k x n = .ok (q, o)) ∧
       (c.p.drawn = none → c.locked k x q o n = c.s.rangeLocked c.l c.ref k q o n) ∧
       (x.toNat < 2 ^ 18 → q = .bsm c.l.uid c.ref.block ∧ o = x.toNat ∧ o + n ≤ c.l.record.bsmLimit)) ∧
  (∀ (s : State) (c : Ctx), s.ctx? = some c → ∀ (m : Bool) (d a : Field) (b : Src),
     intTypes c = true → modeTrapDiv c.p.mode = true → c.Ready (d.toNat :: a.toNat :: b.vregs) →
       let w := elemWidth c.etype
       let x (l k : Nat) : Nat := elemAt (c.v a.toNat l).toNat w k
       let y (l k : Nat) : Nat := elemAt (c.vb b l).toNat w k
       let dz (l : Nat) : Bool := (List.range (32 / w)).any fun k => decide (y l k = 0)
       let ov (l : Nat) : Bool := (List.range (32 / w)).any fun k => decide (x l k = 2 ^ (w - 1) ∧ y l k = 2 ^ w - 1)
       let run (i : Instr) (bad : Nat → Bool) (f : Nat → Nat → Nat) : Prop := (∃ l ∈ lanesOf c.active, bad l = true) →
         ∃ val : Nat → Word,
           (Runs i s fun t => c.LaneFaults t (c.next b.len)
             (((lanesOf c.active).filter fun l => !bad l).map fun l => (.v d.toNat l, val l)) .divide
             (((lanesOf c.active).filter bad).map fun l => ⟨l, .divide, 0, 0⟩)) ∧
           ∀ l ∈ lanesOf c.active, bad l = false → ∀ k, k < 32 / w → elemAt (val l).toNat w k = f (x l k) (y l k)
       run (.vdiv m d a b) (fun l => dz l || ov l) (fun x y => wrapN w ((sext x w).tdiv (sext y w))) ∧
       run (.vrem m d a b) (fun l => dz l || ov l) (fun x y => wrapN w ((sext x w).tmod (sext y w))) ∧
       run (.vdivn m d a b) dz (fun x y => x / y) ∧
       run (.vremn m d a b) dz (fun x y => x % y)) ∧
  (∀ (s : State) (c0 : Ctx), s.ctx? = some c0 → ∀ (m : Bool) (d a : Field) (b : Src),
     let c := c0.redrawn
     let quiet : Prop := c.w.onLoupe? = none ∨ c.p.passed = true
     let at' (k : AccKind) (n : Nat) (x : Nat → Word) (l : Nat) : Option LaneEntry := match c.check k (x l) n with
       | .error e => some ⟨l, e, n, x l⟩
       | .ok y => if k ≠ .store ∧ s.softAt y.1 y.2 n = true then some ⟨l, .softError, 0, 0⟩ else none
     let good (k : AccKind) (n : Nat) (x : Nat → Word) : List Nat := (lanesOf c.active).filter fun l => (at' k n x l).isNone
     let access (k : AccKind) (n : Nat) (x : Nat → Word) (regs : List Nat)
         (P : (Nat → Place) → (Nat → Nat) → List Nat → FaultKind → List LaneEntry → Prop) : Prop :=
       ∀ (q : Nat → Place) (o : Nat → Nat) (e : LaneEntry) (es : List LaneEntry),
         (lanesOf c.active).filterMap (at' k n x) = e :: es → (∀ l ∈ good k n x, c.check k (x l) n = .ok (q l, o l)) →
         quiet → c.Ready regs → P q o (good k n x) e.kind (e :: es)
     let sum (l : Nat) : Word := c.v a.toNat l + c.sb b
     let regs (k : Nat) : List Nat := (List.range k).map (d.toNat + ·) ++ [a.toNat]
     let load (i : Instr) (n k : Nat) (word : Nat → Nat → Word) : Prop :=
       access .load n sum (regs k) fun q o ls e es => Runs i s fun t => c.LaneFaults t (c.next b.len)
         (ls.flatMap fun l => (List.range k).map fun j =>
           (.v (d.toNat + j) l, word (leNat (s.loadBytes c.l c.ref (q l) (o l) n)) j)) e es
     let zext (x j : Nat) : Word := BitVec.ofNat 32 (x / 2 ^ (32 * j))
     let value (k l : Nat) : Nat := leNat (((List.range k).map fun j => leBytes 4 (c.v (d.toNat + j) l).toNat).flatten)
     let store (i : Instr) (n k : Nat) : Prop := access .store n sum (regs k) fun q o ls e es =>
       let covers (l : Nat) (p : Place) (a : Nat) : Prop := q l = p ∧ o l ≤ a ∧ a < o l + n
       c.l.record.tripod = false →
       (s.splicing c.ref = true → Runs i s fun t => c.Parks t c.w .drain) ∧
       (s.splicing c.ref = false → ∃ s', OnlyLocal s s' ∧
         (Runs i s fun t => ({ c with s := s' } : Ctx).LaneFaults t (c.next b.len) [] e es) ∧
         (∀ p a, (∀ l ∈ ls, ¬covers l p a) → s'.placeByte p a = s.placeByte p a) ∧
         ∀ p a, (∃ l ∈ ls, covers l p a) → s.PlaceOk p →
           ∃ l ∈ ls, covers l p a ∧ s'.placeByte p a = BitVec.ofNat 8 (value k l / 256 ^ (a - o l)))
     let rmw (i : Instr) (k : AccKind) (regs : List Nat) (ret : Bool) (f : Nat → Word → Word) : Prop :=
       access k 4 (fun l => c.v a.toNat l) regs fun q o ls e es =>
         c.l.record.tripod = false → (∀ l ∈ ls, s.PlaceOk (q l)) →
         (s.splicing c.ref = true → Runs i s fun t => c.Parks t c.w .drain) ∧
         (s.splicing c.ref = false → ∃ s' order, order.Perm ls ∧ OnlyLocal s s' ∧
           let z := rmwSeq (fun l => (q l, o l)) f order s.placeWord
           (Runs i s fun t => ({ c with s := s' } : Ctx).LaneFaults t (c.next b.len)
             (if ret then z.2.map fun x => (.v d.toNat x.1, x.2) else []) e es) ∧
           (∀ l ∈ ls, s'.placeWord (q l, o l) = z.1 (q l, o l)) ∧
           ∀ p x, (∀ l ∈ ls, ¬(q l = p ∧ o l ≤ x ∧ x < o l + 4)) → s'.placeByte p x = s.placeByte p x)
     let atomic (i : Instr) (f : Word → Word → Word) : Prop :=
       rmw i .atomic (d.toNat :: a.toNat :: b.vregs) true fun l old => f old (c.vb b l)
     let red (i : Instr) (f : Word → Word → Word) : Prop :=
       rmw i .red (a.toNat :: b.vregs) false fun l old => f old (c.vb b l)
     let sless (x y : Word) : Bool := decide (x.toInt ≤ y.toInt)
     let uless (x y : Word) : Bool := decide (x.toNat ≤ y.toNat)
     load (.ld8 m d a b) 1 1 zext ∧
     load (.ld8s m d a b) 1 1 (fun x _ => (BitVec.ofNat 8 x).signExtend 32) ∧
     load (.ld16 m d a b) 2 1 zext ∧
     load (.ld16s m d a b) 2 1 (fun x _ => (BitVec.ofNat 16 x).signExtend 32) ∧
     load (.ld32 m d a b) 4 1 zext ∧ load (.ldacq32 m d a b) 4 1 zext ∧
     load (.ld64 m d a b) 8 2 zext ∧ load (.ld128 m d a b) 16 4 zext ∧
     store (.st8 m d a b) 1 1 ∧ store (.st16 m d a b) 2 1 ∧ store (.st32 m d a b) 4 1 ∧ store (.strel32 m d a b) 4 1 ∧
     store (.st64 m d a b) 8 2 ∧ store (.st128 m d a b) 16 4 ∧
     atomic (.aadd m d a b) (fun x y => x + y) ∧ atomic (.aand m d a b) (fun x y => x &&& y) ∧
     atomic (.aor m d a b) (fun x y => x ||| y) ∧ atomic (.axor m d a b) (fun x y => x ^^^ y) ∧
     atomic (.amin m d a b) (fun x y => if sless x y then x else y) ∧
     atomic (.amax m d a b) (fun x y => if sless x y then y else x) ∧
     atomic (.aminn m d a b) (fun x y => if uless x y then x else y) ∧
     atomic (.amaxn m d a b) (fun x y => if uless x y then y else x) ∧
     atomic (.aexch m d a b) (fun _ y => y) ∧
     rmw (.acas m d a b) .atomic (d.toNat :: a.toNat :: b.vregs) true
       (fun l old => if old = c.v d.toNat l then c.vb b l else old) ∧
     red (.redadd m a b) (fun x y => x + y) ∧ red (.redand m a b) (fun x y => x &&& y) ∧
     red (.redor m a b) (fun x y => x ||| y) ∧ red (.redxor m a b) (fun x y => x ^^^ y) ∧
     (c.etype = 0 → red (.redmin m a b) (fun x y => if sless x y then x else y) ∧
       red (.redmax m a b) (fun x y => if sless x y then y else x)) ∧
     (c.etype = 1 → red (.redmin m a b) (fun x y => if uless x y then x else y) ∧
       red (.redmax m a b) (fun x y => if uless x y then y else x)) ∧
     (fpTypes c = true → atomic (.afadd m d a b) (fun x y => fpAtomic c.etype (addF 0) x y) ∧
       atomic (.afmin m d a b) (fun x y => fpAtomic c.etype (minmaxF false) x y) ∧
       atomic (.afmax m d a b) (fun x y => fpAtomic c.etype (minmaxF true) x y) ∧
       red (.redfadd m a b) (fun x y => fpAtomic c.etype (addF 0) x y))) ∧
  ∀ (s : State) (c0 : Ctx), s.ctx? = some c0 → ∀ (m : Bool) (d a : Field) (b : Src),
    let c := c0.redrawn
    let lanes := c.p.lanes &&& c.onlyMask
    let one (i : Instr) (k : AccKind) (n : Nat) (data : List Nat) : Prop :=
      let x := c.sr a.toNat + c.sb b
      (∀ e, c.check k x n = .error e → Runs i s fun t => ∃ f,
        let s' : State := { s with free := f }
        t = { ({ c with s := s' } : Ctx).pathFault s' e n x ⟨m, b.len, [], sRd a :: b.sregs ++ data⟩ with free := t.free }) ∧
      ∀ q o, c.check k x n = .ok (q, o) → k = .load → s.softAt q o n = true → lanes ≠ 0 → Runs i s fun t =>
        c.LaneFaults t (c.next b.len) [] .softError (faultsOf .softError (lanesOf lanes))
    (c.SoundS → one (.sld32 m d a b) .load 4 [] ∧ one (.sld64 m d a b) .load 8 [] ∧
      one (.sst32 m d a b) .store 4 [sRd d] ∧ one (.sst64 m d a b) .store 8 [sRd d, sRd d + 1]) ∧
    (c.softAt (sRd a, 0) = true → lanes ≠ 0 →
      ∀ i ∈ [Instr.sadd m d a b, .ssub m d a b, .smul m d a b, .smulh m d a b, .smulhn m d a b, .sand m d a b, .sor m d a b,
        .sxor m d a b, .sandn m d a b, .sshl m d a b, .sshr m d a b, .ssra m d a b, .smin m d a b, .smax m d a b,
        .sminn m d a b, .smaxn m d a b, .sbfx m d a b, .sceq m d a b, .scne m d a b, .sclt m d a b, .scle m d a b,
        .scltn m d a b, .sclen m d a b, .sld32 m d a b, .sld64 m d a b, .sst32 m d a b, .sst64 m d a b],
        Runs i s fun t => c0.LaneFaults t (c0.next b.len) [] .softError (faultsOf .softError (lanesOf lanes)))

/-- 10 R185, R186, 11 R203: in tripod mode a store, an atomic or a reduction goes to its warp's commit buffer, in ascending lane order, and
no byte of memory changes; each buffered write takes 8 bytes and its data rounded up to 8. Where the buffer's 8,192 bytes do not
hold the instruction's writes, its frame ends before it, and it issues again in the next. An atomic gives each lane the word
that the warp sees, the buffered writes of the lanes before it included. -/
def Obligations.TripodWritesAreBuffered : Prop :=
  ∀ (s : State) (c0 : Ctx), s.ctx? = some c0 → c0.l.record.tripod = true → ∀ (m : Bool) (d a : Field) (b : Src),
    let c := c0.redrawn
    let regs (k : Nat) : List Nat := (List.range k).map (d.toNat + ·) ++ [a.toNat]
    let bytes (n k l : Nat) : List Byte := (((List.range k).map fun j => leBytes 4 (c.v (d.toNat + j) l).toNat).flatten).take n
    let writes (i : Instr) (k : AccKind) (n : Nat) (x : Nat → Word) (len : Nat) (rs : List Nat)
        (entry : Place → Nat → Nat → BufEntry) : Prop := ∀ q o, c.AccessOk k n x q o → c.Ready rs →
      let ls := lanesOf c.active
      let used := c.w.frame.used + ls.length * (8 + (n + 7) / 8 * 8)
      (used ≤ 8192 → ∃ s', OnlyExt s s' ∧ Runs i s fun t => ({ c with s := s' } : Ctx).Done t
        { c.w with frame := { c.w.frame with used := used, buf := c.w.frame.buf ++ ls.map fun l => entry (q l) (o l) l } }
        c.p (c.next len) m []) ∧
      (8192 < used → Runs i s fun t => OnlyWarp s t c.ref ∧
        t.warp? c.ref = some { c.w with frame := { c.w.frame with ended := true } })
    let store (i : Instr) (n k : Nat) : Prop :=
      writes i .store n (fun l => c.v a.toNat l + c.sb b) b.len (regs k) fun q o l => .store q o (bytes n k l)
    let red (i : Instr) (op : RedOp) : Prop :=
      writes i .red 4 (fun l => c.v a.toNat l) b.len (a.toNat :: b.vregs) fun q o l => .red q o op c.etype (c.vb b l)
    store (.st8 m d a b) 1 1 ∧ store (.st16 m d a b) 2 1 ∧ store (.st32 m d a b) 4 1 ∧ store (.strel32 m d a b) 4 1 ∧
    store (.st64 m d a b) 8 2 ∧ store (.st128 m d a b) 16 4 ∧
    red (.redadd m a b) .add ∧ red (.redand m a b) .and ∧ red (.redor m a b) .or ∧ red (.redxor m a b) .xor ∧
    (c.etype ≤ 1 → red (.redmin m a b) .min ∧ red (.redmax m a b) .max) ∧
    (fpTypes c = true → red (.redfadd m a b) .fadd) ∧
    (let sstore (i : Instr) (k : Nat) : Prop := ∀ q o, c.check .store (c.sr a.toNat + c.sb b) (4 * k) = .ok (q, o) →
      (c.w.onLoupe? = none ∨ c.p.passed = true) → c.SoundS →
      let used := c.w.frame.used + (8 + (4 * k + 7) / 8 * 8)
      let bs : List Byte := ((List.range k).map fun j => leBytes 4 (c.sr (d.toNat + j)).toNat).flatten
      (used ≤ 8192 → ∃ s', OnlyExt s s' ∧ Runs i s fun t => ({ c with s := s' } : Ctx).Done t
        { c.w with frame := { c.w.frame with used := used, buf := c.w.frame.buf ++ [.store q o bs] } } c.p (c.next b.len) m []) ∧
      (8192 < used → Runs i s fun t => OnlyWarp s t c.ref ∧
        t.warp? c.ref = some { c.w with frame := { c.w.frame with ended := true } })
    sstore (.sst32 m d a b) 1 ∧ sstore (.sst64 m d a b) 2) ∧
    let atomic (i : Instr) (f : Nat → Word → Word) : Prop := ∀ q o,
      c.AccessOk .atomic 4 (fun l => c.v a.toNat l) q o → c.Ready (d.toNat :: a.toNat :: b.vregs) →
      let ls := lanesOf c.active
      let used := c.w.frame.used + 16 * ls.length
      (used ≤ 8192 → ∃ (s' : State) (old : Nat → Word), OnlyExt s s' ∧
        (let at' (k l : Nat) : Prop := q k = q l ∧ o k = o l
          ∀ l ∈ ls, ((∀ k ∈ ls, k < l → ¬at' k l) → old l = s.loadWord c.l c.ref (q l) (o l)) ∧
            ∀ k ∈ ls, k < l → at' k l → (∀ j ∈ ls, k < j → j < l → ¬at' j l) → old l = f k (old k)) ∧
        Runs i s fun t => ({ c with s := s' } : Ctx).Done t
          { c.w with frame := { c.w.frame with
            used := used, buf := c.w.frame.buf ++ ls.map fun l => .store (q l) (o l) (leBytes 4 (f l (old l)).toNat) } }
          c.p (c.next b.len) m (laneSet c.active d.toNat old)) ∧
      (8192 < used → Runs i s fun t => OnlyWarp s t c.ref ∧
        t.warp? c.ref = some { c.w with frame := { c.w.frame with ended := true } })
    let with' (g : Word → Word → Word) (l : Nat) (x : Word) : Word := g x (c.vb b l)
    atomic (.aadd m d a b) (with' fun x y => x + y) ∧
    atomic (.aand m d a b) (with' fun x y => x &&& y) ∧
    atomic (.aor m d a b) (with' fun x y => x ||| y) ∧
    atomic (.axor m d a b) (with' fun x y => x ^^^ y) ∧
    atomic (.amin m d a b) (with' fun x y => if x.toInt ≤ y.toInt then x else y) ∧
    atomic (.amax m d a b) (with' fun x y => if x.toInt ≤ y.toInt then y else x) ∧
    atomic (.aminn m d a b) (with' fun x y => if x.toNat ≤ y.toNat then x else y) ∧
    atomic (.amaxn m d a b) (with' fun x y => if x.toNat ≤ y.toNat then y else x) ∧
    atomic (.aexch m d a b) (with' fun _ y => y) ∧
    atomic (.acas m d a b) (fun l x => if x = c.v d.toNat l then c.vb b l else x) ∧
    (fpTypes c = true →
      atomic (.afadd m d a b) (with' fun x y => fpAtomic c.etype (addF 0) x y) ∧
      atomic (.afmin m d a b) (with' fun x y => fpAtomic c.etype (minmaxF false) x y) ∧
      atomic (.afmax m d a b) (with' fun x y => fpAtomic c.etype (minmaxF true) x y))

/-- 19 R284, R287 to R289: what the delivery of one fault of a block that has not been stopped does (one that has been has no
further fault, 24 R353). Both live paths' writes have landed and the record is reserved.
Under ABORT, or within a continuation, the launch stops and every resident block of it; under LANE_KILL the faulting lanes exit
and the launch ends FAULTED; under CONTINUE the trap context lies in BSM behind the block's own bytes, the divergence state is
frozen, and one path over every non-exited lane stands at CONT with the context's address, the kind and the record's index in s0,
s1 and s2, which hold no uncorrectable error then; under LOUPE the warp is paused at its instruction and leaves for a free slot of its die's loupe cores, where one may
take it, or waits for one behind the warps that wait already (20 R294). -/
def Obligations.FaultDelivery : Prop :=
  ∀ (s : State) (r : WarpRef) (slot : Bool) (cls : FaultClass) (kind : FaultKind) (es : List LaneEntry) (fmask : LaneMask)
    (fpc npc : Word) (c : Ctx), (s.landBoth r).ctxAt? r slot = some c →
    (c.b.stopped = true → s.deliverCore r slot cls kind es fmask fpc npc = s.landBoth r) ∧
    (c.b.stopped = false →
    let z := (s.landBoth r).faultRecord r.launch ⟨fmask, fpc, r.block, r.warp, c.w.pathBit slot, cls, kind⟩ es
    let t := s.deliverCore r slot cls kind es fmask fpc npc
    let stops : Prop := (∃ l, t.launch? r.launch = some l ∧ l.faulted = true ∧ l.stopping.isSome = true) ∧
      ∀ b ∈ t.x.blocks, b.launch = r.launch → b.stopped = true
    let plain := c.w.frozen = none
    let mayMove := (s.loupeSite? c.b.die).isSome = true ∧ s.debugAllowed c.l = true
    ((plain → c.l.record.policy = 0) → stops) ∧
    (plain → c.l.record.policy = 1 → (∃ l, t.launch? r.launch = some l ∧ l.faulted = true ∧ l.stopping = c.l.stopping) ∧
      t.warp? r = some (c.w.exitLanes fmask)) ∧
    (plain → c.l.record.policy = 2 →
      let addr := c.l.record.bsmSize + 256 * r.warp
      t.warp? r = some { c.w with
        frozen := some ⟨c.w.p0, c.w.p1, c.w.groups, slot, fpc, npc, fmask, c.p.lanes⟩
        p0 := some (Path.start (BitVec.ofNat 32 c.l.record.cont) (~~~c.w.exited)), p1 := none, groups := []
        sregs := put0 (put0 (put0 c.w.sregs 0 (BitVec.ofNat 32 addr)) 1 (BitVec.ofNat 32 kind.code)) 2 (BitVec.ofNat 32 z.2)
        soft := c.w.soft.filter fun e => !(decide (256 ≤ e.1) && decide (e.1 < 259)) } ∧
      (s.PlaceOk (.bsm r.launch r.block) → ∀ i < 256, t.placeByte (.bsm r.launch r.block) (addr + i) =
        BitVec.ofNat 8 (trapContext c.w slot cls kind fmask fpc npc z.2 / 256 ^ i))) ∧
    (plain → 2 < c.l.record.policy → mayMove → ∃ w, t.warp? r = some w ∧ w.loupe.pause = .fault cls slot fpc npc fmask ∧
      (∃ l, t.launch? r.launch = some l ∧ l.faulted = true ∧ l.stopping = c.l.stopping) ∧
      (c.w.onLoupe? ≠ none → w.loupe.place = c.w.loupe.place) ∧
      (c.w.onLoupe? = none → w.loupe.place = match c.w.loupe.place, z.1.slotFor r with
        | .leaving k n, _ => .leaving k n
        | _, some (k, n) => .leaving k n
        | .wanting n, none => .wanting n
        | _, none => .wanting z.1.nextOp)) ∧
    (plain → 2 < c.l.record.policy → ¬mayMove → stops))

/-- 19 R290: RESUME. The continuation ends: s0 to s2, MODE and ix of the faulted path come back from the trap context, and the
frozen paths and groups, without the lanes that have exited since; a group that now holds its wanted set completes (07 R138). RETRY
issues the instruction again at FPC in the lanes FMASK - M alone, and every lane of the path then goes on at NPC, as it does at
once where there is none; SKIP makes the lanes of M that the path holds exit and goes on at NPC. A context whose FMODE is illegal
stops the launch. Until a splice operation's results have landed RESUME waits (R317). The model's choice
(notes/assumptions/27.md): the instruction that issues again begins anew; no wait, no operand it waited with and no watchpoint
answer is left of its first issue. -/
def Obligations.ResumeReturns : Prop :=
  ∀ (s : State) (c : Ctx) (f : Frozen), s.ctx? = some c → c.w.frozen = some f → c.SoundS → ∀ (m : Bool) (d a : Field),
    d.toNat ≤ 1 →
    let mask : LaneMask := c.landed.sr a.toNat
    let word (k : Nat) : Word :=
      BitVec.ofNat 32 (leNat (s.readPlace (.bsm c.ref.launch c.ref.block) (c.l.record.bsmSize + 256 * c.ref.warp + k) 4))
    let gone : LaneMask := if d.toNat = 1 then c.w.exited ||| (mask &&& f.pmask) else c.w.exited
    let redo : LaneMask := f.fmask &&& ~~~mask &&& ~~~c.w.exited
    (modeLegal (word 24) = true → ∀ p, (if f.slot then f.p1 else f.p0) = some p → p.lanes &&& ~~~gone ≠ 0 →
      Runs (.resume m d a) s fun t => c.Drained t (∃ (w : Warp) (p' : Path), t.warp? c.ref = some (w.settle f.slot) ∧
        ((∀ g ∈ w.groups, g.complete w = false) → w.settle f.slot = w) ∧ w.groups = stripGroups gone f.groups ∧
        w.frozen = none ∧ w.path? f.slot = some p' ∧
        w.path? (!f.slot) = (if f.slot then f.p0 else f.p1).bind (fun o => o.rewait.strip gone) ∧
        w.sregs = put0 (put0 (put0 c.landed.w.sregs 0 (word 12)) 1 (word 16)) 2 (word 20) ∧ w.exited = gone ∧
        w.frame.turn = f.slot ∧
        p'.mode = word 24 ∧ p'.ix = word 28 ∧ p'.lanes = p.lanes &&& ~~~gone ∧ p'.waitStart = none ∧ p'.waitOn = none ∧
        p'.passed = false ∧ p'.park = .none ∧
        if d.toNat = 0 ∧ redo ≠ 0 then p'.pc = f.fpc ∧ p'.only = some redo ∧ p'.back = some f.npc
        else p'.pc = f.npc ∧ p'.only = none ∧ p'.back = none)) ∧
    (modeLegal (word 24) = false → Runs (.resume m d a) s fun t => c.Drained t
      (∃ l, t.launch? c.ref.launch = some l ∧ l.faulted = true ∧ l.stopping.isSome = true))

/-- 24 R343, R346: what a world reads of device DRAM. Of a unit of 64 bytes under its own key, and of host memory, it reads the
bytes; of a unit that was written under another key, what AES-256-XTS decryption under its own data key gives of that unit's
ciphertext under the other, the tweak being bits 51 to 6 of the physical address; nothing of any other unit bears on it. A world
reads back what it has written, whatever key the units were under. The values of the keys, and which bytes of a 512-bit key are
which of its two, are the model's free values and choice (notes/assumptions/9.md). -/
def Obligations.WorldsReadUnderTheirOwnKeys : Prop :=
  (∀ (s : State) (world pa n k : Nat), k < n → (s.readPhys world pa n)[k]? = some
     (if s.isDram (pa + k) = true ∧ s.unitKey (pa + k) ≠ s.keyOf world then
        let unit := (pa + k) / 64
        (xtsDecrypt (s.dataKey (s.keyOf world)) unit
          (xtsEncrypt (s.dataKey (s.unitKey (pa + k))) unit (readBytes s.mem (64 * unit) 64))).getD ((pa + k) % 64) 0
      else get0 s.mem (pa + k))) ∧
  (∀ (s t : State) (world pa n : Nat), s.memKeys = t.memKeys → s.ctl = t.ctl →
     (∀ a, pa / 64 ≤ a / 64 → a / 64 ≤ (pa + n) / 64 → get0 s.mem a = get0 t.mem a) →
     s.readPhys world pa n = t.readPhys world pa n) ∧
  ∀ (s : State) (world pa : Nat) (bs : List Byte), s.mem.wf = true → (s.memKeys.map Prod.fst).Pairwise (· < ·) →
    (s.writePhys world pa bs).readPhys world pa bs.length = bs

/-- 06 R91, with R92 to R94 for the forms it takes from there: what each scalar instruction writes to S(D), at once,
and that it touches nothing else, in a warp whose s-registers hold no uncorrectable error (else: `AccessChecksAndLaneFaults`). A
division that meets its trap condition under TRAPDIV faults DIVIDE instead. -/
def Obligations.ScalarIntegerResults : Prop :=
  ∀ (s : State) (c : Ctx), s.ctx? = some c → c.SoundS → ∀ (m : Bool) (d a : Field) (b : Src),
    let x := c.sr a.toNat
    let y := c.sb b
    let z := c.sr d.toNat
    let n := y.toNat % 256
    let p := y.toNat % 32
    let w := min (y.toNat / 256 % 64) (32 - p)
    let bin (i : Instr) (v : Word) : Prop := Runs i s fun t => c.Scalar t (c.next b.len) m d v
    let un (i : Instr) (f : Word → Prop) : Prop := ∃ v, f v ∧ Runs i s fun t => c.Scalar t (c.next 4) m d v
    bin (.sadd m d a b) (x + y) ∧
    bin (.ssub m d a b) (x - y) ∧
    bin (.smul m d a b) (x * y) ∧
    bin (.smulh m d a b) ((x.signExtend 64 * y.signExtend 64).extractLsb' 32 32) ∧
    bin (.smulhn m d a b) ((x.zeroExtend 64 * y.zeroExtend 64).extractLsb' 32 32) ∧
    (modeTrapDiv c.p.mode = false ∨ (y ≠ 0 ∧ ¬(x = BitVec.intMin 32 ∧ y = BitVec.allOnes 32)) →
      bin (.sdiv m d a b) (if y = 0 then BitVec.allOnes 32 else x.sdiv y) ∧
      bin (.srem m d a b) (if y = 0 then x else x.srem y)) ∧
    (modeTrapDiv c.p.mode = false ∨ y ≠ 0 →
      bin (.sdivn m d a b) (if y = 0 then BitVec.allOnes 32 else x / y) ∧
      bin (.sremn m d a b) (if y = 0 then x else x % y)) ∧
    (modeTrapDiv c.p.mode = true → y = 0 ∨ (x = BitVec.intMin 32 ∧ y = BitVec.allOnes 32) →
      ∀ i ∈ [Instr.sdiv m d a b, .srem m d a b], Runs i s fun t => t = c.readFault .divide ⟨m, b.len, [], sRd a :: b.sregs⟩) ∧
    (modeTrapDiv c.p.mode = true → y = 0 →
      ∀ i ∈ [Instr.sdivn m d a b, .sremn m d a b], Runs i s fun t => t = c.readFault .divide ⟨m, b.len, [], sRd a :: b.sregs⟩) ∧
    bin (.sand m d a b) (x &&& y) ∧
    bin (.sor m d a b) (x ||| y) ∧
    bin (.sxor m d a b) (x ^^^ y) ∧
    bin (.sandn m d a b) (x &&& ~~~y) ∧
    bin (.sshl m d a b) (x <<< n) ∧
    bin (.sshr m d a b) (x >>> n) ∧
    bin (.ssra m d a b) (x.sshiftRight n) ∧
    bin (.smin m d a b) (if x.toInt ≤ y.toInt then x else y) ∧
    bin (.smax m d a b) (if x.toInt ≤ y.toInt then y else x) ∧
    bin (.sminn m d a b) (if x.toNat ≤ y.toNat then x else y) ∧
    bin (.smaxn m d a b) (if x.toNat ≤ y.toNat then y else x) ∧
    bin (.sbfx m d a b) ((x >>> p) &&& BitVec.ofNat 32 (2 ^ w - 1)) ∧
    (∃ v : Word, (∀ i, i < 32 → v.getLsbD i = if p ≤ i ∧ i < p + w then x.getLsbD (i - p) else z.getLsbD i) ∧
      bin (.sbfi m d a b) v) ∧
    bin (.sceq m d a b) (if x = y then 1 else 0) ∧
    bin (.scne m d a b) (if x = y then 0 else 1) ∧
    bin (.sclt m d a b) (if x.toInt < y.toInt then 1 else 0) ∧
    bin (.scle m d a b) (if x.toInt ≤ y.toInt then 1 else 0) ∧
    bin (.scltn m d a b) (if x.toNat < y.toNat then 1 else 0) ∧
    bin (.sclen m d a b) (if x.toNat ≤ y.toNat then 1 else 0) ∧
    bin (.ssel m d a b) ((x &&& y) ||| (~~~x &&& z)) ∧
    bin (.smov m d b) y ∧
    un (.spopc m d a) (fun v => v.toNat = (List.range 32).countP fun i => x.getLsbD i) ∧
    un (.sclz m d a) (fun v => v.toNat ≤ 32 ∧ (∀ i, i < v.toNat → x.getLsbD (31 - i) = false) ∧
      (v.toNat < 32 → x.getLsbD (31 - v.toNat) = true)) ∧
    un (.sbrev m d a) (fun v => ∀ i, i < 32 → v.getLsbD (31 - i) = x.getLsbD i) ∧
    un (.sffs m d a) (fun v => v.toNat ≤ 32 ∧ (∀ i, i < v.toNat → x.getLsbD i = false) ∧
      (v.toNat < 32 → x.getLsbD v.toNat = true))

/-- 06 R102, with R93 for the shifts: the element that each binary integer form writes, lane by lane and element by element,
w the element width of an integer ETYPE; nothing but the Active lanes of vD is written. R103, R92: division, with the DZ and OV
bits of its lane; under TRAPDIV it runs so where no Active lane has a zero divisor or the overflow of the most negative value by
-1 (the other lanes: `AccessChecksAndLaneFaults`). -/
def Obligations.VectorArithmeticResults : Prop :=
  (∀ (s : State) (c : Ctx), s.ctx? = some c → intTypes c = true → ∀ (m : Bool) (d a : Field) (b : Src),
     c.Ready (d.toNat :: a.toNat :: b.vregs) →
     let w := elemWidth c.etype
     let bin (i : Instr) (f : Nat → Nat → Nat → Nat) : Prop := ∃ val : Nat → Word,
       (Runs i s fun t => c.Writes t (c.next b.len) m (laneSet c.active d.toNat val)) ∧
       ∀ l ∈ lanesOf c.active, ∀ k, k < 32 / w →
         elemAt (val l).toNat w k
           = f (elemAt (c.v a.toNat l).toNat w k) (elemAt (c.vb b l).toNat w k) (elemAt (c.v d.toNat l).toNat w k)
     bin (.vadd m d a b) (fun x y _ => (x + y) % 2 ^ w) ∧
     bin (.vsub m d a b) (fun x y _ => (x + (2 ^ w - y)) % 2 ^ w) ∧
     bin (.vmul m d a b) (fun x y _ => x * y % 2 ^ w) ∧
     bin (.vmulh m d a b) (fun x y _ => wrapN w (sext x w * sext y w / 2 ^ w)) ∧
     bin (.vmulhn m d a b) (fun x y _ => x * y / 2 ^ w) ∧
     bin (.vmad m d a b) (fun x y z => (x * y + z) % 2 ^ w) ∧
     bin (.vshl m d a b) (fun x y _ => x * 2 ^ y % 2 ^ w) ∧
     bin (.vshr m d a b) (fun x y _ => x / 2 ^ y) ∧
     bin (.vsra m d a b) (fun x y _ => wrapN w (sext x w / 2 ^ y)) ∧
     bin (.vmin m d a b) (fun x y _ => if sext x w ≤ sext y w then x else y) ∧
     bin (.vmax m d a b) (fun x y _ => if sext x w ≤ sext y w then y else x) ∧
     bin (.vminn m d a b) (fun x y _ => min x y) ∧
     bin (.vmaxn m d a b) (fun x y _ => max x y)) ∧
  (∀ (s : State) (c : Ctx), s.ctx? = some c → intTypes c = true → ∀ (m : Bool) (d a : Field) (b : Src),
     c.Ready (d.toNat :: a.toNat :: b.vregs) →
     let w := elemWidth c.etype
     let x (l k : Nat) : Nat := elemAt (c.v a.toNat l).toNat w k
     let y (l k : Nat) : Nat := elemAt (c.vb b l).toNat w k
     let dz (l : Nat) : Bool := (List.range (32 / w)).any fun k => decide (y l k = 0)
     let ov (l : Nat) : Bool := (List.range (32 / w)).any fun k => decide (x l k = 2 ^ (w - 1) ∧ y l k = 2 ^ w - 1)
     let run (i : Instr) (st : Nat → Nat) (f : Nat → Nat → Nat) : Prop :=
       (modeTrapDiv c.p.mode = false ∨ ∀ l ∈ lanesOf c.active, st l = 0) →
       ∃ val : Nat → Word,
         (Runs i s fun t => c.Writes t (c.next b.len) m (laneSetSt c.active d.toNat val st)) ∧
         ∀ l ∈ lanesOf c.active, ∀ k, k < 32 / w → elemAt (val l).toNat w k = f (x l k) (y l k)
     let sst (l : Nat) : Nat := 8 * b2n (dz l) + 32 * b2n (ov l)
     let ust (l : Nat) : Nat := 8 * b2n (dz l)
     run (.vdiv m d a b) sst (fun x y => if y = 0 then 2 ^ w - 1 else wrapN w ((sext x w).tdiv (sext y w))) ∧
     run (.vrem m d a b) sst (fun x y => if y = 0 then x else wrapN w ((sext x w).tmod (sext y w))) ∧
     run (.vdivn m d a b) ust (fun x y => if y = 0 then 2 ^ w - 1 else x / y) ∧
     run (.vremn m d a b) ust (fun x y => if y = 0 then x else x % y))

/-- 06 R104: the unary integer forms, element by element, with OV for the most negative value under a signed ETYPE. R105,
R106: the forms on whole lane words, under any ETYPE. R107: an integer compare writes one scalar register, whose bit is 1 exactly
in the Active lanes in which the condition holds for every element. R108: VGETST reads, VCLRST clears lane status. -/
def Obligations.VectorUnaryWordCompareResults : Prop :=
  (∀ (s : State) (c : Ctx), s.ctx? = some c → intTypes c = true → ∀ (m : Bool) (d a : Field),
     c.Ready [d.toNat, a.toNat] →
     let w := elemWidth c.etype
     let sg := isSigned c.etype
     let x (l k : Nat) : Nat := elemAt (c.v a.toNat l).toNat w k
     let ov (l : Nat) : Nat :=
       if sg ∧ (List.range (32 / w)).any (fun k => decide (x l k = 2 ^ (w - 1))) then 32 else 0
     let run (i : Instr) (st : Nat → Nat) (f : Nat → Nat → Prop) : Prop :=
       ∃ val : Nat → Word,
         (Runs i s fun t => c.Writes t (c.next 4) m (laneSetSt c.active d.toNat val st)) ∧
         ∀ l ∈ lanesOf c.active, ∀ k, k < 32 / w → f (x l k) (elemAt (val l).toNat w k)
     run (.vabs m d a) ov (fun x v => v = if sg ∧ 2 ^ (w - 1) ≤ x then 2 ^ w - x else x) ∧
     run (.vneg m d a) ov (fun x v => v = (2 ^ w - x) % 2 ^ w) ∧
     run (.vpopc m d a) (fun _ => 0) (fun x v => v = ((List.range w).countP fun i => x.testBit i) % 2 ^ w) ∧
     run (.vclz m d a) (fun _ => 0) (fun x v => v ≤ w ∧ x < 2 ^ (w - v) ∧ (v < w → 2 ^ (w - v - 1) ≤ x)) ∧
     run (.vbrev m d a) (fun _ => 0) (fun x v => ∀ i, i < w → v.testBit (w - 1 - i) = x.testBit i)) ∧
  (∀ (s : State) (c : Ctx), s.ctx? = some c → ∀ (m : Bool) (d a : Field) (b : Src),
     let set (i : Instr) (len : Nat) (val : Nat → Word) : Prop :=
       Runs i s fun t => c.Writes t (c.next len) m (laneSet c.active d.toNat val)
     (c.Ready (d.toNat :: a.toNat :: b.vregs) →
       set (.vand m d a b) b.len (fun l => c.v a.toNat l &&& c.vb b l) ∧
       set (.vor m d a b) b.len (fun l => c.v a.toNat l ||| c.vb b l) ∧
       set (.vxor m d a b) b.len (fun l => c.v a.toNat l ^^^ c.vb b l) ∧
       set (.vandn m d a b) b.len (fun l => c.v a.toNat l &&& ~~~(c.vb b l)) ∧
       (∃ val : Nat → Word, set (.vbfx m d a b) b.len val ∧ ∀ l ∈ lanesOf c.active,
         let p := (c.vb b l).toNat % 32
         let w := min ((c.vb b l).toNat / 256 % 64) (32 - p)
         ∀ i, i < 32 → (val l).getLsbD i
           = if i < w then (c.v a.toNat l).getLsbD (p + i)
             else isSigned c.etype && decide (w ≠ 0) && (c.v a.toNat l).getLsbD (p + w - 1)) ∧
       (∃ val : Nat → Word, set (.vbfi m d a b) b.len val ∧ ∀ l ∈ lanesOf c.active,
         let p := (c.vb b l).toNat % 32
         let w := min ((c.vb b l).toNat / 256 % 64) (32 - p)
         ∀ i, i < 32 → (val l).getLsbD i
           = if p ≤ i ∧ i < p + w then (c.v a.toNat l).getLsbD (i - p) else (c.v d.toNat l).getLsbD i)) ∧
     (c.Ready (d.toNat :: b.vregs) → set (.vmov m d b) b.len (fun l => c.vb b l)) ∧
     (c.Ready [d.toNat] →
       set (.vsplat m d a) 4 (fun _ => c.sr a.toNat) ∧
       (a.toNat = 0 → set (.vget m d a) 4 (fun l => BitVec.ofNat 32 l)) ∧
       (a.toNat = 1 → set (.vget m d a) 4 (fun l => BitVec.ofNat 32 (l / 4))) ∧
       (a.toNat = 2 → set (.vget m d a) 4 fun l => BitVec.ofNat 32
         (blockX c.l.record c.b.id * c.l.record.warps * 32 + c.ref.warp * 32 + l)) ∧
       (a.toNat = 3 → set (.vget m d a) 4 (fun _ => BitVec.ofNat 32 (blockY c.l.record c.b.id))) ∧
       (a.toNat = 4 → set (.vget m d a) 4 (fun _ => BitVec.ofNat 32 (blockZ c.l.record c.b.id))))) ∧
  (∀ (s : State) (c : Ctx), s.ctx? = some c → ∀ (m : Bool) (d a : Field) (b : Src),
     (intTypes c = true → c.Ready (a.toNat :: b.vregs) →
       let w := elemWidth c.etype
       let mask (i : Instr) (f : Int → Int → Prop) : Prop := ∃ v : Word,
         (Runs i s fun t => c.Writes t (c.next b.len) m [(.s d.toNat, v)]) ∧
         ∀ l, l < 32 → (v.getLsbD l = true ↔ c.active.getLsbD l = true ∧ ∀ k, k < 32 / w →
           f (asInt (elemAt (c.v a.toNat l).toNat w k) w (isSigned c.etype))
             (asInt (elemAt (c.vb b l).toNat w k) w (isSigned c.etype)))
       mask (.vceq m d a b) (fun x y => x = y) ∧
       mask (.vcne m d a b) (fun x y => x ≠ y) ∧
       mask (.vclt m d a b) (fun x y => x < y) ∧
       mask (.vcle m d a b) (fun x y => x ≤ y)) ∧
     (c.Ready [d.toNat] →
       Runs (.vgetst m d) s fun t => c.Writes t (c.next 4) m (laneSet c.active d.toNat fun l => c.status l)) ∧
     (c.SoundS → Runs (.vclrst m b) s fun t => c.Writes t (c.next b.len) m
       ((lanesOf c.active).map fun l => (.stClr l, c.sb b &&& 0x3F))))

/-- 06 R109, R110, R112, R114, R116: the floating-point arithmetic forms, element by element: the exact result or special
value of the operands' values, rounded once under MODE.RND and MODE.SAT, and the status bits of all elements of a lane
together. A lane that meets a trap condition which MODE has armed faults instead (05 R81, 06 R109, R115). That the special
functions of R116 (VFRCP to VFTANH) are exact where their value is irrational is the model's assumption (UNVERIFIED,
notes/assumptions/7.md): it takes such a value by its first 440 bits. -/
def Obligations.FloatArithmeticResults : Prop :=
  ∀ (s : State) (c : Ctx), s.ctx? = some c → fpTypes c = true → ∀ (m : Bool) (d a : Field) (b : Src),
    let w := elemWidth c.etype
    let x (l k : Nat) : FVal := elemVal c.etype (elemAt (c.v a.toNat l).toNat w k)
    let y (l k : Nat) : FVal := elemVal c.etype (elemAt (c.vb b l).toNat w k)
    let z (l k : Nat) : FVal := elemVal c.etype (elemAt (c.v d.toNat l).toNat w k)
    let run (i : Instr) (len : Nat) (f : Nat → Nat → Res) : Prop :=
      let out (l k : Nat) : Nat × Nat := roundTo c.etype c.rnd c.sat (f l k).1
      let st (l : Nat) : Nat := (List.range (32 / w)).foldl (fun e k => e ||| ((out l k).2 ||| (f l k).2)) 0
      ∃ val : Nat → Word,
        (Runs i s fun t => c.Lanes t len m (lanesOf c.active) d.toNat val st) ∧
        ∀ l ∈ lanesOf c.active, ∀ k, k < 32 / w → elemAt (val l).toNat w k = (out l k).1 % 2 ^ w
    (c.Ready (d.toNat :: a.toNat :: b.vregs) →
      run (.vfadd m d a b) b.len (fun l k => addF c.rnd (x l k) (y l k)) ∧
      run (.vfsub m d a b) b.len (fun l k => addF c.rnd (x l k) (negVal (y l k))) ∧
      run (.vfmul m d a b) b.len (fun l k => mulF (x l k) (y l k)) ∧
      run (.vfma m d a b) b.len (fun l k => fmaF c.rnd (x l k) (y l k) (z l k)) ∧
      run (.vfms m d a b) b.len (fun l k => fmaF c.rnd (x l k) (y l k) (negVal (z l k))) ∧
      run (.vfnma m d a b) b.len (fun l k => fmaF c.rnd (negVal (x l k)) (y l k) (z l k)) ∧
      run (.vfdiv m d a b) b.len (fun l k => divF (x l k) (y l k)) ∧
      run (.vfmin m d a b) b.len (fun l k => minmaxF false (x l k) (y l k)) ∧
      run (.vfmax m d a b) b.len (fun l k => minmaxF true (x l k) (y l k))) ∧
    (c.Ready [d.toNat, a.toNat] →
      run (.vfsqrt m d a) 4 (fun l k => sqrtF (x l k)) ∧
      run (.vfrint m d a) 4 (fun l k => rintF c.rnd (x l k)) ∧
      run (.vfrcp m d a) 4 (fun l k => rcpF (x l k)) ∧
      run (.vfrsq m d a) 4 (fun l k => rsqF (x l k)) ∧
      run (.vfexp2 m d a) 4 (fun l k => exp2F (x l k)) ∧
      run (.vflog2 m d a) 4 (fun l k => log2F (x l k)) ∧
      run (.vfsinpi m d a) 4 (fun l k => sinpiF (x l k)) ∧
      run (.vfcospi m d a) 4 (fun l k => cospiF (x l k)) ∧
      run (.vftanh m d a) 4 (fun l k => tanhF (x l k)))

/-- 05 R79, 06 R110, R112, R114, R116: on finite operands the sum, the product, the fused product and sum, the quotient and the
reciprocal are the exact reals rounded once: the code of a nonzero result is the one that `roundRat`, which follows 05 R78 and R79
over the rational numbers, gives for the rational result. VFMIN and VFMAX give the smaller and the larger operand, -0 below +0, and
of a NaN and a value the value; VFRINT the rounded integer, with NX when it differs; square root and reciprocal square root the
root's first bits, at least 60 of them, with whether more follow. The special functions give the results of R116's table for its
special inputs, and 2^x, log2 x, sin(πx) and cos(πx) exactly where R116 names an exact result (x an integer, a power of two, an
integer, an integer and a half). -/
def Obligations.FloatResultsAreRoundedReals : Prop :=
  ∀ (t rnd : Nat) (sat : Bool) (f : FloatFmt), isFpType t = true → rnd ≤ 4 → floatFmt t = some f →
    ∀ (m n k : Bool) (p q r : Nat) (e g h : Int),
      let x : ℚ := ratOf m p e
      let y : ℚ := ratOf n q g
      let z : ℚ := ratOf k r h
      let is (o : Res) (v : ℚ) : Prop := v ≠ 0 → (roundTo t rnd sat o.1).1 = roundRat f rnd sat v ∧ o.2 = 0
      is (addF rnd (.fin m p e) (.fin n q g)) (x + y) ∧
      is (mulF (.fin m p e) (.fin n q g)) (x * y) ∧
      is (fmaF rnd (.fin m p e) (.fin n q g) (.fin k r h)) (x * y + z) ∧
      (q ≠ 0 → is (divF (.fin m p e) (.fin n q g)) (x / y)) ∧
      (p ≠ 0 → is (rcpF (.fin m p e)) (1 / x)) ∧
      (x < y ∨ (x = y ∧ m = true ∧ n = false) → ∀ takeMax, minmaxF takeMax (.fin m p e) (.fin n q g) =
        (if takeMax then FVal.exact (.fin n q g) else FVal.exact (.fin m p e), 0)) ∧
      (∀ takeMax a b, minmaxF takeMax (.nan a) (.fin m p e) = (FVal.exact (.fin m p e), if a then 16 else 0) ∧
        minmaxF takeMax (.fin m p e) (.nan a) = (FVal.exact (.fin m p e), if a then 16 else 0) ∧
        minmaxF takeMax (.nan a) (.nan b) = (.nan false, if a || b then 16 else 0)) ∧
      rintF rnd (.fin m p e) = (.fin m (roundNatRat rnd m |x|) 0 false, if (roundNatRat rnd m |x| : ℚ) = |x| then 0 else 1) ∧
      (p ≠ 0 → (∃ a u st, sqrtF (.fin false p e) = (.fin false a u st, 0) ∧ 2 ^ 60 ≤ a ∧ (ratOf false a u) ^ 2 ≤ |x| ∧
          |x| < (ratOf false (a + 1) u) ^ 2 ∧ (st = false ↔ (ratOf false a u) ^ 2 = |x|)) ∧
        (∃ a u st, rsqF (.fin false p e) = (.fin false a u st, 0) ∧ 2 ^ 60 ≤ a ∧ (ratOf false a u) ^ 2 * |x| ≤ 1 ∧
          1 < (ratOf false (a + 1) u) ^ 2 * |x| ∧ (st = false ↔ (ratOf false a u) ^ 2 * |x| = 1)) ∧
        sqrtF (.fin true p e) = (.nan false, 16) ∧ rsqF (.fin true p e) = (.nan false, 16) ∧
        log2F (.fin true p e) = (.nan false, 16)) ∧
      (p = 0 → rcpF (.fin m p e) = (.inf m, 8) ∧ rsqF (.fin m p e) = (.inf m, 8) ∧ log2F (.fin m p e) = (.inf true, 8) ∧
        sqrtF (.fin m p e) = (.fin m 0 0 false, 0) ∧ tanhF (.fin m p e) = (.fin m 0 0 false, 0)) ∧
      (rcpF (.inf m) = (.fin m 0 0 false, 0) ∧ rsqF (.inf false) = (.fin false 0 0 false, 0) ∧ rsqF (.inf true) = (.nan false, 16) ∧
        exp2F (.inf true) = (.fin false 0 0 false, 0) ∧ exp2F (.inf false) = (.inf false, 0) ∧
        log2F (.inf false) = (.inf false, 0) ∧ log2F (.inf true) = (.nan false, 16) ∧ sinpiF (.inf m) = (.nan false, 16) ∧
        cospiF (.inf m) = (.nan false, 16) ∧ tanhF (.inf m) = (.fin m 1 0 false, 0)) ∧
      ∀ i : ℤ, (x = i → |i| ≤ 2000 → exp2F (.fin m p e) = (.fin false 1 i false, 0)) ∧
        (x = (2 : ℚ) ^ i → log2F (.fin m p e) = (.fin (decide (i < 0)) i.natAbs 0 false, 0)) ∧
        (x = i → sinpiF (.fin m p e) = (.fin m 0 0 false, 0)) ∧
        (x = i + 1 / 2 → cospiF (.fin m p e) = (.fin false 0 0 false, 0))

/-- 06 R111 to R113: sign operations, VFCLASS and the floating-point compares. A compare's bit is 1 exactly in the
Active lanes in which its condition holds for every element. Under TRAPNV a lane with a signalling operand, for VFCLT and VFCLE
any NaN, faults INVALID_OP, and its bit is 0; that the sign operations VFABS, VFNEG and VFCPSGN fault so too is read from the rule
by inference (notes/assumptions/26.md). -/
def Obligations.FloatSignAndCompareResults : Prop :=
  ∀ (s : State) (c : Ctx), s.ctx? = some c → fpTypes c = true → ∀ (m : Bool) (d a : Field) (b : Src),
    let w := elemWidth c.etype
    let canon : Nat := if c.etype = 6 then 0x7FC00000 else if c.etype = 7 then 0x7E00 else 0x7FC0
    let e (l k : Nat) : Nat := elemAt (c.v a.toNat l).toNat w k
    let g (l k : Nat) : Nat := elemAt (c.vb b l).toNat w k
    let x (l k : Nat) : FVal := elemVal c.etype (e l k)
    let y (l k : Nat) : FVal := elemVal c.etype (g l k)
    let some' (f : Nat → Bool) : Bool := (List.range (32 / w)).any f
    let sign (i : Instr) (len : Nat) (neg : Nat → Nat → Bool) : Prop :=
      let st (l : Nat) : Nat := if some' fun k => decide (x l k = .nan true) then stNV else 0
      ∃ val : Nat → Word,
        (Runs i s fun t => c.Lanes t len m (lanesOf c.active) d.toNat val st) ∧
        ∀ l ∈ lanesOf c.active, ∀ k, k < 32 / w → elemAt (val l).toNat w k
          = if (x l k).isNaN then canon else e l k % 2 ^ (w - 1) + b2n (neg l k) * 2 ^ (w - 1)
    let cmp (i : Instr) (nv : Nat → Nat → Bool) (holds : Nat → Nat → Prop) : Prop :=
      let st (l : Nat) : Nat := if some' (nv l) then stNV else 0
      let trap (l : Nat) : Bool := modeTrapNv c.p.mode && decide (st l ≠ 0)
      let bad := (lanesOf c.active).filter trap
      ∃ v : Word,
        (Runs i s fun t =>
          let ws := (.s d.toNat, v) :: ((lanesOf c.active).filter fun l => !trap l).flatMap fun l =>
            if st l = 0 then [] else [(.stSet l, BitVec.ofNat 32 (st l))]
          if bad = [] then c.Writes t (c.next b.len) m ws
          else c.LaneFaults t (c.next b.len) ws .invalidOp (bad.map fun l => ⟨l, .invalidOp, 0, 0⟩)) ∧
        ∀ l, l < 32 → (v.getLsbD l = true ↔ c.active.getLsbD l = true ∧ trap l = false ∧ ∀ k, k < 32 / w → holds l k)
    let nan (l k : Nat) : Bool := (x l k).isNaN || (y l k).isNaN
    let snan (l k : Nat) : Bool := decide (x l k = .nan true) || decide (y l k = .nan true)
    (c.Ready [d.toNat, a.toNat] →
      sign (.vfabs m d a) 4 (fun _ _ => false) ∧
      sign (.vfneg m d a) 4 (fun l k => !(e l k).testBit (w - 1)) ∧
      ∃ val : Nat → Word,
        (Runs (.vfclass m d a) s fun t => c.Writes t (c.next 4) m (laneSet c.active d.toNat val)) ∧
        ∀ l ∈ lanesOf c.active, ∀ k, k < 32 / w →
          elemAt (val l).toNat w k = fclass ((floatFmt c.etype).getD f32) (e l k)) ∧
    (c.Ready (d.toNat :: a.toNat :: b.vregs) → sign (.vfcpsgn m d a b) b.len (fun l k => (g l k).testBit (w - 1))) ∧
    (c.Ready (a.toNat :: b.vregs) →
      cmp (.vfceq m d a b) snan (fun l k => nan l k = false ∧ cmpVal (x l k) (y l k) = 0) ∧
      cmp (.vfclt m d a b) nan (fun l k => nan l k = false ∧ cmpVal (x l k) (y l k) < 0) ∧
      cmp (.vfcle m d a b) nan (fun l k => nan l k = false ∧ cmpVal (x l k) (y l k) ≤ 0) ∧
      cmp (.vfcun m d a b) snan (fun l k => nan l k = true))

/-- 06 R117 to R119: the packed dot products into the accumulator vD, and the decode of five trits into a pair. Under TRAPNV a
lane with an invalid condition faults INVALID_OP instead, which for VFDOT4 and VFDOT8 is read from the rules by inference
(notes/assumptions/26.md). -/
def Obligations.PackedResults : Prop :=
  ∀ (s : State) (c : Ctx), s.ctx? = some c → ∀ (m : Bool) (d a : Field) (b : Src) (lit : Word),
    let sum (w n : Nat) (sx sy : Bool) (l : Nat) : Int :=
      (List.range n).foldl (fun t k => t + asInt (elemAt (c.v a.toNat l).toNat w k) w sx * asInt (elemAt (c.vb b l).toNat w k) w sy) 0
    let dot (i : Instr) (w n : Nat) (sx sy : Bool) : Prop := Runs i s fun t => c.Writes t (c.next b.len) m
      (laneSet c.active d.toNat fun l => c.v d.toNat l + BitVec.ofInt 32 (sum w n sx sy l))
    let fdot (i : Instr) (w n : Nat) : Prop :=
      let el (x : Word) : List FVal := (List.range n).map fun k => elemVal c.etype (elemAt x.toNat w k)
      let e (l : Nat) : Res := dotFp c.rnd (f32Val (c.v d.toNat l)) (el (c.v a.toNat l)) (el (c.vb b l))
      let st (l : Nat) : Nat := (roundF f32 c.rnd false (e l).1).2 ||| (e l).2
      Runs i s fun t => c.Lanes t b.len m (lanesOf c.active) d.toNat
        (fun l => BitVec.ofNat 32 (roundF f32 c.rnd false (e l).1).1) st
    (c.Ready (d.toNat :: a.toNat :: b.vregs) →
      (c.etype = 4 → dot (.vdot4 m d a b) 8 4 true true) ∧
      (c.etype = 5 → dot (.vdot4 m d a b) 8 4 false false) ∧
      (c.etype = 4 → dot (.vdot4m m d a b) 8 4 true false) ∧
      (c.etype = 14 → dot (.vdot8 m d a b) 4 8 true true) ∧
      (9 ≤ c.etype → c.etype ≤ 12 → fdot (.vfdot4 m d a b) 8 4) ∧
      (c.etype = 13 → fdot (.vfdot8 m d a b) 4 8)) ∧
    (c.Ready [d.toNat, d.toNat + 1, a.toNat] → lit.toNat < 4 →
      let byte (l : Nat) : Nat := elemAt (c.v a.toNat l).toNat 8 lit.toNat
      let st (l : Nat) : Nat := if byte l ≤ 242 then 0 else stNV
      let trap (l : Nat) : Bool := modeTrapNv c.p.mode && decide (242 < byte l)
      let bad := (lanesOf c.active).filter trap
      ∃ lo hi : Nat → Word,
        (Runs (.vunp5 m d a lit) s fun t =>
          let ws := ((lanesOf c.active).filter fun l => !trap l).flatMap fun l =>
            (.v d.toNat l, lo l) :: (.v (d.toNat + 1) l, hi l) ::
              if st l = 0 then [] else [(.stSet l, BitVec.ofNat 32 (st l))]
          if bad = [] then c.Writes t (c.next 8) m ws
          else c.LaneFaults t (c.next 8) ws .invalidOp (bad.map fun l => ⟨l, .invalidOp, 0, 0⟩)) ∧
        ∀ l ∈ lanesOf c.active, ∀ j, j < 8 →
          elemAt ((lo l).toNat + 2 ^ 32 * (hi l).toNat) 8 j
            = if byte l ≤ 242 ∧ j < 5 then wrapN 8 (((trits (byte l)).1).getD j 0) else 0)

/-- 06 R120, R121: the conversions between element types of different or equal widths. Element j of the part takes the
converted element, every other element of a narrowing keeps its old value. Under TRAPNV a lane with an invalid condition faults
INVALID_OP instead. -/
def Obligations.ConversionResults : Prop :=
  ∀ (s : State) (c : Ctx), s.ctx? = some c → ∀ (m : Bool) (d a : Field) (lit : Word), c.Ready [d.toNat, a.toNat] →
    let t := lit.toNat % 16
    let p := lit.toNat / 16 % 8
    let ws := elemWidth c.etype
    let wt := elemWidth t
    let src (l k : Nat) : Nat := elemAt (c.v a.toNat l).toNat ws k
    let out (l k : Nat) : Nat × Nat := roundTo t c.rnd c.sat (elemExact c.etype (src l k))
    let wide := decide (ws ≤ wt)
    let used : List Nat := if wide then (List.range (32 / wt)).map fun j => p * (32 / wt) + j else List.range (32 / ws)
    let st (l : Nat) : Nat := used.foldl (fun e k => e ||| (out l k).2) 0
    let run (i : Instr) : Prop :=
      p < max ws wt / min ws wt →
      ∃ val : Nat → Word,
        (Runs i s fun t => c.Lanes t 8 m (lanesOf c.active) d.toNat val st) ∧
        ∀ l ∈ lanesOf c.active, ∀ j, j < 32 / wt → elemAt (val l).toNat wt j
          = if wide then (out l (p * (32 / wt) + j)).1 % 2 ^ wt
            else if p * (32 / ws) ≤ j ∧ j < p * (32 / ws) + 32 / ws then (out l (j - p * (32 / ws))).1 % 2 ^ wt
            else elemAt (c.v d.toNat l).toNat wt j
    let fl (t : Nat) : Prop := 6 ≤ t ∧ t ≤ 13
    let int (t : Nat) : Prop := t ≤ 5 ∨ t = 14
    ((fl c.etype ∧ fl t ∨ int c.etype ∧ int t) → ws ≤ wt → run (.vcvtw m d a lit)) ∧
    ((fl c.etype ∧ fl t ∨ int c.etype ∧ int t) → wt ≤ ws → run (.vcvtn m d a lit)) ∧
    (fl c.etype → int t → run (.vcvtfi m d a lit)) ∧
    (int c.etype → fl t → run (.vcvtif m d a lit))

/-- 06 R95 to R98, R100, 04 R61: the control instructions of one path. RET and BRX fault MISALIGNED for a target that is no
multiple of 4. A legal value of MODE has RND at most 4, SCOPE at most 5 and bits [31:28] zero (03 R55; on the X40 every mask
fits its register); SETMODE faults ILLEGAL_MODE for any other. Stated where no s-register of the warp holds an uncorrectable error
(19 R283). -/
def Obligations.ControlResults : Prop :=
  ∀ (s : State) (c : Ctx), s.ctx? = some c → c.SoundS → ∀ (m : Bool) (d a : Field) (b : Src) (lit : Word),
    let go (i : Instr) (npc : Word) : Prop := Runs i s fun t => c.Writes t npc m []
    let v := c.sb b
    go (.nop m) (c.p.pc + 4) ∧
    go (.bra m lit) (c.p.pc + lit) ∧
    go (.bz m a lit) (if c.sr a.toNat = 0 then c.p.pc + lit else c.p.pc + 8) ∧
    go (.bnz m a lit) (if c.sr a.toNat = 0 then c.p.pc + 8 else c.p.pc + lit) ∧
    (Runs (.call m d lit) s fun t => c.Scalar t (c.p.pc + lit) m d (c.p.pc + 8)) ∧
    (c.sr a.toNat &&& 3 = 0 → go (.ret m a) (c.sr a.toNat) ∧ go (.brx m a) (c.sr a.toNat)) ∧
    (c.sr a.toNat &&& 3 ≠ 0 →
      let faults (i : Instr) : Prop := Runs i s fun t => t = c.pathFault s .misaligned 0 (c.sr a.toNat) ⟨m, 4, [], [sRd a]⟩
      faults (.ret m a) ∧ faults (.brx m a)) ∧
    (Runs (.loop m d lit) s fun t =>
      c.Scalar t (if c.sr d.toNat = 1 then c.p.pc + 8 else c.p.pc + lit) m d (c.sr d.toNat - 1)) ∧
    (v.toNat / 2 ^ 19 % 8 ≤ 4 → v.toNat / 2 ^ 24 % 8 ≤ 5 → v.toNat < 2 ^ 28 →
      Runs (.setmode m b) s fun t => c.Done t c.w { c.p with mode := v } (c.next b.len) m []) ∧
    (¬(v.toNat / 2 ^ 19 % 8 ≤ 4 ∧ v.toNat / 2 ^ 24 % 8 ≤ 5 ∧ v.toNat < 2 ^ 28) →
      Runs (.setmode m b) s fun t => t = c.pathFault s .illegalMode 0 0 ⟨m, b.len, [], b.sregs⟩) ∧
    (Runs (.getmode m d) s fun t => c.Scalar t (c.p.pc + 4) m d c.p.mode) ∧
    Runs (.setix m b) s fun t => c.Done t c.w { c.p with ix := v } (c.next b.len) m []

/-- 07 R137, 08 R144: BRD. The path's writes land; S(D) becomes the mask of the path. With T the Active lanes whose word is
nonzero and N the path's other lanes, Active or not, the path goes on whole when T or N is empty; else T goes on at the label in
this slot and N at PC + 8 in the other slot, or below on the pending stack when that slot holds a path. A stack of 16 entries
takes none: DIVERGE_DEPTH, with S(D) unwritten. The model's choices: while a splice operation owes the warp a result the BRD waits
(notes/assumptions/31.md; `SpliceInstructionResults`); a BRD that a RETRY has put back writes S(D) and goes on whole at the NPC of
its fault (19 R290, notes/assumptions/27.md). -/
def Obligations.DivergentBranchResults : Prop :=
  ∀ (s : State) (c : Ctx), s.ctx? = some c → s.splicing c.ref = false → ∀ (m : Bool) (d a : Field) (lit : Word),
    c.Ready [a.toNat] →
    let v := c.landed
    let t := maskWhere v.active fun l => decide (v.v a.toNat l ≠ 0)
    let n := v.p.lanes &&& ~~~t
    let w := { v.w with sregs := put0 v.w.sregs d.toNat v.p.lanes }
    (c.p.back ≠ none → Runs (.brd m d a lit) s fun u => v.Done u w v.p (c.next 8) false []) ∧
    (c.p.back = none →
    (t = 0 → Runs (.brd m d a lit) s fun u => v.Done u w v.p (c.p.pc + 8) false []) ∧
    (t ≠ 0 → n = 0 → Runs (.brd m d a lit) s fun u => v.Done u w v.p (c.p.pc + lit) false []) ∧
    (t ≠ 0 → n ≠ 0 → v.w.path? (!c.slot) = none → Runs (.brd m d a lit) s fun u => OnlyWarp v.s u c.ref ∧
      ∃ x y z, u.warp? c.ref = some x ∧ x.path? c.slot = some y ∧ x.path? (!c.slot) = some z ∧
        x.sregs = w.sregs ∧ x.vregs = w.vregs ∧ x.status = w.status ∧ x.groups = w.groups ∧ x.exited = w.exited ∧
        y.pc = c.p.pc + lit ∧ y.lanes = t ∧ y.stack = v.p.stack ∧ y.writes = [] ∧ y.park = .none ∧
        z.pc = c.p.pc + 8 ∧ z.lanes = n ∧ z.stack = [] ∧ z.writes = [] ∧ z.park = .none ∧
        y.mode = v.p.mode ∧ y.ix = v.p.ix ∧ z.mode = v.p.mode ∧ z.ix = v.p.ix) ∧
    (∀ o, t ≠ 0 → n ≠ 0 → v.w.path? (!c.slot) = some o → v.p.stack.length < 16 →
      Runs (.brd m d a lit) s fun u => OnlyWarp v.s u c.ref ∧
      ∃ x y, u.warp? c.ref = some x ∧ x.path? c.slot = some y ∧ x.path? (!c.slot) = some o ∧ x.sregs = w.sregs ∧
        y.pc = c.p.pc + lit ∧ y.lanes = t ∧ y.writes = [] ∧ y.park = .none ∧ y.mode = v.p.mode ∧ y.ix = v.p.ix ∧
        y.stack = ⟨c.p.pc + 8, n, v.p.mode, v.p.ix, none⟩ :: v.p.stack) ∧
    (∀ o, t ≠ 0 → n ≠ 0 → v.w.path? (!c.slot) = some o → 16 ≤ v.p.stack.length →
      Runs (.brd m d a lit) s fun u => u = v.pathFault v.s .divergeDepth 0 0 ⟨m, 8, [], []⟩))

/-- 07 R138, 08 R145: a JOIN. Its path's writes land; when its group holds, with the path's lanes, every non-exited lane that it
wants (the lanes of its mask, the lanes that arrived, and those that a JOIN_CYCLE took out of it, 07 R139), it completes: it goes
on at PC + 4 (or, put back by a RETRY, at the NPC of its fault, 19 R290) as one path over all of them, in this slot and over its
pending stack, with MODE and ix of the path that brought the lowest of these lanes; the group is gone, and nothing else of the
device changes. 06 R99: EXIT completes. The lanes of the path
have exited, whatever becomes of the warp; when they were its last, the warp has ended and holds no path and no group; where its
other path lives and nothing else of it is held, in a group or pending, that path goes on as it was. (While a splice operation
owes the warp a result both wait: `SpliceInstructionResults`.) -/
def Obligations.JoinAndExitResults : Prop :=
  (∀ (s : State) (c : Ctx), s.ctx? = some c → c.SoundS → s.splicing c.ref = false → ∀ (m : Bool) (a : Field),
     let v := c.landed
     let k : GroupKey := .join c.p.pc (v.sr a.toNat)
     let before : List Arrival := ((v.w.group? k).map JoinGroup.arrivals).getD []
     let left : LaneMask := ((v.w.group? k).map JoinGroup.left).getD 0
     let all := arrivalLanes before ||| v.p.lanes
     let arrivals := before ++ [⟨v.p.lanes, v.active, v.p.mode, v.p.ix, v.w.arrivals⟩]
     (v.sr a.toNat ||| left) &&& ~~~v.w.exited &&& ~~~all = 0 →
       ∃ t, exec (.join m a) s = .next t ∧ OnlyWarp v.s t c.ref ∧
         ∃ x y, t.warp? c.ref = some x ∧ x.path? c.slot = some y ∧ x.path? (!c.slot) = v.w.path? (!c.slot) ∧
           x.groups = dropGroup k v.w.groups ∧ x.sregs = v.w.sregs ∧ x.vregs = v.w.vregs ∧ x.status = v.w.status ∧
           x.exited = v.w.exited ∧ x.retired = v.w.retired + 1 ∧
           y.pc = c.next 4 ∧ y.lanes = all ∧ y.stack = v.p.stack ∧ y.writes = [] ∧ y.park = .none ∧
           ∀ z, arrivals.find? (fun z => z.lanes.getLsbD (lowestLane all)) = some z → y.mode = z.mode ∧ y.ix = z.ix) ∧
  (∀ (s : State) (c : Ctx), s.ctx? = some c → s.splicing c.ref = false → ∀ m : Bool,
     ∃ t, exec (.exit m) s = .next t ∧ ∃ w, t.warp? c.ref = some w ∧
       (c.w.exited ||| c.p.lanes) &&& ~~~w.exited = 0 ∧
       (c.w.ended = false → c.w.exited ||| c.p.lanes = BitVec.allOnes 32 →
         w.ended = true ∧ w.p0 = none ∧ w.p1 = none ∧ w.groups = []) ∧
       ∀ o, c.w.ended = false → c.w.path? (!c.slot) = some o → o.lanes &&& c.p.lanes = 0 → o.lanes &&& ~~~c.w.exited ≠ 0 →
         c.w.groups = [] → c.p.stack = [] → o.stack = [] →
         OnlyWarp c.landed.s t c.ref ∧ w.exited = c.w.exited ||| c.p.lanes ∧ w.path? c.slot = none ∧
         w.path? (!c.slot) = some o ∧ w.retired = c.w.retired + 1)

/-- 08 R147 to R149, R151 to R154: what the operations across lanes write when they execute: the shuffles, the quad
exchange, votes and matches over the contributing set, one lane's word read or written, and the moves through ix, which fault
REG_BOUNDS in every Active lane beyond the allotment. An Active lane outside the member set faults MEMBER_MISMATCH, at each of the
warp-wide operations; a reduction or scan under a floating-point ETYPE with TRAPNV armed may have INVALID_OP faults of receiving
lanes beside those (08 R150). -/
def Obligations.CrossLaneResults : Prop :=
  ∀ (s : State) (c : Ctx), s.ctx? = some c → ∀ (m : Bool) (d a : Field) (b : Src) (lit : Word),
    (∀ v p q, c.WideAt v p q → c.w.inject = none →
      let word (i : Instr) (len : Nat) (val : Nat → Word) : Prop :=
        Runs i s fun t => v.Writes t (c.next len) m (laneSet q d.toNat val)
      let src (l : Nat) (j : Option Nat) : Word := match j with
        | some j => if j < 32 ∧ p.getLsbD j = true then v.v a.toNat j else v.v a.toNat l
        | none => v.v a.toNat l
      let off (l : Nat) : Nat := match b with
        | .reg r => (v.v r.toNat l).toNat
        | .lit x => if x.getLsbD 31 then 32 / 2 ^ (x.toNat % 8) else x.toNat
      (c.Ready (d.toNat :: a.toNat :: b.vregs) →
        word (.vshup m d a b) b.len (fun l => src l (if off l ≤ l then some (l - off l) else none)) ∧
        word (.vshdn m d a b) b.len (fun l => src l (some (l + off l))) ∧
        word (.vshxor m d a b) b.len (fun l => src l (some (l ^^^ off l))) ∧
        word (.vshidx m d a b) b.len (fun l => src l (some (v.vb b l).toNat))) ∧
      (c.Ready [d.toNat, a.toNat] →
        word (.vmatch m d a) 4 (fun l => maskWhere p fun j => decide (v.v a.toNat j = v.v a.toNat l))) ∧
      (c.Ready [a.toNat] → q ≠ 0 →
        let yes := maskWhere p fun l => decide (v.v a.toNat l ≠ 0)
        let vote (k : Nat) (x : Word) : Prop :=
          lit.toNat = k → Runs (.vvote m d a lit) s fun t => v.Writes t (c.next 8) m [(.s d.toNat, x)]
        vote 0 (if yes = p then 1 else 0) ∧
        vote 1 (if yes = 0 then 0 else 1) ∧
        vote 2 yes ∧
        vote 3 (if ∀ l ∈ lanesOf p, v.v a.toNat l = v.v a.toNat (lowestLane p) then 1 else 0))) ∧
    (c.Ready (d.toNat :: a.toNat :: b.vregs) → s.splicing c.ref = false →
      let v := c.landed
      let p := v.memberSet &&& ~~~v.w.exited &&& v.p.lanes
      v.active &&& ~~~v.memberSet = 0 →
        Runs (.vqswap m d a b) s fun t => v.Writes t (c.next b.len) m (laneSet (v.active &&& p) d.toNat fun l =>
          let j := l / 4 * 4 + (v.vb b l).toNat / 4 ^ (l % 4) % 4
          if v.w.exited.getLsbD j then 0 else v.v a.toNat j)) ∧
    (c.Ready [a.toNat] →
      Runs (.vreadl m d a b) s fun t =>
        c.Writes t (c.next b.len) m [(.s d.toNat, c.v a.toNat ((c.sb b).toNat % 32))]) ∧
    (c.Ready [d.toNat] →
      let i := (c.sb b).toNat % 32
      Runs (.vwritel m d a b) s fun t =>
        c.Writes t (c.next b.len) m (if c.active.getLsbD i then [(.v d.toNat i, c.sr a.toNat)] else [])) ∧
    (let v := c.landed
      let bad := v.active &&& ~~~v.memberSet
      c.p.carry = none → s.splicing c.ref = false → bad ≠ 0 → v.memberSet &&& ~~~v.w.exited &&& ~~~v.p.lanes = 0 →
        let gets (l : Nat) : Prop := v.active.getLsbD l = true ∧ v.memberSet.getLsbD l = true
        let misses (i : Instr) (len : Nat) (regs : List Nat) : Prop := c.Ready regs → Runs i s fun t =>
          ∃ ws, (∀ x ∈ ws, ∃ l, (x.1 = .v d.toNat l ∨ x.1 = .stSet l) ∧ gets l) ∧
            v.LaneFaults t (c.next len) ws .memberMismatch (faultsOf .memberMismatch (lanesOf bad))
        let among (i : Instr) : Prop := c.Ready [d.toNat, a.toNat] → treeTypes c = true →
          (intTypes c = true ∨ modeTrapNv c.p.mode = false → misses i 8 [d.toNat, a.toNat]) ∧
          Runs i s fun t => ∃ ws e es, v.LaneFaults t (c.next 8) ws e.kind (e :: es) ∧
            (∀ l ∈ lanesOf bad, ⟨l, .memberMismatch, 0, 0⟩ ∈ e :: es) ∧
            ∀ x ∈ e :: es, (x.kind = .memberMismatch ∧ x.lane ∈ lanesOf bad) ∨ (x.kind = .invalidOp ∧ gets x.lane)
        misses (.vshup m d a b) b.len (d.toNat :: a.toNat :: b.vregs) ∧
        misses (.vshdn m d a b) b.len (d.toNat :: a.toNat :: b.vregs) ∧
        misses (.vshxor m d a b) b.len (d.toNat :: a.toNat :: b.vregs) ∧
        misses (.vshidx m d a b) b.len (d.toNat :: a.toNat :: b.vregs) ∧
        misses (.vqswap m d a b) b.len (d.toNat :: a.toNat :: b.vregs) ∧
        misses (.vmatch m d a) 4 [d.toNat, a.toNat] ∧
        (c.Ready [a.toNat] → Runs (.vvote m d a lit) s fun t => ∃ ws, (∀ x ∈ ws, x.1 = .s d.toNat) ∧
          v.LaneFaults t (c.next 8) ws .memberMismatch (faultsOf .memberMismatch (lanesOf bad))) ∧
        among (.vred m d a lit) ∧ among (.vscan m d a lit)) ∧
    (c.active ≠ 0 →
      let beyond (i : Instr) (k : Nat) : Prop := c.l.record.regs ≤ c.p.ix.toNat + k →
        Runs i s fun t => c.LaneFaults t (c.next 4) [] .regBounds ((lanesOf c.active).map fun l => ⟨l, .regBounds, k, c.p.ix⟩)
      (c.Ready [d.toNat] → beyond (.vmovx m d a) a.toNat) ∧ (c.Ready [a.toNat] → beyond (.vmovxw m d a) d.toNat)) ∧
    (c.Ready [d.toNat] → c.p.ix.toNat + a.toNat < c.l.record.regs →
      Runs (.vmovx m d a) s fun t =>
        c.Writes t (c.next 4) m (laneSet c.active d.toNat fun l => c.v (c.p.ix.toNat + a.toNat) l)) ∧
    (c.Ready [a.toNat] → c.p.ix.toNat + d.toNat < c.l.record.regs →
      Runs (.vmovxw m d a) s fun t =>
        c.Writes t (c.next 4) m (laneSet c.active (c.p.ix.toNat + d.toNat) fun l => c.v a.toNat l))

/-- 08 R150: reduction and scan over the contributing set p. Under an integer ETYPE the sum of each element is taken
modulo 2^w over the lanes of p, for a scan over those up to the lane itself; AND, OR and XOR act on whole words under
any accepted ETYPE; a minimum or maximum is one of the lanes' elements that no other goes below or above. Under a
floating-point ETYPE the sums, minima and maxima are those of the rule's tree, the lower lane's operand first. An empty set gives
0. -/
def Obligations.ReductionResults : Prop :=
  ∀ (s : State) (c : Ctx), s.ctx? = some c → ∀ (m : Bool) (d a : Field) (lit : Word), c.Ready [d.toNat, a.toNat] →
    ∀ v p q, c.WideAt v p q →
      let w := elemWidth c.etype
      let sg := isSigned c.etype
      let el (l k : Nat) : Nat := elemAt (v.v a.toNat l).toNat w k
      let upTo (l : Nat) : List Nat := (lanesOf p).filter fun i => decide (i ≤ l)
      let both (code : Nat) (ok : List Nat → Word → Prop) : Prop :=
        lit.toNat = code →
        (∃ x, ok (lanesOf p) x ∧
          Runs (.vred m d a lit) s fun t => v.Writes t (c.next 8) m (laneSet q d.toNat fun _ => x)) ∧
        ∃ val : Nat → Word, (∀ l ∈ lanesOf q, ok (upTo l) (val l)) ∧
          Runs (.vscan m d a lit) s fun t => v.Writes t (c.next 8) m (laneSet q d.toNat val)
      let least (le : Int → Int → Prop) (ls : List Nat) (x : Word) : Prop :=
        (ls = [] → x = 0) ∧ (ls ≠ [] → ∀ k, k < 32 / w →
          (∃ l ∈ ls, elemAt x.toNat w k = el l k) ∧
          ∀ l ∈ ls, le (asInt (elemAt x.toNat w k) w sg) (asInt (el l k) w sg))
      let fold (f : Word → Word → Word) (z : Word) (ls : List Nat) (x : Word) : Prop :=
        x = if ls = [] then 0 else ls.foldl (fun y l => f y (v.v a.toNat l)) z
      (intTypes c = true →
        both 0 (fun ls x => ∀ k, k < 32 / w → elemAt x.toNat w k = (ls.foldl (fun y l => y + el l k) 0) % 2 ^ w) ∧
        both 1 (least fun x y => x ≤ y) ∧
        both 2 (least fun x y => y ≤ x)) ∧
      (treeTypes c = true →
        both 3 (fold (fun x y => x &&& y) (BitVec.allOnes 32)) ∧
        both 4 (fold (fun x y => x ||| y) 0) ∧
        both 5 (fold (fun x y => x ^^^ y) 0)) ∧
      (fpTypes c = true → lit.toNat ≤ 2 →
        let leaf (i : Nat) : TreeVal := (if i < 32 ∧ p.getLsbD i = true then some (v.v a.toNat i) else none, 0)
        let value (x : TreeVal) : Word := x.1.getD 0
        let sum := redNode (combTree v lit.toNat) leaf 5 0
        let upTo := scanNode (combTree v lit.toNat) leaf 5
        (Runs (.vred m d a lit) s fun t => v.Lanes t 8 m (lanesOf q) d.toNat (fun _ => value sum) fun _ => sum.2) ∧
        Runs (.vscan m d a lit) s fun t => v.Lanes t 8 m (lanesOf q) d.toNat (fun l => value (upTo l)) fun l => (upTo l).2)

/-- 07 R138, R141, 08 R155: a path whose JOIN, barrier or warp-wide operation wants lanes that stand elsewhere gives up its lanes:
its writes land, they wait in the group of the instruction's PC and, but for a barrier, its mask, with the MODE and ix that they
brought, and the slot's top pending entry, if it has one, goes on. Stated for a warp that holds no group yet and keeps a live
path, and whose s-registers hold no uncorrectable error (19 R283). -/
def Obligations.GroupArrivals : Prop :=
  ∀ (s : State) (c : Ctx), s.ctx? = some c → c.w.ended = false → c.SoundS → s.splicing c.ref = false →
    let v := c.landed
    v.w.groups = [] → (v.p.stack ≠ [] ∨ v.w.path? (!c.slot) ≠ none) →
    let waits (i : Instr) (k : GroupKey) : Prop := Runs i s fun t => OnlyWarp v.s t c.ref ∧
      ∃ x, t.warp? c.ref = some x ∧ x.path? c.slot = v.p.popped ∧ x.path? (!c.slot) = v.w.path? (!c.slot) ∧
        x.groups = [⟨k, [⟨v.p.lanes, v.active, v.p.mode, v.p.ix, v.w.arrivals⟩], none, 0⟩] ∧
        x.sregs = v.w.sregs ∧ x.vregs = v.w.vregs ∧ x.status = v.w.status ∧ x.exited = v.w.exited
    ∀ (m : Bool) (d a : Field) (b : Src) (lit : Word),
      (v.sr a.toNat &&& ~~~v.w.exited &&& ~~~v.p.lanes ≠ 0 → waits (.join m a) (.join c.p.pc (v.sr a.toNat))) ∧
      (~~~v.w.exited &&& ~~~v.p.lanes ≠ 0 → waits (.bar m d) (.barrier c.p.pc) ∧ waits (.bara m d) (.barrier c.p.pc) ∧
        waits (.barw m d) (.barrier c.p.pc) ∧ waits (.barc m) (.barrier c.p.pc) ∧
        (c.l.record.cores = true → waits (.barp m) (.barrier c.p.pc))) ∧
      (c.p.carry = none → v.memberSet &&& ~~~v.w.exited &&& ~~~v.p.lanes ≠ 0 → v.active &&& ~~~v.memberSet = 0 → v.p.lanes ≠ 0 →
        let wide (i : Instr) : Prop := (∀ n ∈ directVregs i, n < c.l.record.regs) → acceptsType c.etype i = true →
          waits i (.wide c.p.pc v.memberSet)
        wide (.vshup m d a b) ∧ wide (.vshdn m d a b) ∧ wide (.vshxor m d a b) ∧ wide (.vshidx m d a b) ∧
        wide (.vmatch m d a) ∧ wide (.vvote m d a lit) ∧ wide (.vred m d a lit) ∧ wide (.vscan m d a lit))

/-- 08 R155, R157, R158: the barriers, for a path that holds every non-exited lane of its warp. In tripod mode the frame ends first
(10 R185). Outside it, the arrival that completes a generation (every warp that the barrier counts has arrived) advances it, clears the flags, and
its path and every path parked for that generation go on at their successors (19 R290: at the NPC of a fault, where a RETRY has
put a path back); an arrival that does not complete it is recorded with the open generation. An arrival lands the values that earlier loads of its path return (R156). BARA goes on at
once; BARW goes on when the generation that its warp recorded last has completed, or when it has recorded none, and else its path
parks for that generation. Main memory and every BSM keep their bytes, and every warp its vector registers, but for those that these loads write. -/
def Obligations.BarrierResults : Prop :=
  ∀ (s : State) (c : Ctx), s.ctx? = some c → c.p.lanes = ~~~c.w.exited → c.w.allExited = false → c.w.ended = false →
    ∀ (m : Bool) (d : Field),
    (c.l.record.tripod = true → c.p.frameServed = false →
      let ends (i : Instr) : Prop := Runs i s fun t => OnlyWarp s t c.ref ∧ t.warp? c.ref =
        some ({ c.w with frame := c.w.frame.finish }.setPath c.slot (some { c.p with frameServed := true }))
      ends (.bar m d) ∧ ends (.bara m d) ∧ ends (.barw m d) ∧ ends (.barc m) ∧ (c.l.record.cores = true → ends (.barp m))) ∧
    (c.l.record.cores = false → Runs (.barp m) s fun t => t = c.issueFault .barrierBroken 4) ∧
    (c.l.record.tripod = false →
    let loaded (x : PendingWrite) : Bool := match s.decodeAt c.l x.pc with
      | .instr i _ => x.target.isReg && loadsValue i
      | _ => false
    let p0 : Path := { c.p with writes := c.p.writes.filter fun x => !loaded x }
    let passed (p q : Path) : Prop := q.pc = p.back.getD (p.pc + 4) ∧ q.lanes = p.lanes ∧ q.writes = p.writes ∧ q.mode = p.mode ∧
      (q.park = .none ∨ (q.park = .marker ∧ (p.writes ≠ [] ∨ p.pending ≠ [])))
    let same (t : State) : Prop := t.mem = s.mem ∧ (∀ l b, (t.block? l b).map Block.bsm = (s.block? l b).map Block.bsm) ∧
      (∀ r, r ≠ c.ref → (t.warp? r).map Warp.vregs = (s.warp? r).map Warp.vregs) ∧
      (∀ r k, (t.path? r k).isSome = (s.path? r k).isSome) ∧
      ∃ w, t.warp? c.ref = some w ∧
        ∀ k, (∀ x ∈ c.p.writes, loaded x = true → ∀ n l, x.target = .v n l → 32 * n + l ≠ k) → get0 w.vregs k = get0 c.w.vregs k
    let everyone (u : BarUnit) : Prop := ∀ w ∈ s.members c.l c.ref u, w.ref = c.ref ∨ w.ref ∈ (s.barrier c.l c.ref u).arrived
    let completes (i : Instr) (u : BarUnit) : Prop :=
      c.ref ∉ (s.barrier c.l c.ref u).arrived → everyone u → s.awaitsRestart c.l c.ref u = false → Runs i s fun t => same t ∧
        (t.barrier c.l c.ref u).gen = (s.barrier c.l c.ref u).gen + 1 ∧ (t.barrier c.l c.ref u).arrived = [] ∧
        (∃ q, t.path? c.ref c.slot = some q ∧ passed p0 q) ∧
        ∀ x : Ctx, s.ctxAt? x.ref x.slot = some x → x.w ∈ s.members c.l c.ref u → (x.ref, x.slot) ≠ (c.ref, c.slot) →
          (∃ g, x.p.park = .barrier u g ∧ g ≤ (s.barrier c.l c.ref u).gen) →
          ∃ q, t.path? x.ref x.slot = some q ∧ passed x.p q
    let arrives (i : Instr) (u : BarUnit) (waits : Bool) : Prop :=
      c.ref ∉ (s.barrier c.l c.ref u).arrived → ¬everyone u → Runs i s fun t => same t ∧
        (t.barrier c.l c.ref u).gen = (s.barrier c.l c.ref u).gen ∧
        (t.barrier c.l c.ref u).arrived = (s.barrier c.l c.ref u).arrived ++ [c.ref] ∧
        (t.barrier c.l c.ref u).recordedOf c.ref = some (s.barrier c.l c.ref u).gen ∧
        ∃ q, t.path? c.ref c.slot = some q ∧
          if waits then q = { p0 with park := .barrier u (s.barrier c.l c.ref u).gen } else passed p0 q
    completes (.bar m d) (.block d.toNat) ∧ arrives (.bar m d) (.block d.toNat) true ∧
    completes (.bara m d) (.block d.toNat) ∧ arrives (.bara m d) (.block d.toNat) false ∧
    ((∀ g, (s.barrier c.l c.ref (.block d.toNat)).recordedOf c.ref = some g →
        g < (s.barrier c.l c.ref (.block d.toNat)).gen) →
      Runs (.barw m d) s fun t => c.Writes t (c.p.pc + 4) m []) ∧
    (∀ g, (s.barrier c.l c.ref (.block d.toNat)).recordedOf c.ref = some g →
      (s.barrier c.l c.ref (.block d.toNat)).gen ≤ g → Runs (.barw m d) s fun t => OnlyWarp s t c.ref ∧
        t.warp? c.ref = some (c.w.setPath c.slot (some { c.p with park := .barrier (.block d.toNat) g }))) ∧
    ((s.cluster? c.ref.launch (c.l.record.clusterOf c.ref.block)).isSome →
      completes (.barc m) .cluster ∧ arrives (.barc m) .cluster true) ∧
    (c.l.record.cores = true → c.l.record.resil = 0 → c.l.replayOn c.b.die = none →
      completes (.barp m) .package ∧ arrives (.barp m) .package true))

/-- 11 R193, R196, R197: the loads. Each Active lane whose accesses pass their check receives the bytes at its address,
lowest first, zero- or sign-extended, in consecutive registers; a scalar load serves the path once. Outside tripod mode
the bytes are those of the place. (What a load of a word with an uncorrectable error does: `AccessChecksAndLaneFaults`. An
instruction that a watchpoint event has held draws the values that it read early as it did before, 23 R335.) -/
def Obligations.LoadResults : Prop :=
  ∀ (s : State) (c0 : Ctx), s.ctx? = some c0 → ∀ (m : Bool) (d a : Field) (b : Src),
    let c := c0.redrawn
    let regs (k : Nat) : List Nat := (List.range k).map (d.toNat + ·) ++ [a.toNat]
    let load (i : Instr) (n k : Nat) (word : Nat → Nat → Word) : Prop := ∀ q o,
      c.AccessOk .load n (fun l => c.v a.toNat l + c.sb b) q o → c.Ready (regs k) →
      let x (l : Nat) : Nat := leNat (s.loadBytes c.l c.ref (q l) (o l) n)
      Runs i s fun t => c.Writes t (c.next b.len) m
        ((lanesOf c.active).flatMap fun l => (List.range k).map fun j => (.v (d.toNat + j) l, word (x l) j))
    let sload (i : Instr) (k : Nat) : Prop := ∀ q o,
      c.check .load (c.sr a.toNat + c.sb b) (4 * k) = .ok (q, o) → (c.w.onLoupe? = none ∨ c.p.passed = true) →
      c.SoundS → s.softAt q o (4 * k) = false →
      Runs i s fun t => c.Writes t (c.next b.len) m ((List.range k).map fun j =>
        (.s (d.toNat + j), BitVec.ofNat 32 (leNat (s.loadBytes c.l c.ref q o (4 * k)) / 2 ^ (32 * j))))
    let zext (x j : Nat) : Word := BitVec.ofNat 32 (x / 2 ^ (32 * j))
    load (.ld8 m d a b) 1 1 zext ∧
    load (.ld8s m d a b) 1 1 (fun x _ => (BitVec.ofNat 8 x).signExtend 32) ∧
    load (.ld16 m d a b) 2 1 zext ∧
    load (.ld16s m d a b) 2 1 (fun x _ => (BitVec.ofNat 16 x).signExtend 32) ∧
    load (.ld32 m d a b) 4 1 zext ∧
    load (.ldacq32 m d a b) 4 1 zext ∧
    load (.ld64 m d a b) 8 2 zext ∧
    load (.ld128 m d a b) 16 4 zext ∧
    sload (.sld32 m d a b) 1 ∧
    sload (.sld64 m d a b) 2 ∧
    (c.l.record.tripod = false → ∀ q o n,
      s.loadBytes c.l c.ref q o n = (List.range n).map fun i => s.placeByte q (o + i))

/-- 11 R194, R196, R197, 10 R181: the stores, outside tripod mode. Every byte that no Active lane's access covers is
unchanged; a byte that is covered holds the byte of a lane that covers it; nothing else of the device changes but the
path and its blocks' external-write flag. -/
def Obligations.StoreResults : Prop :=
  ∀ (s : State) (c0 : Ctx), s.ctx? = some c0 → c0.l.record.tripod = false → ∀ (m : Bool) (d a : Field) (b : Src),
    let c := c0.redrawn
    let regs (k : Nat) : List Nat := (List.range k).map (d.toNat + ·) ++ [a.toNat]
    let value (k l : Nat) : Nat := leNat (((List.range k).map fun j => leBytes 4 (c.v (d.toNat + j) l).toNat).flatten)
    let svalue (k : Nat) : Nat := leNat (((List.range k).map fun j => leBytes 4 (c.sr (d.toNat + j)).toNat).flatten)
    let stores (i : Instr) (n : Nat) (ls : List Nat) (q : Nat → Place) (o x : Nat → Nat) : Prop :=
      let covers (l : Nat) (p : Place) (a : Nat) : Prop := q l = p ∧ o l ≤ a ∧ a < o l + n
      ∃ s', OnlyLocal s s' ∧ (Runs i s fun t => ({ c with s := s' } : Ctx).Writes t (c.next b.len) m []) ∧
        (∀ p a, (∀ l ∈ ls, ¬covers l p a) → s'.placeByte p a = s.placeByte p a) ∧
        ∀ p a, (∃ l ∈ ls, covers l p a) → s.PlaceOk p →
          ∃ l ∈ ls, covers l p a ∧ s'.placeByte p a = BitVec.ofNat 8 (x l / 256 ^ (a - o l))
    let store (i : Instr) (n k : Nat) : Prop := ∀ q o,
      c.AccessOk .store n (fun l => c.v a.toNat l + c.sb b) q o → c.Ready (regs k) →
      stores i n (lanesOf c.active) q o (value k)
    let sstore (i : Instr) (k : Nat) : Prop := ∀ q o,
      c.check .store (c.sr a.toNat + c.sb b) (4 * k) = .ok (q, o) → (c.w.onLoupe? = none ∨ c.p.passed = true) → c.SoundS →
      stores i (4 * k) [0] (fun _ => q) (fun _ => o) (fun _ => svalue k)
    store (.st8 m d a b) 1 1 ∧
    store (.st16 m d a b) 2 1 ∧
    store (.st32 m d a b) 4 1 ∧
    store (.strel32 m d a b) 4 1 ∧
    store (.st64 m d a b) 8 2 ∧
    store (.st128 m d a b) 16 4 ∧
    sstore (.sst32 m d a b) 1 ∧
    sstore (.sst64 m d a b) 2

/-- 11 R199 to R202, 10 R171: returning atomics and reductions, outside tripod mode. In some order of the Active lanes
each reads the word that those before it have left and writes its new one; a returning form gives each lane what it
read. Every byte outside the words addressed is unchanged. -/
def Obligations.AtomicResults : Prop :=
  ∀ (s : State) (c0 : Ctx), s.ctx? = some c0 → c0.l.record.tripod = false → ∀ (m : Bool) (d a : Field) (b : Src),
    let c := c0.redrawn
    let rmw (i : Instr) (k : AccKind) (regs : List Nat) (ret : Bool) (f : Nat → Word → Word) : Prop := ∀ q o,
      c.AccessOk k 4 (fun l => c.v a.toNat l) q o → c.Ready regs → (∀ l ∈ lanesOf c.active, s.PlaceOk (q l)) →
      ∃ s' order, order.Perm (lanesOf c.active) ∧ OnlyLocal s s' ∧
        let z := rmwSeq (fun l => (q l, o l)) f order s.placeWord
        (Runs i s fun t => ({ c with s := s' } : Ctx).Writes t (c.next b.len) m
          (if ret then z.2.map fun x => (.v d.toNat x.1, x.2) else [])) ∧
        (∀ l ∈ lanesOf c.active, s'.placeWord (q l, o l) = z.1 (q l, o l)) ∧
        ∀ p x, (∀ l ∈ lanesOf c.active, ¬(q l = p ∧ o l ≤ x ∧ x < o l + 4)) → s'.placeByte p x = s.placeByte p x
    let atomic (i : Instr) (f : Word → Word → Word) : Prop :=
      rmw i .atomic (d.toNat :: a.toNat :: b.vregs) true fun l old => f old (c.vb b l)
    let red (i : Instr) (f : Word → Word → Word) : Prop :=
      rmw i .red (a.toNat :: b.vregs) false fun l old => f old (c.vb b l)
    let sless (x y : Word) : Bool := decide (x.toInt ≤ y.toInt)
    let uless (x y : Word) : Bool := decide (x.toNat ≤ y.toNat)
    let fmin (larger : Bool) (x y : Word) : Word := fpAtomic c.etype (minmaxF larger) x y
    atomic (.aadd m d a b) (fun x y => x + y) ∧
    atomic (.aand m d a b) (fun x y => x &&& y) ∧
    atomic (.aor m d a b) (fun x y => x ||| y) ∧
    atomic (.axor m d a b) (fun x y => x ^^^ y) ∧
    atomic (.amin m d a b) (fun x y => if sless x y then x else y) ∧
    atomic (.amax m d a b) (fun x y => if sless x y then y else x) ∧
    atomic (.aminn m d a b) (fun x y => if uless x y then x else y) ∧
    atomic (.amaxn m d a b) (fun x y => if uless x y then y else x) ∧
    atomic (.aexch m d a b) (fun _ y => y) ∧
    rmw (.acas m d a b) .atomic (d.toNat :: a.toNat :: b.vregs) true
      (fun l old => if old = c.v d.toNat l then c.vb b l else old) ∧
    (fpTypes c = true →
      atomic (.afadd m d a b) (fun x y => fpAtomic c.etype (addF 0) x y) ∧
      atomic (.afmin m d a b) (fmin false) ∧
      atomic (.afmax m d a b) (fmin true) ∧
      red (.redfadd m a b) (fun x y => fpAtomic c.etype (addF 0) x y)) ∧
    red (.redadd m a b) (fun x y => x + y) ∧
    red (.redand m a b) (fun x y => x &&& y) ∧
    red (.redor m a b) (fun x y => x ||| y) ∧
    red (.redxor m a b) (fun x y => x ^^^ y) ∧
    (c.etype = 0 →
      red (.redmin m a b) (fun x y => if sless x y then x else y) ∧
      red (.redmax m a b) (fun x y => if sless x y then y else x)) ∧
    (c.etype = 1 →
      red (.redmin m a b) (fun x y => if uless x y then x else y) ∧
      red (.redmax m a b) (fun x y => if uless x y then y else x))

/-- 11 R198: VSPILL pushes the register of every lane, whatever the guard; VFILL pops the top into the Active lanes.
A full stack faults SPILL_OVERFLOW and an empty one SPILL_UNDERFLOW, as faults of the path. 19 R283: at a VFILL an Active lane
whose slot holds an uncorrectable error faults SOFT_ERROR; that the slot is popped all the same and the other lanes complete is the
model's choice (notes/assumptions/45.md), and so is that such a VFILL waits while a splice operation owes the warp a result
(notes/assumptions/31.md), which the premise of that clause leaves out. -/
def Obligations.SpillStackResults : Prop :=
  ∀ (s : State) (c : Ctx), s.ctx? = some c → ∀ (m : Bool) (d : Field), d.toNat < c.l.record.regs →
    (c.w.inject = none → c.w.soft = [] → c.w.spill.length < c.l.record.spill → Runs (.vspill m d) s fun t =>
      c.Done t { c.w with
        spill := ((List.range 32).map fun l => c.v d.toNat l) :: c.w.spill
        spillSoft := c.w.spillSoft.filter fun e => decide (e.1 ≠ c.w.spill.length) } c.p (c.p.pc + 4) m []) ∧
    (c.l.record.spill ≤ c.w.spill.length → Runs (.vspill m d) s fun t =>
      t = c.pathFault c.s .spillOverflow 0 0 ⟨m, 4, [d.toNat], [d.toNat]⟩) ∧
    (∀ x r, c.w.spill = x :: r → c.SoundS →
      let soft (l : Nat) : Bool := decide ((r.length, l) ∈ c.w.spillSoft)
      let bad := (lanesOf c.active).filter soft
      let ws := ((lanesOf c.active).filter fun l => !soft l).map fun l => (WTarget.v d.toNat l, x.getD l 0)
      (bad = [] → Runs (.vfill m d) s fun t => c.Done t { c.w with spill := r } c.p (c.p.pc + 4) m ws) ∧
      (bad ≠ [] → s.splicing c.ref = false → Runs (.vfill m d) s fun t => ∃ s', s' = { s with x := { s.x with warps := s'.x.warps } } ∧
        (s'.warp? c.ref = some { c.w with spill := r } ∧ ∀ q, q ≠ c.ref → s'.warp? q = s.warp? q) ∧
        ({ c with s := s', w := { c.w with spill := r } } : Ctx).LaneFaults t (c.next 4) ws .softError
          (bad.map fun l => ⟨l, .softError, 0, 0⟩))) ∧
    (c.w.spill = [] → Runs (.vfill m d) s fun t => t = c.pathFault c.s .spillUnderflow 0 0 ⟨m, 4, [d.toNat], []⟩)

/-- 11 R204 to R208, 10 R185, R206: FENCE, FRAMEND, WAITF and PUBLISH. In tripod mode FENCE only retires, FRAMEND ends
the frame, and WAITF and PUBLISH end the frame before they act. Outside it FENCE waits and FRAMEND does nothing. A WAITF whose
word satisfies the comparison goes on; else it waits, with the address and value that it has read first and the clock of its first
read, until the word is written, or, its time over, faults WAIT_TIMEOUT. It reads its registers at its first issue alone; where its
word holds an uncorrectable error, each lane of its path faults (the model's choice, notes/assumptions/45.md). PUBLISH waits for the image of an open window of its launch's world; a window that
is not open faults OUT_OF_RANGE, and one of another world PERMISSION. -/
def Obligations.FenceAndWaitResults : Prop :=
  ∀ (s : State) (c : Ctx), s.ctx? = some c → c.SoundS → ∀ (m : Bool) (d a : Field) (b : Src) (lit : Word),
    let tripod := c.l.record.tripod
    let ready := tripod = false ∨ c.p.frameServed = true
    let first (i : Instr) : Prop := tripod = true → c.p.frameServed = false → Runs i s fun t =>
      OnlyWarp s t c.ref ∧ t.warp? c.ref =
        some ({ c.w with frame := c.w.frame.finish }.setPath c.slot (some { c.p with frameServed := true }))
    let n := (c.sb b).toNat % 2 ^ 16
    (tripod = true → Runs (.fence m) s fun t => c.Writes t (c.p.pc + 4) m []) ∧
    (tripod = false → Runs (.fence m) s fun t => c.Parks t c.w .fence) ∧
    (tripod = true → Runs (.framend m) s fun t =>
      c.Done t { c.w with frame := c.w.frame.finish } c.p (c.p.pc + 4) m []) ∧
    (tripod = false → Runs (.framend m) s fun t => c.Writes t (c.p.pc + 4) m []) ∧
    first (.waitf m d a lit) ∧
    (ready → ∀ q o x v,
      let e := c.redrawn
      e.p.waitOn.getD (e.sr a.toNat, e.sr (a.toNat + 1)) = (x, v) → e.check .load x 4 = .ok (q, o) →
      (s.softAt q o 4 = true → c.p.lanes &&& c.onlyMask ≠ 0 → Runs (.waitf m d a lit) s fun t =>
        e.LaneFaults t (c.next 8) [] .softError (faultsOf .softError (lanesOf (c.p.lanes &&& c.onlyMask)))) ∧
      ((c.w.onLoupe? = none ∨ c.p.passed = true) → s.softAt q o 4 = false →
      let sh : Shape := ⟨m, 8, [], if c.p.waitOn = none then [sRd a, sRd a + 1] else []⟩
      let w := s.loadWord c.l c.ref q o
      let holds : Prop := match d.toNat with
        | 0 => w = v
        | 1 => w ≠ v
        | 2 => w.toInt < v.toInt
        | 3 => w.toInt ≤ v.toInt
        | 4 => v.toInt < w.toInt
        | _ => v.toInt ≤ w.toInt
      let start := c.p.waitStart.getD s.time
      (holds → Runs (.waitf m d a lit) s fun t => e.Writes t (c.p.pc + 8) m []) ∧
      (¬holds → (s.time - start).toNat < lit.toNat → Runs (.waitf m d a lit) s fun t => OnlyWarp s t c.ref ∧
        ∃ clk, t.warp? c.ref = some ({ c.w with loupe := { c.w.loupe with lastClk := clk } }.setPath c.slot (some { c.p with
          park := .waitf x (s.wokenAt q c.ref c.slot), passed := false, waitStart := some start, waitOn := some (x, v)
          starve := 0, starved := false }))) ∧
      (¬holds → lit.toNat ≤ (s.time - start).toNat → Runs (.waitf m d a lit) s fun t =>
        t = e.pathFault e.s .waitTimeout 0 x sh))) ∧
    first (.publish m b) ∧
    (ready → ∀ x, tget (s.iface c.l.iface).windows n = some x → x.world = c.l.record.world →
      Runs (.publish m b) s fun t => ∃ s1, OnlyExt s s1 ∧ ({ c with s := s1 } : Ctx).Parks t c.w (.publish n)) ∧
    (ready → tget (s.iface c.l.iface).windows n = none →
      Runs (.publish m b) s fun t => t = c.pathFault s .outOfRange 0 (c.sb b) ⟨false, b.len, [], b.sregs⟩) ∧
    (ready → ∀ x, tget (s.iface c.l.iface).windows n = some x → x.world ≠ c.l.record.world →
      Runs (.publish m b) s fun t => t = c.pathFault s .permission 0 0 ⟨false, b.len, [], b.sregs⟩)

/-- 21 R316, R318, R321, R322: TRAP faults the Active lanes that its mask names and is otherwise a NOP. YIELD completes and parks
its path for 32 clocks of its scheduler: of the device, or on a loupe core of the loupe cores. PRGN pushes a profile set below
depth 4, after it has retired; PRGX takes the top set or a count of overflow away. SGET writes the value of its selector; CORE
outside tripod mode numbers the 384 cores by a permutation of each launch (the draw is free: notes/assumptions/1.md). Stated where
no s-register of the warp holds an uncorrectable error (19 R283). -/
def Obligations.SystemResults : Prop :=
  ∀ (s : State) (c : Ctx), s.ctx? = some c → c.SoundS → ∀ (m : Bool) (d a : Field) (b : Src),
    let hit := c.active &&& c.sb b
    let r := c.l.record
    let get (n x : Nat) : Prop := a.toNat = n →
      Runs (.sget m d a) s fun t => c.Writes t (c.p.pc + 4) m [(.s d.toNat, BitVec.ofNat 32 x)]
    let index (x : Nat) : Nat := c.ref.block / x
    (hit = 0 → Runs (.trap m b) s fun t => c.Writes t (c.next b.len) m []) ∧
    (hit ≠ 0 → Runs (.trap m b) s fun t =>
      c.LaneFaults t (c.next b.len) [] .trap ((lanesOf hit).map fun l => ⟨l, .trap, 0, 0⟩)) ∧
    (Runs (.yield m) s fun t => ∃ s1, c.Writes s1 (c.p.pc + 4) m [] ∧ t = s1.updPath c.ref c.slot fun p =>
      { p with park := .yield (BitVec.ofNat 64 (32 + if c.w.onLoupe? = none then s.time.toNat else s.loupeClk (s.dieOf c.ref))) }) ∧
    (Runs (.prgn m d) s fun t => ∃ s1, c.Writes s1 (c.p.pc + 4) m [] ∧ t = s1.updWarp c.ref fun w =>
      if w.prof.length < 4 then { w with prof := ProfSet.start d.toNat s.time :: w.prof }
      else { w with profOver := w.profOver + 1 }) ∧
    (0 < c.w.profOver → Runs (.prgx m) s fun t => ∃ s1, c.Writes s1 (c.p.pc + 4) m [] ∧
      t = s1.updWarp c.ref fun w => { w with profOver := w.profOver - 1 }) ∧
    (c.w.profOver = 0 → c.w.prof = [] → Runs (.prgx m) s fun t => c.Writes t (c.p.pc + 4) m []) ∧
    (∀ q rest, c.w.profOver = 0 → profRetire c.w.prof = q :: rest → Runs (.prgx m) s fun t =>
      ∃ s1, c.Writes s1 (c.p.pc + 4) m [] ∧
        t = (s1.updWarp c.ref fun w => { w with prof := rest }).profWrite c.ref q rest.length false) ∧
    get 0 c.ref.warp ∧
    get 1 r.warps ∧
    get 2 (c.ref.block % max r.gridX 1) ∧
    get 3 (index (max r.gridX 1) % max r.gridY 1) ∧
    get 4 (index (max r.gridX 1) / max r.gridY 1 % max r.gridZ 1) ∧
    get 5 r.gridX ∧ get 6 r.gridY ∧ get 7 r.gridZ ∧
    get 8 (c.ref.block % max r.cluster 1) ∧
    get 9 (if r.span = 0 then 0 else c.ref.block % r.span) ∧
    (r.tripod = true → get 10 (c.ref.block % max r.lcores 1)) ∧
    (r.tripod = false → get 10 (permuted c.l.uid (s.coreIndex c.b))) ∧
    (∀ uid, ((List.range 384).map (permuted uid)).Perm (List.range 384)) ∧
    get 11 32 ∧
    get 12 (if r.tripod then c.w.retired else s.time.toNat) ∧
    get 13 ((if r.tripod then c.w.retired else s.time.toNat) / 2 ^ 32) ∧
    get 14 (if r.tripod then c.w.frame.no else 0) ∧
    get 15 c.active.toNat ∧
    get 16 c.w.exited.toNat ∧
    get 17 (c.w.closes % 65536) ∧
    get 18 (c.w.doneCloses % 65536)

/-- 21 R314, R324, R325: SSET and SELFTEST are privileged: in an unprivileged launch they fault PERMISSION, as issue faults do.
SSET EBUDGET sets or clears the core's own budget, SSET INJECT arms or disarms the warp; a value that breaks its column
faults ILLEGAL_MODE. SELFTEST waits for its test, once no splice operation owes its warp a result (the model's choice,
notes/assumptions/31.md); in tripod mode it faults TRIPOD_SCOPE. Stated where no s-register of the warp holds an uncorrectable error
(19 R283). -/
def Obligations.PrivilegedResults : Prop :=
  ∀ (s : State) (c : Ctx), s.ctx? = some c → c.SoundS → ∀ (m : Bool) (d : Field) (b : Src),
    let v := (c.sb b).toNat
    let budget := v = 0 ∨ (2 ≤ v ∧ v ≤ 64)
    let arms := v / 2 ^ 13 % 2 ^ 18 = 0 ∧ v / 128 % 2 = 0 ∧ v % 128 < c.l.record.regs
    let test := v / 2 ^ 14 = 0 ∧ v / 8 % 32 = 0 ∧ 1 ≤ v % 8 ∧ v % 8 ≤ 4 ∧ (v % 8 = 4 ∨ v / 256 = 0)
    let faults (i : Instr) (m : Bool) (k : FaultKind) : Prop := Runs i s fun t => t = c.pathFault s k 0 0 ⟨m, b.len, [], b.sregs⟩
    (c.l.privileged = false →
      (Runs (.sset m d b) s fun t => t = c.issueFault .permission b.len) ∧
      Runs (.selftest m d b) s fun t => t = c.issueFault .permission b.len) ∧
    (c.l.privileged = true → d.toNat = 64 →
      (budget → Runs (.sset m d b) s fun t => ∃ s1, s1 = { s with x := { s.x with cores := s1.x.cores } } ∧
        s1.core c.b.coreKey = { s.core c.b.coreKey with sset := if v = 0 then none else some (v, c.l.uid) } ∧
        (∀ k, k ≠ c.b.coreKey → s1.core k = s.core k) ∧ ({ c with s := s1 } : Ctx).Writes t (c.next b.len) m []) ∧
      (¬budget → faults (.sset m d b) m .illegalMode)) ∧
    (c.l.privileged = true → d.toNat = 65 →
      (arms → Runs (.sset m d b) s fun t =>
        c.Done t { c.w with inject := if v / 2 ^ 31 = 1 then some (v % 128, v / 256 % 32) else none } c.p (c.next b.len) m []) ∧
      (¬arms → faults (.sset m d b) m .illegalMode)) ∧
    (c.l.privileged = true → c.l.record.tripod = true → faults (.selftest m d b) false .tripodScope) ∧
    (c.l.privileged = true → c.l.record.tripod = false → ¬test → faults (.selftest m d b) false .illegalMode) ∧
    (c.l.privileged = true → c.l.record.tripod = false → test → s.splicing c.ref = false → Runs (.selftest m d b) s fun t =>
      ∃ n, ({ c with p := { c.p with waitStart := some s.time } } : Ctx).Parks t c.w (.selftest d.toNat (c.sb b) n) ∧
        (n = 0 ∨ (v % 8 = 4 ∧ (n = 2 ∨ n = 3))))

/-- 21 R317, R319, R320: LOUPE and DBGBRK, and RESUME outside a continuation, which faults ILLEGAL_MODE. LOUPE is a NOP where
no transfer may take its warp: on a loupe core, on a die without a loupe cluster, in a world that no session opens to the
debugger, in a continuation. Elsewhere it completes and its warp leaves for the slot of a loupe core that it may take; with none
it waits at its instruction, behind the warps that wait already. DBGBRK is a NOP in a launch that is not armed, on a loupe core
in a world that is not open to the debugger, and on an ordinary core where LOUPE is one; that it is one there in a continuation,
too, is the model's choice (notes/assumptions/44.md). In an armed launch on a loupe core it completes, and its warp pauses; on an
ordinary core the warp leaves as at LOUPE (20 R294), with the break to be taken when it arrives. The premise that no splice
operation owes the warp a result, for which those that leave and RESUME wait, is notes/assumptions/31.md. -/
def Obligations.DebugInstructionResults : Prop :=
  ∀ (s : State) (c : Ctx), s.ctx? = some c → ∀ (m : Bool) (d a : Field),
    let may := c.w.onLoupe? = none ∧ s.loupeSite? c.b.die ≠ none ∧ c.w.frozen = none ∧ s.debugAllowed c.l = true
    let nop (i : Instr) : Prop := ∃ t, exec i s = .next t ∧ c.Writes t (c.p.pc + 4) m []
    let leaves (i : Instr) (brk : Option (LaneMask × Word × Bool)) : Prop := s.splicing c.ref = false →
      (∀ k n, s.slotFor c.ref = some (k, n) → (∀ k n, c.w.loupe.place ≠ .leaving k n) →
        ∃ t, exec i s = .next t ∧ OnlyWarp s t c.ref ∧ ∃ x y, t.warp? c.ref = some x ∧ x.loupe.place = .leaving k n ∧
          x.loupe.brk = brk ∧ x.inject = none ∧ x.path? c.slot = some y ∧ y.pc = c.next 4 ∧ y.writes = [] ∧
          c.w.retired < x.retired) ∧
      (s.slotFor c.ref = none → c.w.loupe.place = .home → ∃ t, exec i s = .next t ∧
        ({ c with s := { s with nextOp := s.nextOp + 1 } } : Ctx).Parks t
          { c.w with loupe := { c.w.loupe with place := .wanting s.nextOp, brk := brk } } .loupeSlot)
    (s.debugAllowed c.l = true ↔
      c.l.record.world = 0 ∨ ∃ x, (s.iface c.l.iface).session = some x ∧ x.debug = true) ∧
    (¬may → nop (.loupe m)) ∧
    (may → leaves (.loupe m) c.w.loupe.brk) ∧
    (c.l.dbgArmed = false ∨ (c.w.onLoupe? ≠ none ∧ s.debugAllowed c.l = false) ∨ (c.w.onLoupe? = none ∧ ¬may) →
      nop (.dbgbrk m)) ∧
    (c.l.dbgArmed = true → c.w.onLoupe? ≠ none → s.debugAllowed c.l = true → ∃ t, exec (.dbgbrk m) s = .next t ∧
      OnlyWarp s t c.ref ∧ ∃ x y, t.warp? c.ref = some x ∧ x.loupe.pause = .breakpoint ∧ x.loupe.brk = none ∧
        x.path? c.slot = some y ∧ y.pc = c.next 4 ∧ y.lanes = c.p.lanes ∧ y.writes = c.p.writes ∧
        x.retired = c.w.retired + 1) ∧
    (c.l.dbgArmed = true → may → leaves (.dbgbrk m) (some (c.active, c.p.pc, c.w.pathBit c.slot))) ∧
    (c.w.frozen = none → s.splicing c.ref = false →
      Runs (.resume m d a) s fun t => t = c.landed.pathFault c.landed.s .illegalMode 0 0 ⟨false, 4, [], []⟩)

/-- 16 R257 to R262, 13 R214, R215: ECW writes a staging word. EGO sends the snapshot of the staging words: a copy
command or a RELAB that passes its check joins the open batch, one that fails completes the batch in error, a collective step
that passes its check, and that no other member's step contradicts, joins its chain too, and with 64 commands pending the path
waits. BCLOSE closes the batch and gives its number, and a path whose wait that ends issues again; with as many closed batches as
there may be it waits. WAITB goes on when the batches up to n have completed with no error unreported, outside tripod mode; it
waits while they have not, and faults for a number that lies ahead; BPOLL, outside tripod mode, tells which, and faults alike.
The model's choices: a number exactly 2^15 closes behind names the batch there, and a wait holds the n that it has read first
(notes/assumptions/15.md, 47.md); EGO and RELAB commands count towards the 64 (30.md); a copy or a RELAB waits while a splice
operation owes the warp a result, which its clauses leave out (31.md); a step's fields go to every other member (48.md); an error
that no batch of the warp holds is the next WAITB's (43.md). Stated where no s-register of the warp holds an uncorrectable error
(19 R283). -/
def Obligations.BatchInstructionResults : Prop :=
  ∀ (s : State) (c : Ctx), s.ctx? = some c → c.SoundS → ∀ (m : Bool) (d a : Field) (b : Src),
    let pair : DWord := BitVec.ofNat 64 ((c.sr a.toNat).toNat + 2 ^ 32 * (c.sr (a.toNat + 1)).toNat)
    let w := c.w.staging
    let pending := (s.x.ops.filter fun o => decide (o.ref = c.ref) && !o.finished && o.work.isCommand).length
    let room (n : Nat) : Prop := s.rltRoom c.b.coreKey n = true
    let issues (i : Instr) (work : Work) : Except (FaultKind × Word) (List Lock) → Prop
      | .ok zs => s.splicing c.ref = false → room zs.length → Runs i s fun t => c.Joins s t c.w (c.p.pc + 4) m work zs
      | .error e => s.splicing c.ref = false → Runs i s fun t => c.FailsAtIssue t (c.p.pc + 4) m e.1 e.2
    let closed : Warp := { c.w with closes := c.w.closes + 1, doneCloses :=
      if c.w.doneCloses < c.w.closes + 1 ∧ s.batchFinished c.ref (c.w.doneCloses + 1) = true then c.w.doneCloses + 1
      else c.w.doneCloses }
    let look (p : Path) : Path := { p with park := match p.park with
      | .batch k => if closed.reached k then .none else .batch k
      | .closeRoom => if closed.closeFull then .closeRoom else .none
      | k => k }
    let n := match c.p.waitOn with
      | some x => x.1.toNat
      | none => (c.sb b).toNat % 2 ^ 16
    let sh : Shape := ⟨m, b.len, [], if c.p.waitOn = none then b.sregs else []⟩
    let waits : Ctx := { c with p := { c.p with waitOn := some (BitVec.ofNat 32 n, 0) } }
    let after := (n + 65536 - c.w.closes % 65536) % 65536
    let ahead := 1 ≤ after ∧ after < 2 ^ 15
    let upTo := c.w.closes - (c.w.closes % 65536 + 65536 - n) % 65536
    let mine := c.w.errors.filter fun e => decide (e.closeNo ≤ upTo) || e.atNext
    (Runs (.ecw m d a) s fun t => c.Done t { c.w with staging := match d.toNat with
      | 0 => { w with w0 := pair }
      | 1 => { w with w1 := pair }
      | 2 => { w with w2 := pair }
      | _ => { w with w3 := pair } } c.p (c.p.pc + 4) m []) ∧
    (64 ≤ pending → Runs (.ego m d) s fun t => c.Parks t c.w .room) ∧
    (pending < 64 → d.toNat = 0 → issues (.ego m d) (.copy w) (c.copyCheck w)) ∧
    (pending < 64 → d.toNat = 1 → ∀ f zs, c.relabCheck w = .ok (f, zs) → issues (.ego m d) (.relab f w) (.ok zs)) ∧
    (pending < 64 → d.toNat = 1 → ∀ e, c.relabCheck w = .error e → issues (.ego m d) .nothing (.error e)) ∧
    (pending < 64 → d.toNat = 2 →
      let own := s.ownChain c.ref c.l.iface w.stGroup w.stTag
      own.bind Chain.error = none → c.stepBad w own = false → ¬(c.l.record.tripod = true ∧ w.stKind = 3) → room 0 →
      (tget (s.die c.b.die).discard 8).getD 0 = 0 →
      ∀ g, s.groupOf c.l.iface w.stGroup = some g →
      let hd := w.header c.l.iface g.rank
      (∀ h ∈ s.ctl.held, h.seg.data = [] → sameStep h.seg hd = true → stepsAgree h.seg hd = true) →
      Runs (.ego m d) s fun t => ∃ s0 id, s0 = { s with
          ctl := { s.ctl with chains := s0.ctl.chains, held := s0.ctl.held, outbox := s0.ctl.outbox }
          x := { s.x with dies := s0.x.dies } } ∧
        (∀ h ∈ s0.ctl.held, h ∈ s.ctl.held) ∧
        s0.ctl.outbox = s.ctl.outbox ++ ((List.range g.n).filter fun k => decide (k ≠ g.rank)).filterMap (fun k =>
          g.routes[k]?.map fun r => (r.1, ⟨true, c.l.iface, w.stGroup, r.2, some hd⟩)) ∧
        (∀ e, { s0.die e with accepted := [] } = { s.die e with accepted := [] }) ∧
        (∃ k ∈ s0.ctl.chains, k.id = id ∧ k.ref = c.ref ∧ k.tag = w.stTag ∧ k.nextStep = w.stStep + 1 ∧
          k.lastSeen = w.stLast) ∧ c.Joins s0 t c.w (c.p.pc + 4) m (.step id w) []) ∧
    (64 ≤ pending → Runs (.relab m a) s fun t => c.Parks t c.w .room) ∧
    (pending < 64 → ∀ e, c.relabCheck ⟨pair, BitVec.ofNat 64 (c.sr2 (a.toNat + 2)), 0, 0⟩ = .error e →
      issues (.relab m a) .nothing (.error e)) ∧
    (pending < 64 → ∀ f zs, c.relabCheck ⟨pair, BitVec.ofNat 64 (c.sr2 (a.toNat + 2)), 0, 0⟩ = .ok (f, zs) →
      issues (.relab m a) (.relab f ⟨pair, BitVec.ofNat 64 (c.sr2 (a.toNat + 2)), 0, 0⟩) (.ok zs)) ∧
    (c.w.closeFull = true → Runs (.bclose m d) s fun t => c.Parks t c.w .closeRoom) ∧
    (c.w.closeFull = false → Runs (.bclose m d) s fun t =>
      c.Done t { closed with p0 := c.w.p0.map look, p1 := c.w.p1.map look } c.p (c.p.pc + 4) m
        [(.s d.toNat, BitVec.ofNat 32 ((c.w.closes + 1) % 65536))]) ∧
    (n < 2 ^ 16 →
      (ahead → Runs (.waitb m b) s fun t => t = c.pathFault s .batchAhead 0 (BitVec.ofNat 32 n) sh) ∧
      (ahead → Runs (.bpoll m d b) s fun t => t = c.pathFault s .batchAhead 0 (BitVec.ofNat 32 n) sh) ∧
      (¬ahead → c.w.doneCloses < upTo → Runs (.waitb m b) s fun t => waits.Parks t c.w (.batch n)) ∧
      (¬ahead → c.w.doneCloses < upTo → c.l.record.tripod = true → Runs (.bpoll m d b) s fun t => waits.Parks t c.w (.batch n)) ∧
      (¬ahead → upTo ≤ c.w.doneCloses → mine = [] → c.l.record.tripod = false →
        Runs (.waitb m b) s fun t => c.Writes t (c.next b.len) m []) ∧
      (¬ahead → c.l.record.tripod = false → Runs (.bpoll m d b) s fun t =>
        let done := decide (upTo ≤ c.w.doneCloses)
        c.Writes t (c.next b.len) m [(.s d.toNat, BitVec.ofNat 32 (c.w.doneCloses % 65536 * 65536 +
          (if done ∧ mine ≠ [] then 2 else 0) + if done then 1 else 0))]))

/-- 14 R226, R229, R231, R237, 16 R263 to R265: the matrix instructions. MLOADB, MZERO and MDRAIN join the open batch
when they pass their checks and else complete it in error. An MMA takes its Active lanes as rows, posts a request for each
quarter that holds one, in ascending order, and completes; with no Active lane it completes at once. The entries of the filter
table that it latches at issue are those of the rows that name a filter (14 R239). The model's choices: the ADDR of 0 of an error
that R286 gives no address (notes/assumptions/24.md); that an MMA latches at issue, or later where an earlier operation of its warp
has still to write the entries (8.md); that each of these waits while a splice operation owes the warp a result, which the clauses
leave out (31.md). Stated where no s-register of the warp holds an uncorrectable error (19 R283). -/
def Obligations.MatrixInstructionResults : Prop :=
  ∀ (s : State) (c : Ctx), s.ctx? = some c → c.SoundS → ∀ (m : Bool) (d a : Field) (b : Src),
    let room (n : Nat) : Prop := s.rltRoom c.b.coreKey n = true
    let strip (acc : Option Bool) (ns : List Nat) : State := s.noteAcc c.b acc ns
    let issues (s0 : State) (i : Instr) (len : Nat) (work : Work) : Except (FaultKind × Word) (List Lock) → Prop
      | .ok zs => s.splicing c.ref = false → room zs.length → Runs i s fun t => c.Joins s0 t c.w (c.next len) m work zs
      | .error e => s.splicing c.ref = false → Runs i s fun t => c.FailsAtIssue t (c.next len) m e.1 e.2
    issues s (.mloadb m d a) 4 (.mload d.toNat (c.sr a.toNat)) (c.mloadCheck d.toNat (c.sr a.toNat)) ∧
    issues s (.mdrain m d a b) b.len (.mdrain d.toNat (c.sr a.toNat) (c.sb b) c.sat)
      (c.drainCheck d.toNat (c.sr a.toNat) (c.sb b)) ∧
    issues (strip none [d.toNat]) (.mzero m d) 4 (.mzero d.toNat)
      (if c.l.record.accn = 0 then .error (.slotInvalid, 0)
        else if c.l.record.accn ≤ d.toNat then .error (.outOfRange, 0)
        else if c.l.record.tripod = true ∧ d.toNat % max c.l.record.warps 1 ≠ c.ref.warp then .error (.tripodScope, 0)
        else .ok []) ∧
    ∀ (acc : BitVec 4) (adesc : BitVec 6) (fslot : BitVec 3) (shape : BitVec 2) (fvec : BitVec 6),
      let i : Instr := .mma m acc adesc fslot shape fvec
      let j : MmaJob :=
        { addr := c.sr adesc.toNat, desc := c.sr (adesc.toNat + 1), acc := acc.toNat, fslot := fslot.toNat
          shape := shape.toNat, rows := c.active
          ids := (lanesOf c.active).map fun l => (l, if fvec.toNat = 63 then 0 else c.v fvec.toNat l)
          latches := none, ready := false, unposted := [], left := [], soft := 0 }
      c.w.inject = none → c.w.soft = [] → s.splicing c.ref = false →
      (∀ o ∈ s.x.ops, o.id < s.nextOp) → (fvec.toNat ≠ 63 → fvec.toNat < c.l.record.regs) →
      (∀ k x, c.mmaCheck j fvec.toNat = .error (k, x) → Runs i s fun t => c.FailsAtIssue t (c.p.pc + 4) m k x) ∧
      ∀ qs, c.mmaCheck j fvec.toNat = .ok qs →
        let s0 := strip (some (slotAcc (c.l.record.fslot j.fslot))) ((List.range (descNs j.desc)).map fun k => j.acc + k)
        (c.active = 0 → Runs i s fun t => ({ c with s := s0 } : Ctx).Writes t (c.p.pc + 4) m []) ∧
        (c.active ≠ 0 → room qs.length → (s0.engine c.b.die c.b.site).mrtUsed + qs.length ≤ 32 → Runs i s fun t =>
          ∃ o s1, o.id = s.nextOp ∧ o.ref = c.ref ∧ o.closeNo = c.w.closes + 1 ∧ o.locks = qs.map Prod.snd ∧
            (∃ j', o.work = .mma j' ∧
              j' = { j with unposted := [], left := qs.map Prod.fst, latches := j'.latches, ready := j'.ready } ∧
              ∀ las, j'.latches = some las →
                las.map Latch.row = (j.ids.filter fun x => decide (x.2 ≠ 0)).map Prod.fst) ∧
            s1 = { s0 with
              nextOp := s.nextOp + 1, ctl := s1.ctl
              x := { s0.x with ops := s.x.ops ++ [o], engines := s1.x.engines, dies := s1.x.dies } } ∧
            ((∀ x ∈ j.ids, x.2 = 0) → s1.ctl = s.ctl ∧ s1.x.dies = s.x.dies) ∧
            (s1.engine c.b.die c.b.site).mrt = (s0.engine c.b.die c.b.site).mrt ++
              qs.map (fun x => ⟨o.id, x.1, c.active &&& quarterLanes x.1, c.l.record.prio, s.time⟩) ∧
            ({ c with s := s1 } : Ctx).Writes t (c.p.pc + 4) m [])

/-- 15 R249, R251, R252, R254, 16 R266, R267, R269: the splice instructions send their operands, in ascending lane order, and the
forest that their warp has bound, to the splice engine. UNITE, FIND, CSIZE and SNAP complete with their result outstanding,
whatever earlier ones the warp is still owed (04 R64); UNDO, and each of them in tripod mode, waits there. SPINIT binds the forest
of its descriptor; with INIT an initialising operation joins the batch, and a bad descriptor faults and binds nothing. The model's
choice (notes/assumptions/31.md): while a splice operation owes the warp a result, the instructions named here, before which
04 R69 or 10 R182 wants it applied, wait at their PC. Stated where no s-register of the warp holds an uncorrectable error
(19 R283). -/
def Obligations.SpliceInstructionResults : Prop :=
  ∀ (s : State) (c : Ctx), s.ctx? = some c → c.SoundS → ∀ (m : Bool) (d a : Field) (b : Src),
    let args (q : LaneMask) : List (Nat × Word) := (lanesOf q).map fun l => (l, c.v a.toNat l)
    let w (k : Nat) : Word := c.sr (a.toNat + k)
    (c.Ready (d.toNat :: a.toNat :: b.vregs) → Runs (.unite m d a b) s fun t =>
      c.Sends t m b.len (.unite d.toNat ((lanesOf c.active).map fun l => (l, c.v a.toNat l, c.vb b l)))) ∧
    (c.Ready [d.toNat, a.toNat] →
      (Runs (.find m d a) s fun t => c.Sends t m 4 (.find d.toNat (args c.active))) ∧
      Runs (.csize m d a) s fun t => c.Sends t m 4 (.csize d.toNat (args c.active))) ∧
    (Runs (.snap m d) s fun t => c.Sends t m 4 (.snap d.toNat)) ∧
    (Runs (.undo m b) s fun t => c.Sends t m b.len (.undo (c.sb b))) ∧
    (∀ x, c.spinitCheck (w 0) (w 1) (w 2) (w 3) = .ok x →
      let bound := { c.w with forest := some ⟨w 0, (w 1).getLsbD 31, (w 1).toNat % 2 ^ 22, w 2, (w 3).toNat⟩ }
      ((w 1).getLsbD 30 = false → Runs (.spinit m a) s fun t => c.Done t bound c.p (c.p.pc + 4) m []) ∧
      ((w 1).getLsbD 30 = true → s.splicing c.ref = false → s.rltRoom c.b.coreKey 2 = true → Runs (.spinit m a) s fun t => ∃ zs,
        zs.map (fun z => (z.x, z.len, z.dest)) =
          [(w 0, 8 * ((w 1).toNat % 2 ^ 22), true), (w 2, 16 + 16 * (w 3).toNat, true)] ∧
        c.Joins s t bound (c.p.pc + 4) m (.spinit x.f) zs)) ∧
    (∀ k x, c.spinitCheck (w 0) (w 1) (w 2) (w 3) = .error (k, x) → Runs (.spinit m a) s fun t =>
      t = c.pathFault s k 0 x ⟨m, 4, [], (List.range 4).map fun k => 256 + a.toNat + k⟩) ∧
    (s.splicing c.ref = true →
      let waits (i : Instr) : Prop := Runs i s fun t => c.Parks t c.w .drain
      let within (i : Instr) : Prop :=
        (∀ n ∈ directVregs i, n < c.l.record.regs) → acceptsType c.etype i = true → waits i
      waits (.join m a) ∧ waits (.exit m) ∧ waits (.resume m d a) ∧
      waits (.mloadb m d a) ∧ waits (.mdrain m d a b) ∧ waits (.mzero m d) ∧
      (∀ x, c.spinitCheck (w 0) (w 1) (w 2) (w 3) = .ok x → (w 1).getLsbD 30 = true → waits (.spinit m a)) ∧
      within (.vqswap m d a b) ∧
      (∀ lit : Word, within (.brd m d a lit)) ∧
      (c.p.lanes ≠ ~~~c.w.exited → waits (.bar m d) ∧ waits (.bara m d) ∧ waits (.barw m d) ∧ waits (.barc m) ∧
        (c.l.record.cores = true → waits (.barp m))) ∧
      (c.p.carry = none → within (.vshup m d a b) ∧ within (.vshdn m d a b) ∧ within (.vshxor m d a b) ∧
        within (.vshidx m d a b) ∧ within (.vmatch m d a) ∧
        ∀ lit : Word, within (.vvote m d a lit) ∧ within (.vred m d a lit) ∧ within (.vscan m d a lit)))

/-- 04 R64, R65, R67, 07 R134: an outstanding write lands, alone or, where status bits belong to its result, with its
whole result: its register, or its lane's status word, changes and it is outstanding no longer; a path parked at a marker
with none left goes on. None lands while a watchpoint event holds an instruction of the warp (23 R335), which the premise leaves
out. A path that has been eligible and unchosen for 64 clocks is starved. -/
def Obligations.WriteLandingAndStarvation : Prop :=
  (∀ (s : State) (r : WarpRef) (slot : Bool) (w : Warp) (p : Path) (k : Nat) (x : PendingWrite),
    s.warp? r = some w → w.path? slot = some p → p.writes[k]? = some x → w.heldAt = false →
    Runs (.writeLanding r slot k) s fun t => t = { s with x := { s.x with warps := t.x.warps, dies := t.x.dies } } ∧
      (∀ q, q ≠ r → t.warp? q = s.warp? q) ∧ (w.onLoupe? = none → t.x.dies = s.x.dies) ∧
      ∃ u landed rest, (landed ++ rest).Perm p.writes ∧ x ∈ landed ∧
        (landed = [x] ∨ ∃ y ∈ landed, y.target.isReg = false) ∧
        t.warp? r = some u ∧
        u.path? slot = some { p with
          writes := rest
          park := if rest = [] ∧ p.pending = [] ∧ p.park = .marker then .none else p.park } ∧
        u.path? (!slot) = w.path? (!slot) ∧
        u = { w.commitAll (landed.map fun y => (y.target, y.value)) with p0 := u.p0, p1 := u.p1 } ∧
        (landed = [x] → match x.target with
        | .v n l => u.vregs = put0 w.vregs (32 * n + l) x.value ∧ u.sregs = w.sregs ∧ u.status = w.status
        | .s n => u.sregs = put0 w.sregs n x.value ∧ u.vregs = w.vregs ∧ u.status = w.status
        | .stSet l => u.status = put0 w.status l (get0 w.status l ||| (x.value &&& 63)) ∧
            u.vregs = w.vregs ∧ u.sregs = w.sregs
        | .stClr l => u.status = put0 w.status l (stickyClr (get0 w.status l) x.value) ∧
            u.vregs = w.vregs ∧ u.sregs = w.sregs)) ∧
  ∀ (s : State) (r : WarpRef) (slot : Bool) (p : Path), s.path? r slot = some p → 64 ≤ p.starve → p.starved = false →
    Runs (.pathStarvation r slot) s fun t => OnlyWarp s t r ∧ t.path? r slot = some { p with starved := true }

/-- 11 R204, R205, 21 R318, 10 R190, 21 R326: the events that end a wait. A FENCE, a YIELD whose scheduler clocks have passed,
a SELFTEST and a PUBLISH complete, and their path goes on. A WAITF whose word has been written since it read it issues again; when
its time is over a WAITF of a warp that runs reads once more and goes on or faults. A SELFTEST writes its four results. A PUBLISH,
once the host has acknowledged the image that an acknowledging window holds and while no die recovers, makes the window's bytes its
image and advances the version and the counter in host memory by one, and its die is told (24 R351); of a window closed meanwhile
(the model's choice, notes/assumptions/19.md) it issues again. -/
def Obligations.WaitEvents : Prop :=
  ∀ (s : State) (r : WarpRef) (slot : Bool) (c : Ctx), s.ctxAt? r slot = some c →
    let m := s.markerAt c.l c.p.pc
    (c.p.park = .fence → Runs (.fenceComplete r slot) s fun t => c.Writes t (c.p.pc + 4) m []) ∧
    (∀ till, c.p.park = .yield till → till.toNat ≤ s.schedClk c.w →
      Runs (.yieldExpiry r slot) s fun t => OnlyWarp s t r ∧ ∃ p, t.path? r slot = some p ∧ p.pc = c.p.pc ∧
        p.lanes = c.p.lanes ∧ p.starve = 0 ∧ p.starved = false ∧ p.writes = c.p.writes ∧ p.pending = c.p.pending ∧
        p.park = if s.markerAt c.l (c.p.pc - 4) = true ∧ (c.p.writes ≠ [] ∨ c.p.pending ≠ []) then .marker else .none) ∧
    (∀ x seen q o, c.p.park = .waitf x seen → c.l.record.tripod = false →
      localPlace c.l r.block x 4 = some (q, o) → seen < s.wokenAt q r slot →
      Runs (.waitfWake r slot) s fun t => OnlyWarp s t r ∧ t.path? r slot = some { c.p with park := .none }) ∧
    (∀ x seen y v (m' : Bool) d a lim n, c.p.park = .waitf x seen → c.p.waitOn = some (y, v) → s.warpRuns c.w = true →
      s.decodeAt c.l c.p.pc = .instr (.waitf m' d a lim) n →
      lim.toNat ≤ (s.time - c.p.waitStart.getD s.time).toNat → (c.w.onLoupe? = none ∨ c.p.passed = true) →
      ∀ q o, c.check .load y 4 = .ok (q, o) → s.softAt q o 4 = false → Runs (.waitfTimeout r slot) s fun t =>
        if waitCmp d.toNat (s.loadWord c.l r q o) v then c.Writes t (c.next 8) m' []
        else t = c.pathFault s .waitTimeout 0 y ⟨m', 8, [], []⟩) ∧
    (∀ n, c.p.park = .publish n →
      (tget (s.iface c.l.iface).windows n = none → Runs (.publishComplete r slot) s fun t => OnlyWarp s t r ∧
        t.path? r slot = some { c.p with park := .none }) ∧
      ∀ x, tget (s.iface c.l.iface).windows n = some x → (x.ack = true → x.version < x.acked) → s.recovering = false →
        (tget (s.die c.b.die).discard 8).getD 0 = 0 → c.b.die < 8 →
        Runs (.publishComplete r slot) s fun t => ∃ s1 : State,
          let y := { x with image := s.windowImage c.l.iface x, version := (x.version + 1) % 2 ^ 64 }
          let told (d : Die) : Die := { d with stamp := 0, reels := [], reelOff := [], accepted := [] }
          let s2 := s.updIface c.l.iface (fun f => { f with windows := tput f.windows n y })
          s1 = { s2 with
            mem := writeBytes s.mem (hostBase + x.counterPa) (leBytes 8 y.version)
            x := { s.x with dies := s1.x.dies }, ctl := { s2.ctl with log := s1.ctl.log } } ∧
          (s1.die c.b.die).stamp = (s.die c.b.die).stamp + 1 ∧ (∀ d, told (s1.die d) = told (s.die d)) ∧
          ({ c with s := s1 } : Ctx).Writes t (c.p.pc + BitVec.ofNat 32 (decodedLen (s.decodeAt c.l c.p.pc))) m []) ∧
    ∀ d b v (res : SelftestResult), c.p.park = .selftest d b v → Runs (.selftestDone r slot res) s fun t =>
      let k := b.toNat % 8
      let unit := b.toNat / 256 % 64
      let fails := v = 0 ∧ res.pass = false
      ∃ w p, t.warp? r = some w ∧ w.path? slot = some p ∧ w.vregs = c.w.vregs ∧
        p.pc = c.next (decodedLen (s.decodeAt c.l c.p.pc)) ∧
        w.sregs = put0 (put0 (put0 (put0 c.w.sregs d
            (BitVec.ofNat 32 (k * 2 ^ 24 + unit * 2 ^ 16 + if v ≠ 0 then v else if res.pass then 0 else 1)))
          (d + 1) (if fails then res.nfail else 0)) (d + 2) (if fails then res.first else 0xFFFFFFFF)) (d + 3)
          (BitVec.ofNat 32 (s.time - c.p.waitStart.getD s.time).toNat) ∧
        (fails → k = 4 → unit ∈ (t.engine c.b.die c.b.site).fenced)

/-- 10 R186, 13 R215: a frame commits when each warp of its block lets it: the stores of the warps that ended it reach the
block's BSM in ascending WARPID and each warp's in program order, and, where none of those warps has exited, they begin their
next frame. The lowest closed batch of a warp is done once its operations have all finished, and a path whose wait that ends
issues again. -/
def Obligations.CommitAndBatchEvents : Prop :=
  (∀ (s : State) (launch block : Nat) (l : Launch) (n : Nat), s.launch? launch = some l → l.record.tripod = true →
    s.commitNo launch block = some n →
    let ws := byWarp ((s.warpsOf launch block).filter fun w => w.frame.ended && decide (w.frame.no = n))
    let buf := (ws.map fun w => w.frame.buf).flatten
    (∀ w ∈ ws, w.frame.applyOps = [] ∧ w.frame.splice = none) →
    (∀ pl a o e v, BufEntry.red pl a o e v ∈ buf → a % 4 = 0) → s.PlaceOk (.bsm launch block) →
    Runs (.frameCommit launch block) s fun t =>
      (∀ k, t.readPlace (.bsm launch block) (4 * k) 4 =
        applyBuf (.bsm launch block) (4 * k) (s.readPlace (.bsm launch block) (4 * k) 4) buf) ∧
      ((∀ w ∈ ws, w.ended = false) → t.mem = s.mem ∧ t.x.launches = s.x.launches ∧
        ∀ w ∈ ws, ∃ u ∈ t.x.warps, u.ref = w.ref ∧ u.vregs = w.vregs ∧ u.sregs = w.sregs ∧
          u.frame.no = w.frame.next.getD (n + 1) ∧ u.frame.ended = false ∧ u.frame.count = 0 ∧ u.frame.used = 0 ∧
          u.frame.buf = [])) ∧
  ∀ (s : State) (r : WarpRef) (w : Warp), s.warp? r = some w → w.ended = false → w.doneCloses < w.closes →
    (∀ o ∈ s.x.ops, o.ref = r → o.closeNo = w.doneCloses + 1 → o.finished = true) →
    let w' : Warp := { w with doneCloses := w.doneCloses + 1 }
    Runs (.batchCompletion r) s fun t => OnlyWarp s t r ∧ ∃ u, t.warp? r = some u ∧ u.doneCloses = w.doneCloses + 1 ∧
      u.closes = w.closes ∧ u.sregs = w.sregs ∧ u.vregs = w.vregs ∧
      ∀ slot, u.path? slot = (w.path? slot).map fun p =>
        { p with park := match p.park with
          | .batch n => if w'.reached n then .none else .batch n
          | .closeRoom => if w'.closeFull then .closeRoom else .none
          | k => k }

/-- 13 R219, R220, R221, 14 R227, R228, R237, R241, R243: operations of the copy engine, the stationary port and the strips
perform and end; those of the port while no pass reads their slots, those of a strip while no row of it awaits its filter term.
Outside tripod mode a copy from local memory to local memory makes each byte of each destination row the byte of its source row
and changes no other byte; a plain copy of one row from or to main memory that its engine reaches makes each byte of the row the
byte it copies, and changes no other byte of main memory. An atomic on a word of main memory that its engine reaches leaves there
what its operation makes of the old word and the operand, changes no other byte of main memory, and returns the old word to its
lane's local memory where it returns one. A plain tile fills its slot, and MDRAIN stores the 32 rows of a sound strip rounded;
MZERO clears its strip. A bank check fences the free banks whose product is wrong. -/
def Obligations.EngineCompletionEvents : Prop :=
  (∀ (s : State) (op : Nat) (c : OpCtx), s.opCtx? op = some c → s.mayPerform c.l c.o = true →
    let e := s.engine c.b.die c.b.site
    let ends (i : Instr) : Prop :=
      Runs i s fun t => ∃ err : Option BatchError, c.Finished s t err
    (∀ w, c.o.work = .copy w → (w.kind ≠ 5 → ends (.copyEngineCompletion op)) ∧
      (w.kind = 5 → ends (.mainMemoryAtomicCompletion op))) ∧
    (∀ w z y, c.o.work = .copy w → w.kind = 1 → w.scale = false → w.expand = false → w.sealed = false →
      c.l.record.tripod = false → c.o.locks = [z, y] → z.dest = false → y.dest = true → s.PlaceOk z.place → s.PlaceOk y.place →
      (w.rows = 1 ∨ w.rowLen ≤ w.dpitch) →
      (z.place ≠ y.place ∨ overlaps z.lo w.srcExtent y.lo w.dstExtent = false) →
      Runs (.copyEngineCompletion op) s fun t => c.Finished s t none ∧
        (∀ i < w.rows, ∀ k < w.rowLen, t.placeByte y.place (y.lo + i * w.dpitch + k) =
          s.placeByte z.place (z.lo + i * w.spitch + k)) ∧
        ∀ p a, (∀ i < w.rows, ¬(p = y.place ∧ y.lo + i * w.dpitch ≤ a ∧ a < y.lo + i * w.dpitch + w.rowLen)) →
          t.placeByte p a = s.placeByte p a) ∧
    (∀ w, c.o.work = .copy w → w.kind = 2 ∨ w.kind = 3 ∨ w.kind = 4 → w.rows = 1 → w.scale = false → w.expand = false →
      w.sealed = false → c.l.record.tripod = false → (∃ u, s.warp? c.o.ref = some u ∧ u.ended = false) →
      (w.kind = 2 → ∀ z pa, c.o.locks = [z] → z.dest = true → s.PlaceOk z.place → c.Reaches s w.src w.rowLen .rd pa →
        Runs (.copyEngineCompletion op) s fun t => c.Finished s t none ∧ t.mem = s.mem ∧
          (∀ k < w.rowLen, t.placeByte z.place (z.lo + k) = get0 s.mem (pa + k)) ∧
          ∀ p a, ¬(p = z.place ∧ z.lo ≤ a ∧ a < z.lo + w.rowLen) → t.placeByte p a = s.placeByte p a) ∧
      (w.kind = 3 → ∀ z pa, c.o.locks = [z] → z.dest = false → s.PlaceOk z.place → c.Reaches s w.dst w.rowLen .w pa →
        Runs (.copyEngineCompletion op) s fun t => c.Finished s t none ∧
          (∀ k < w.rowLen, get0 t.mem (pa + k) = s.placeByte z.place (z.lo + k)) ∧
          (∀ a, ¬(pa ≤ a ∧ a < pa + w.rowLen) → get0 t.mem a = get0 s.mem a) ∧ ∀ p a, t.placeByte p a = s.placeByte p a) ∧
      (w.kind = 4 → ∀ pa pb, c.o.locks = [] → c.Reaches s w.src w.rowLen .rd pa →
        c.Reaches (s.readVa (some c.b.die) c.o.mmu c.l.record.world w.src w.rowLen).s w.dst w.rowLen .w pb →
        Runs (.copyEngineCompletion op) s fun t => c.Finished s t none ∧
          (∀ k < w.rowLen, get0 t.mem (pb + k) = get0 s.mem (pa + k)) ∧
          (∀ a, ¬(pb ≤ a ∧ a < pb + w.rowLen) → get0 t.mem a = get0 s.mem a) ∧ ∀ p a, t.placeByte p a = s.placeByte p a)) ∧
    (∀ w pa, c.o.work = .copy w → w.kind = 5 → (∃ u, s.warp? c.o.ref = some u ∧ u.ended = false) →
      c.Reaches s w.dst 8 .atom pa →
      let old : DWord := BitVec.ofNat 64 (leNat ((List.range 8).map fun i => get0 s.mem (pa + i)))
      let b : DWord := w.w3
      let cmp : DWord := match c.o.view with
        | .store _ _ bs :: _ => BitVec.ofNat 64 (leNat bs)
        | _ => 0
      let new : DWord :=
        if w.aop = 0 then old + b else if w.aop = 1 then old &&& b else if w.aop = 2 then old ||| b
        else if w.aop = 3 then old ^^^ b else if w.aop = 4 then (if old.toInt ≤ b.toInt then old else b)
        else if w.aop = 5 then (if b.toInt ≤ old.toInt then old else b)
        else if w.aop = 6 then (if old.toNat ≤ b.toNat then old else b)
        else if w.aop = 7 then (if b.toNat ≤ old.toNat then old else b)
        else if w.aop = 8 then b else if old = cmp then b else old
      Runs (.mainMemoryAtomicCompletion op) s fun t => c.Finished s t none ∧
        (∀ i < 8, get0 t.mem (pa + i) = (leBytes 8 new.toNat).getD i 0) ∧
        (∀ a, ¬(pa ≤ a ∧ a < pa + 8) → get0 t.mem a = get0 s.mem a) ∧
        ∀ z, w.noret = false → c.l.record.tripod = false → c.o.locks = [z] → z.dest = true → s.PlaceOk z.place →
          (∀ i < 8, t.placeByte z.place (z.lo + i) = (leBytes 8 old.toNat).getD i 0) ∧
          ∀ p a, ¬(p = z.place ∧ z.lo ≤ a ∧ a < z.lo + 8) → t.placeByte p a = s.placeByte p a) ∧
    (∀ n word, c.o.work = .mload n word → s.slotsInPass c.b.die c.b.site (c.o.work.slots c.l.record) = false →
      ends (.stationaryLoadCompletion op) ∧
      ∀ z b, c.o.locks = [z] → slotB (c.l.record.fslot (mloadFslot word)) ≠ 15 → c.l.record.tripod = false →
        wide16 (slotB (c.l.record.fslot (mloadFslot word))) = false → tget e.banks n = some (b, none) →
        slotRed (c.l.record.fslot (mloadFslot word)) = false →
        Runs (.stationaryLoadCompletion op) s fun t => c.Finished s t none ∧
          ∃ sl, tget (t.engine c.b.die c.b.site).slots n = some sl ∧ sl.tile = s.readPlace z.place z.lo z.len ∧
            sl.btype = slotB (c.l.record.fslot (mloadFslot word)) ∧ sl.filler = c.o.ref) ∧
    (∀ n, c.o.work = .mzero n → s.stripReplay e (c.b.stripBase + n) = false →
      Runs (.stripOperationCompletion op) s fun t => c.Finished s t none ∧
      ∃ st, tget (t.engine c.b.die c.b.site).strips (c.b.stripBase + n) = some st ∧ st.words = [] ∧ st.shadow = []) ∧
    (∀ n a x sat, c.o.work = .mdrain n a x sat → s.stripReplay e (c.b.stripBase + n) = false →
      ends (.stripOperationCompletion op)) ∧
    ∀ n a x sat z st, c.o.work = .mdrain n a x sat → s.stripReplay e (c.b.stripBase + n) = false →
      c.l.record.tripod = false → c.l.record.red = false → c.o.locks = [z] →
      s.PlaceOk z.place → tget e.strips (c.b.stripBase + n) = some st → c.b.stripBase + n ∉ e.soft →
      let f := c.l.record.fslot (drainSlot x)
      slotLegal f = true → drainRow f ≤ drainPitch f x →
      Runs (.stripOperationCompletion op) s fun t => c.Finished s t none ∧
        (∀ row < 32, ∀ k < drainRow f, t.placeByte z.place (z.lo + row * drainPitch f x + k) =
          (drainBytes f sat st.words row).getD k 0) ∧
        ∀ p b, (∀ row < 32, ¬(p = z.place ∧ z.lo + row * drainPitch f x ≤ b ∧ b < z.lo + row * drainPitch f x + drainRow f)) →
          t.placeByte p b = s.placeByte p b) ∧
  ∀ (s : State) (die site : Nat) (wrong : DWord), 2100000 ≤ (s.time - (s.engine die site).lastCheck).toNat →
    Runs (.bankPeriodicCheck die site wrong) s fun t => (t.engine die site).lastCheck = s.time ∧
      ∀ b, b ∈ (t.engine die site).fenced ↔
        b ∈ (s.engine die site).fenced ∨ (b ∈ s.freeBanks die site ∧ wrong.getLsbD b = true)

/-- 14 R232, R235, R239, R241: the events of an MMA's requests. The first request of the arbiter's order whose rows and banks are
free and whose slots hold what it wants enters a pass and leaves the MRT. A pass of one request without filters that no pass
granted before it holds up adds the main term of each of its rows into every word of the row, in each strip, and leaves the
banks. The filter entries of an MMA arrive, one for each row that names a filter, read now where they were not at issue, and
its rows are ready; a slice that has come is no longer missing. -/
def Obligations.MatrixPassEvents : Prop :=
  (∀ (s : State) (die site : Nat) (g : Request),
    let e := s.engine die site
    ((arbiterOrder s.time e.mrt).filterMap s.request?).find? (fun r => s.rowsReady e r [] && s.banksReady e r) = some g →
    (∀ n ∈ g.c.o.work.slots g.c.l.record, e.slotFails (g.c.l.record.fslot g.j.fslot) n = false) →
    Runs (.mrtGrant die site) s fun t => ∃ quarters, g.q ∈ quarters ∧ quarters.Sublist e.mrt ∧
      t.engine die site = { e with
        mrt := e.mrt.filter fun q => decide (q ∉ quarters)
        passes := e.passes ++ [⟨s.nextOp, quarters⟩] } ∧
      t = { s with nextOp := s.nextOp + 1, x := { s.x with engines := t.x.engines } }) ∧
  (∀ (s : State) (die site : Nat) (p : Pass) (q : Quarter) (r : Request),
    (s.engine die site).passes.find? (fun p' => decide (p'.id = p.id)) = some p → p.quarters = [q] →
    s.request? q = some r → r.c.b.die = die → r.c.b.site = site → r.j.latches = some [] →
    s.passHeld (s.engine die site) p.id p.quarters = false → (s.engine die site).softFor r = false →
    let e := s.engine die site
    let f := r.c.l.record.fslot r.j.fslot
    Runs (.passCompletion die site p.id) s fun t => (∀ p' ∈ (t.engine die site).passes, p'.id ≠ p.id) ∧
      ∀ nb < descNs r.j.desc, lanesOf q.rows ≠ [] →
        let st := (tget e.strips (r.c.b.stripBase + r.j.acc + nb)).getD Strip.fresh
        ∃ st', tget (t.engine die site).strips (r.c.b.stripBase + r.j.acc + nb) = some st' ∧
          st'.words = (lanesOf q.rows).foldl (fun ws row => (List.range 128).foldl (fun ws n =>
            put0 ws (128 * row + n) (e.mainTerm f r.j (s.aElems r row) row nb n (get0 ws (128 * row + n)))) ws) st.words) ∧
  (∀ (s : State) (op : Nat) (c : OpCtx) (j : MmaJob), s.opCtx? op = some c → c.o.work = .mma j → j.ready = false →
    (j.latches ≠ none → Runs (.filterEntryRead op) s fun t =>
      ∃ o, t.op? op = some o ∧ o.work = .mma { j with ready := true }) ∧
    (j.latches = none → s.mayLatch c = true → Runs (.filterEntryRead op) s fun t =>
      ∃ o las, t.op? op = some o ∧ o.work = .mma { j with latches := some las, ready := true } ∧
        las.map Latch.row = (j.ids.filter fun x => decide (x.2 ≠ 0)).map Prod.fst)) ∧
  ∀ (s : State) (op row k : Nat) (c : OpCtx) (j : MmaJob) (rp : Replay) (key : Nat × Nat × Nat),
    s.opCtx? op = some c → c.o.work = .mma j →
    (s.engine c.b.die c.b.site).replays.find? (fun r => decide (r.op = op) && decide (r.row = row)) = some rp →
    rp.missing[k]? = some key →
    Runs (.filterSliceArrival op row k) s fun t =>
      ∀ r ∈ (t.engine c.b.die c.b.site).replays, r.op = op → r.row = row → key ∉ r.missing ∧ r.latch = rp.latch

/-- 15 R248, R249, 16 R267: FIND returns each lane's root. When the walk of every element given leads to a root, no element of
the forest has been touched by a plain write, the launch is not in tripod mode and no watchpoint event holds an instruction of
the warp, the splice engine, applying the request, writes into every lane the root its element had before, whatever the lanes
before it have compressed, and every element of the forest still has its root; the path that issued the FIND keeps its place,
and is owed the result no longer. -/
def Obligations.FindReturnsRoots : Prop :=
  ∀ (s : State) (q : SpliceReq) (c : Ctx) (f : Forest) (x : ForestAt) (d : Nat) (args : List (Nat × Word)) (root : Nat → Nat),
    findBy SpliceReq.id q.id s.x.splices = some q → s.ctxAt? q.ref q.slot = some c → q.forest = some f →
    f.at? c.l q.ref.block = some x → x.Ok s → s.foreignForest x = false → s.spliceWaits q = false →
    (∀ y ∈ s.x.splices, y.ref = q.ref → q.id ≤ y.id) → c.w.heldAt = false → q.work = .find d args → q.soft = 0 →
    (∀ a ∈ args, a.2.toNat < f.count ∧ ∃ path, path.length ≤ f.count ∧ ForestWalk s x a.2.toNat path (root a.2.toNat)) →
    Runs (.spliceApply q.id) s fun t =>
      c.Owed t q.id c.p.pc (args.map fun a => (.v d a.1, BitVec.ofNat 32 (root a.2.toNat))) ∧
      ∀ i path r, i < f.count → ForestWalk s x i path r → ∃ path', ForestWalk t x i path' r

/-- 15 R246, R249 to R253: what the splice engine does outside tripod mode, to a forest that no plain write has touched, for a
warp none of whose instructions a watchpoint event holds. A UNITE
of one lane that joins two classes, the log closed, makes the winner the parent of the other root, adds the sizes and returns
the winner with bit 31 set; within one class it returns the root. CSIZE of one lane returns its root's size. SNAP gives the head
of the log and opens it; UNDO with all ones closes and empties it, and its path goes on. The initialisation makes every element
a root of size 1; a RELAB writes each element's root as its label. -/
def Obligations.SpliceEngineEvents : Prop :=
  (∀ (s : State) (q : SpliceReq) (c : Ctx) (f : Forest) (x : ForestAt), findBy SpliceReq.id q.id s.x.splices = some q →
    s.ctxAt? q.ref q.slot = some c → q.forest = some f → f.at? c.l q.ref.block = some x → x.Ok s →
    s.foreignForest x = false → s.spliceWaits q = false → (∀ y ∈ s.x.splices, y.ref = q.ref → q.id ≤ y.id) →
    c.w.heldAt = false → q.soft = 0 →
    let applies (P : State → Prop) (ws : List (WTarget × Word)) : Prop := Runs (.spliceApply q.id) s fun t =>
      P t ∧ c.Owed t q.id c.p.pc ws
    (∀ d l u v pa pb a b, q.work = .unite d [(l, u, v)] → u.toNat < f.count → v.toNat < f.count →
      pa.length ≤ f.count → pb.length ≤ f.count → ForestWalk s x u.toNat pa a → ForestWalk s x v.toNat pb b →
      s.logOpen x = false →
      (a = b → applies (fun t => ∀ i < f.count, i ∉ pa → i ∉ pb → t.parent x i = s.parent x i)
        [(.v d l, BitVec.ofNat 32 a)]) ∧
      (a ≠ b →
        let w := if f.bySize = true ∧ s.size x a ≠ s.size x b then (if s.size x b < s.size x a then a else b) else min a b
        let o := if w = a then b else a
        applies (fun t => t.parent x o = w ∧ t.size x w = (s.size x a + s.size x b) % 2 ^ 32 ∧
            ∀ i < f.count, i ∉ pa → i ∉ pb → i ≠ o → t.parent x i = s.parent x i)
          [(.v d l, BitVec.ofNat 32 (w + 2 ^ 31))])) ∧
    (∀ d l u pa a, q.work = .csize d [(l, u)] → u.toNat < f.count → pa.length ≤ f.count → ForestWalk s x u.toNat pa a →
      applies (fun t => t.size x a = s.size x a) [(.v d l, BitVec.ofNat 32 (s.size x a))]) ∧
    (∀ d, q.work = .snap d → f.logCap ≠ 0 →
      applies (fun t => t.head x = s.head x ∧ t.logOpen x = true) [(.s d, BitVec.ofNat 32 (s.head x))]) ∧
    (q.work = .undo 0xFFFFFFFF → q.id ∉ c.p.pending → Runs (.spliceApply q.id) s fun t => t.head x = 0 ∧
      t.logOpen x = false ∧ c.Owed t q.id (c.next q.len) [])) ∧
  ∀ (s : State) (op : Nat) (c : OpCtx) (f : Forest) (x : ForestAt), s.opCtx? op = some c → s.mayPerform c.l c.o = true →
    f.at? c.l c.o.ref.block = some x → x.Ok s → s.forestWaits c.l c.o x = false →
    (∀ r g, c.o.work = .spinit f → c.o.locks = [r, g] → (r.place, r.lo) = x.rec' → (g.place, g.lo) = x.log →
      f.count < 2 ^ 32 → Runs (.spinitInitCompletion op) s fun t => c.Finished s t none ∧ t.head x = 0 ∧ t.logOpen x = false ∧
        ∀ i < f.count, t.parent x i = i ∧ t.size x i = 1) ∧
    ∀ w lb recs, c.o.work = .relab f w → c.o.locks = [lb, recs] → s.PlaceOk lb.place →
      (lb.place ≠ x.rec'.1 ∨ overlaps lb.lo (4 * w.relN) x.rec'.2 x.f.recBytes = false) →
      ∀ root : Nat → Nat, (∀ k < w.relN, w.relFirst + k < f.count ∧ ∃ path, path.length ≤ f.count ∧
        ForestWalk s x (w.relFirst + k) path (root k)) →
      Runs (.relabCompletion op) s fun t => c.Finished s t none ∧
        ∀ k < w.relN, t.placeWord (lb.place, lb.lo + 4 * k) = BitVec.ofNat 32 (root k)

/-- 25 R355, R358 to R360, 26 R366, R368, 24 R342, R351: collective steps, segments, flits and messages between dies. A HALVE
step, not the last, that holds its partner's data, come within its group's timeout, leaves the sums of the kept elements, the
lower rank's operand first. A step whose data is late ends with WAIT_TIMEOUT. A segment with data that no chain has used is held,
while no operation is there to use it, and discarded when its group's timeout has passed with no chain open. A header, the
segment without data by which a step tells every other member of its fields (the model's choice, log entry 48), is held where no
chain is there and it is not held already. A flit that fails its CRC is sent again, and after eight the
port is down; one for another device goes on by its route, or is dropped and logged where no group is there; a segment for this
device is taken. A message of another world than its receiver's is refused and logged, and the operation that sent it ends;
any other that carries a write writes its bytes, or waits while its receiver recovers. -/
def Obligations.CollectiveAndPortEvents : Prop :=
  (∀ (s : State) (op : Nat) (x : StepCtx) (h : HeldSegment), s.stepCtx? op = some x → x.c.begun = true → x.w.stStep = x.c.doneSteps →
    x.c.kind = 1 → s.heldFrom x.c (halvePartner x.g x.w.stStep) = some h → x.matchesSeg h.seg = true → x.w.stLast = false →
    h.clk.toNat < x.c.since.toNat + x.g.timeoutUs * 2100 →
    Runs (.collectiveStepCompletion op) s fun t => ∃ s1 : State, t = s1.runCollective ∧ (∀ o ∈ s1.x.ops, o.id = op → o.finished = true) ∧
      h ∉ s1.ctl.held ∧ ∀ k, s1.chain? x.c.id = some k → k.doneSteps = x.c.doneSteps + 1 ∧ k.data =
        let n := x.c.data.length / 2
        if x.g.rank < halvePartner x.g x.w.stStep then List.zipWith (addF32 0) (x.c.data.take n) h.seg.data
        else List.zipWith (addF32 0) h.seg.data (x.c.data.drop n)) ∧
  (∀ (s : State) (op : Nat) (x : StepCtx), s.stepCtx? op = some x → x.c.begun = true → x.w.stStep = x.c.doneSteps →
    s.stepResult x = none → x.g.timeoutUs * 2100 ≤ (s.time - x.c.since).toNat →
    Runs (.collectiveTimeout op) s fun t => (∀ o ∈ t.x.ops, o.id = op → o.finished = true) ∧
      ∀ w, s.warp? x.o.ref = some w → w.ended = false →
        ∃ u e, t.warp? x.o.ref = some u ∧ e ∈ u.errors ∧ e.op = op ∧ e.kind = .waitTimeout) ∧
  (∀ (s : State) (seg : Segment), Runs (.segmentArrival seg) s fun t =>
    let s1 := s.purgeHeld
    (s.groupOf seg.iface seg.group = none → t = s) ∧
    (s.groupOf seg.iface seg.group ≠ none → seg.data ≠ [] → s1.segmentUsed seg = true → t = s1) ∧
    (s.groupOf seg.iface seg.group ≠ none → seg.data ≠ [] → s1.segmentUsed seg = false → s.x.ops = [] →
      t = { s1 with ctl := { s1.ctl with held := s1.ctl.held ++ [⟨seg, s.time⟩] } }) ∧
    (s.groupOf seg.iface seg.group ≠ none → seg.data = [] → s.ctl.chains = [] →
      ((∃ h ∈ s1.ctl.held, h.seg.data = [] ∧ h.seg.rank = seg.rank ∧ sameStep h.seg seg = true) → t = s1) ∧
      ((∀ h ∈ s1.ctl.held, ¬(h.seg.data = [] ∧ h.seg.rank = seg.rank ∧ sameStep h.seg seg = true)) →
        t = { s1 with ctl := { s1.ctl with held := s1.ctl.held ++ [⟨seg, s.time⟩] } }))) ∧
  (∀ (s : State) (k : Nat) (h : HeldSegment) (g : Group), s.ctl.held[k]? = some h → s.ctl.chains = [] →
    s.groupOf h.seg.iface h.seg.group = some g → g.timeoutUs * 2100 ≤ (s.time - h.clk).toNat →
    Runs (.segmentDiscard k) s fun t => t = { s with ctl := { s.ctl with held := s.ctl.held.eraseIdx k } }) ∧
  (∀ (s : State) (port : Nat) (f : Flit), s.portUp port = true → Runs (.flitArrival port f) s fun t =>
    (f.ok = false → (s.port port).resends < 8 → t.port port = { s.port port with resends := (s.port port).resends + 1 } ∧
      t.x = s.x ∧ t.mem = s.mem) ∧
    (f.ok = false → 8 ≤ (s.port port).resends → (t.port port).up = false ∧ LogEvent.portDown port ∈ t.ctl.log) ∧
    (f.ok = true → f.devid ≠ s.serial → ∀ g p, s.groupOf f.iface f.group = some g →
      g.routes.find? (fun r => decide (r.2 = f.devid)) = some (p, f.devid) → s.portUp p = true →
      t.ctl.outbox = s.ctl.outbox ++ [(p, f)] ∧ t.x = s.x) ∧
    (f.ok = true → f.devid = s.serial → ∀ g, f.segment = some g →
      t = (s.updPort port fun x => { x with resends := 0 }).takeSegment g) ∧
    (f.ok = true → f.devid ≠ s.serial → s.groupOf f.iface f.group = none →
      LogEvent.flitDropped port ∈ t.ctl.log ∧ t.ctl.outbox = s.ctl.outbox ∧ t.x = s.x)) ∧
  ∀ (s : State) (m : DieMessage), s.ctl.power = .up → s.messageOk m = true → Runs (.diePortMessage m) s fun t =>
    let i := s.messageIface m
    (m.dst < 8 → (s.die m.dst).world ≠ m.world →
      (m.op = none → t.mem = s.mem ∧
        t.ctl.log = s.ctl.log ++ [.worldRefused (s.logicalOf i m.src) (s.logicalOf i m.dst) m.world]) ∧
      ∀ o l, m.op.bind s.op? = some o → s.launch? o.ref.launch = some l → o.finished = false →
        ∀ o' ∈ t.x.ops, o'.id = o.id → o'.finished = true) ∧
    (m.dst < 8 → (s.die m.dst).world = m.world → m.answers = false → (s.die m.dst).st ≠ .running →
      t.mem = s.mem ∧ (t.die m.dst).held = (s.die m.dst).held ++ [m]) ∧
    ((m.dst < 8 → (s.die m.dst).world = m.world) → m.answers = true → t.mem = s.mem) ∧
    ((m.dst < 8 → (s.die m.dst).world = m.world ∧ (s.die m.dst).st = .running) → m.answers = false → s.mem.wf = true →
      (∀ i < m.bytes.length, s.unitKey (m.addr + i) = s.keyOf m.world) →
      ∀ a, get0 t.mem a = if m.addr ≤ a ∧ a < m.addr + m.bytes.length then m.bytes.getD (a - m.addr) 0 else get0 s.mem a)

/-- 20 R294 to R296, R300, R307: a transfer. A warp that leaves for a slot of a loupe core, no splice operation owing it a
result and no SELFTEST of it running (`State.mayArrive`), arrives in it, its writes landed, with a transfer number one higher than the die's last; one on its way home is bound to the scheduler that has fewer warps; one
that waits for a slot leaves when it may have one; the watchdog sends off a warp that has retired nothing for WDOG clocks, or
counts it as skipped when it can have no slot.
20 R303, R304, 27 R381: the darkroom core serves the oldest hit: a predicate starts at the entry that its watchpoint's PROG
names, with its record at 0x200; a nonzero result, or a watchpoint without a predicate, halts the warp when an
instruction's event ends, and a false one lets the held instruction proceed. A predicate that has run for 4,096 darkroom clocks,
or has met an exception, counts as false and marks the record. A store to the log doorbell appends one record, at most four in
a call. Each of these events names the bytes that the run has left in darkroom SRAM, and a return its result. -/
def Obligations.LoupeEvents : Prop :=
  (∀ (s : State) (r : WarpRef) (w : Warp) (b : Block) (l : Launch), s.warp? r = some w → s.block? r.launch r.block = some b →
     s.launch? r.launch = some l →
     let x := (s.die b.die).loupe
     let stays (u : Warp) : Prop := u.sregs = w.sregs ∧ u.vregs = w.vregs ∧ u.status = w.status ∧
       ∀ slot, (u.path? slot).map (fun p => (p.pc, p.lanes, p.mode, p.stack)) =
         (w.path? slot).map fun p => (p.pc, p.lanes, p.mode, p.stack)
     let landed : Prop := s.mayArrive w = true ∧ ∀ slot p, w.path? slot = some p → p.writes = []
     (∀ c k, w.loupe.place = .leaving c k → landed → w.loupe.brk = none →
       Runs (.transferComplete r) s fun t => t.mem = s.mem ∧
         ∃ u, t.warp? r = some u ∧ u.loupe.place = .loupe c k ∧ u.loupe.tseq = x.tseq + 1 ∧ u.loupe.pace = x.ctl.pace ∧
           u.loupe.base = w.retired ∧ stays u ∧
           (t.die b.die).loupe.tseq = x.tseq + 1 ∧ (t.die b.die).loupe.sheetIx = x.sheetIx + 1) ∧
     (w.loupe.place = .returning → landed → Runs (.transferComplete r) s fun t => OnlyWarp s t r ∧
       ∃ u, t.warp? r = some u ∧ u.sched = s.bindSched b r ∧ u.loupe.place = .home ∧ stays u) ∧
     (∀ n c k, w.loupe.place = .wanting n → s.slotFor r = some (c, k) → Runs (.transferComplete r) s fun t =>
       ∃ u, t.warp? r = some u ∧ u.loupe.place = .leaving c k) ∧
     (x.ctl.wdog ≠ 0 → x.ctl.wdog ≤ w.idle → w.ended = false → w.loupe.place = .home → s.loupeSite? b.die ≠ none →
       s.debugAllowed l = true → Runs (.stallWatchdog r) s fun t => ∃ u, t.warp? r = some u ∧ u.idle = 0 ∧
         (∀ c k, s.slotFor r = some (c, k) → u.loupe.place = .leaving c k ∧ u.inject = none) ∧
         (s.slotFor r = none → u.loupe.place = .home ∧ (t.die b.die).loupe.skipped = x.skipped + 1))) ∧
  (∀ (s : State) (d : Nat) (h : Hit) (rest : List Hit), (s.die d).loupe.hits = h :: rest →
     let x := (s.die d).loupe
     (∀ wp m more, h.running = false → h.todo = (wp, m) :: more → Runs (.predicateStart d) s fun t =>
       (t.die d).loupe.hits = { h with running := true, logs := 0 } :: rest ∧ t.x.warps = s.x.warps ∧ t.mem = s.mem ∧
       (t.die d).loupe.dark.start = s.time ∧ (t.die d).loupe.dark.count = 0 ∧
       (t.die d).loupe.dark.pc = BitVec.ofNat 32 (leNat
         (readBytes x.sram (4 * bits ((tget x.wps (64 * h.lcore + wp)).getD 0).toNat 31 26) 4)) ∧
       ((s.die d).loupe.sram.wf = true → ∀ i < 272, get0 (t.die d).loupe.sram (0x200 + i) =
         (h.bytes wp m (h.engine && !s.hitPresent h)).getD i 0)) ∧
     (h.running = true →
       let ends (i : Instr) (result spoilt : Bool) : Prop :=
         (∀ x more, h.todo.tail = x :: more → Runs i s fun t => (t.die d).loupe.hits =
           { h with running := false, todo := x :: more, anyTrue := h.anyTrue || result
                    overrun := h.overrun || spoilt } :: rest) ∧
         (∀ w, h.todo.tail = [] → h.engine = false → s.warp? h.ref = some w → Runs i s fun t =>
           (t.die d).loupe.hits = rest ∧ ∃ u, t.warp? h.ref = some u ∧ u.sregs = w.sregs ∧ u.vregs = w.vregs ∧
             (if h.noPred || h.anyTrue || result then u.loupe.pause = .watch h.slot ∧ u.path? h.slot = w.path? h.slot
              else u.loupe.pause = w.loupe.pause ∧ u.path? h.slot = (w.path? h.slot).map fun p => { p with passed := true }))
       (∀ stores, 12288 ≤ s.darkAge d → x.leaves stores (s.darkStopped d).2 = true →
         ends (.predicateOverrun d stores) false true) ∧
       (s.darkAge d ≤ 12288 → ∀ c m stores, x.leaves stores m = true →
         (x.runDark 4096 = (c, m, .returned) →
           ends (.predicateReturn d (c.x 10) stores) (decide (c.x 10 ≠ 0)) false) ∧
         (x.runDark 4096 = (c, m, .exception) → ends (.predicateException d stores) false true) ∧
         ∀ data, x.runDark 4096 = (c, m, .rang data) → Runs (.logDoorbell d stores) s fun t =>
           let n := min (4 - h.logs) data.length
           t.x.warps = s.x.warps ∧ (t.die d).loupe.sram = m ∧ (t.die d).loupe.sheetIx = x.sheetIx + n ∧
           (t.die d).loupe.hits = { h with logs := h.logs + n } :: rest)))

/-- 04 R62, 07 R126 to R128, R131, R393, 27 R377: a launch from its queue to its end. A launch at the head of its queue rises a
level each 10 ms. It leaves its queue with the record of its entry, and completes at once, FAULTED, when its record fails check
1, or, where it names no fault buffer, with the status of the first of checks 3 to 5 that fails; it goes on when its
dependences have completed OK, and is cancelled when one has not; its dispatch reads the image, computes SIG and makes it
privileged on a test queue of interface 0 in world 0, and a fault of that read ends it FAULTED; a placement of one cluster, of
one block or where no walker keeps what it has read, starts each block's warps at the entry PC, all lanes together, registers
zero (each of these three steps while no die recovers); a release takes the block's warps away, and its
engine operations too unless the launch is in tripod mode and goes on (10 R188). The control die sets a core's energy budget. -/
def Obligations.LaunchEvents : Prop :=
  (∀ (s : State) (i q : Nat), let x := s.queue i q
    (s.headLevel i q).isSome = true → x.aged < 3 → 21000000 * (x.aged + 1) ≤ (s.time - x.headClk).toNat →
    Runs (.priorityAging i q) s fun t => t.x = s.x ∧ t.mem = s.mem ∧ t.queue i q = { x with aged := x.aged + 1 }) ∧
  (∀ (s s1 : State) (i q : Nat), s.chooseLaunch = some ((i, q), s1) → s.recovering = false →
    Runs .launchQueueExit s fun t => t.nextUid = s.nextUid + 1 ∧ ∃ l ∈ t.x.launches, l.uid = s.nextUid ∧ l.iface = i ∧ l.queue = q ∧
      l.record = LaunchRecord.ofBits (leNat (s1.entryBytes i q (s1.queue i q).head 256)) ∧
      (l.stage = .dependences ∨ ∃ st, l.stage = .completed st ∧ st ≠ .ok) ∧
      (l.record.ok (s1.qcountOf i) = false → l.stage = .completed .faulted) ∧
      (l.record.ok (s1.qcountOf i) = true → l.record.faultVa = 0 →
        l.stage = match s.laterCheck i l.record with | some st => .completed st | none => .dependences) ∧
      (l.record.ok (s1.qcountOf i) = true → l.record.faultVa = 0 → l.record.world ≠ s.sessionWorld i →
        l.stage = .completed .worldMismatch)) ∧
  (∀ (s : State) (uid : Nat) (l : Launch), s.launch? uid = some l → l.stage = .dependences →
    let deps := l.record.deps.filter fun d => d.getLsbD 63
    ((∀ d ∈ deps, s.depStatus l.iface d = some .ok) → Runs (.dependenceResolution uid) s fun t =>
      t.launch? uid = some { l with stage := .placement } ∧ t.mem = s.mem) ∧
    ((∃ d ∈ deps, ∃ st, s.depStatus l.iface d = some st ∧ st ≠ .ok) → Runs (.dependenceResolution uid) s fun t =>
      ∃ l', t.launch? uid = some l' ∧ l'.stage = .completed .cancelled)) ∧
  (∀ (s : State) (uid : Nat) (l : Launch), s.launch? uid = some l → l.stage = .placement → s.recovering = false →
    let v := s.readVa none (s.mmu l.iface) l.record.world l.record.codeVa l.record.codeSize
    (v.fault = none → Runs (.launchDispatch uid) s fun t => ∃ l', t.launch? uid = some l' ∧ l'.stage = .running ∧
      t.imageOf l' = v.bytes ∧ l'.sig = signature v.bytes l.record ∧
      (l'.privileged = true ↔ l.iface = 0 ∧ (s.queue 0 l.queue).test = true ∧ l.record.world = 0)) ∧
    (∀ k a, v.fault = some (k, a) → Runs (.launchDispatch uid) s fun t =>
      ∃ l', t.launch? uid = some l' ∧ l'.stage = .completed .faulted)) ∧
  (∀ (s : State) (uid j : Nat) (l : Launch) (p : Placement), s.launch? uid = some l → l.stage = .running → l.stopping = none →
    l.record.cores = false → l.mayPlace j = true → s.placeOk l p = true → s.roomFor l j p = true → s.recovering = false →
    (l.record.cluster = 1 ∨ s.ctl.walkers = []) →
    let r := l.record
    let v := s.readVa none (s.mmu l.iface) r.world r.argVa r.argSize
    v.fault = none → (l.sampled = [] ∨ ∀ w ∈ s.x.warps, w.ref.launch = uid → w.ref.block < j * r.cluster ∨ (j + 1) * r.cluster ≤ w.ref.block) →
    Runs (.blockPlacement uid j [p]) s fun t => ∀ k < r.cluster,
      (∃ b ∈ t.x.blocks, b.launch = uid ∧ b.id = j * r.cluster + k ∧ b.die = p.die ∧ b.site = p.site ∧
        b.released = false ∧ b.core ∈ p.cores ∧ b.barriers = [] ∧ (k = 0 → b.bsm = writeBytes [] 0 v.bytes)) ∧
      ∀ n < r.warps, ∃ w ∈ t.x.warps, w.ref = ⟨uid, j * r.cluster + k, n⟩ ∧ w.exited = 0 ∧ w.sregs = [] ∧ w.vregs = [] ∧
        w.p0 = some (Path.start (BitVec.ofNat 32 r.entry) (BitVec.allOnes 32)) ∧ w.p1 = none) ∧
  (∀ (s : State) (uid id : Nat) (l : Launch) (b : Block), s.launch? uid = some l → s.block? uid id = some b →
    s.releasable b = true → Runs (.blockRelease uid id) s fun t =>
      (∀ x ∈ t.x.blocks, x.launch = uid → x.id = id → x.released = true) ∧
      (∀ w ∈ t.x.warps, ¬(w.ref.launch = uid ∧ w.ref.block = id)) ∧
      ((l.record.tripod = false ∨ b.stopped = true) → ∀ o ∈ t.x.ops, ¬(o.ref.launch = uid ∧ o.ref.block = id))) ∧
  ∀ (s : State) (k n : Nat), Runs (.energyBudgetUpdate k n) s fun t => t.core k = { s.core k with budget := n } ∧
    t.x.warps = s.x.warps ∧ t.x.blocks = s.x.blocks ∧ ∀ j, j ≠ k → t.core j = s.core j

/-- 19 R291, R292, 14 R245: pre-emption. A running block, the one resident block of its unit, that is estimated to end within the
die's drain limit drains, for twice its estimate; another, and one that has drained for that long, stops, to be flushed or saved:
flushed, where its launch owns no matrix engine, just when the launch is IDEM and the block has written nothing outside. With a
block that has drained for that long stop all blocks of a launch cluster with a matrix engine that have not ended (the model's
choice, log entry 43). When each block of a unit has stopped and nothing of it is pending (`State.saveReady`), the save holds its
blocks, with the warps of those not flushed, and the unit leaves the dies; a restore, while no die recovers, brings each warp of
a unit of one cluster without an engine or a span back as it was saved. -/
def Obligations.PreemptionEvents : Prop :=
  (∀ (s : State) (uid u rate : Nat) (l : Launch) (b : Block), s.launch? uid = some l → l.stopping = none →
    s.unitBlocks l u = [b] → s.together l b = [b] → b.released = false → s.blockEnded b = false → b.pre = .running →
    (∀ n, s.blockEstimate l b rate = some n → n ≤ (s.die b.die).drainLimit → Runs (.preemption uid u rate) s fun t =>
      t.block? uid b.id = some { b with pre := .draining (s.time + BitVec.ofNat 64 (2 * n)) } ∧ t.x.warps = s.x.warps) ∧
    ((∀ n, s.blockEstimate l b rate = some n → (s.die b.die).drainLimit < n) → Runs (.preemption uid u rate) s fun t =>
      ∃ b', t.block? uid b.id = some b' ∧ b' = { b with pre := b'.pre } ∧ t.x.warps.map Warp.ref = s.x.warps.map Warp.ref ∧
        (b'.pre = .flushing ∨ b'.pre = .saving) ∧
        (l.record.accn = 0 → (b'.pre = .flushing ↔ l.record.idem = true ∧ b.ext = false)))) ∧
  (∀ (s : State) (uid id : Nat) (l : Launch) (b : Block) (till : DWord), s.launch? uid = some l → s.block? uid id = some b →
    b.pre = .draining till → till.toNat ≤ s.time.toNat → s.blockEnded b = false → b.released = false →
    Runs (.drainLimitExpiry uid id) s fun t => b ∈ s.together l b ∧ ∀ x ∈ s.together l b, s.block? uid x.id = some x →
      ∃ b', t.block? uid x.id = some b' ∧ b' = { x with pre := b'.pre } ∧ (b'.pre = .flushing ∨ b'.pre = .saving) ∧
        (l.record.accn = 0 → (b'.pre = .flushing ↔ l.record.idem = true ∧ x.ext = false))) ∧
  (∀ (s : State) (uid u : Nat) (l : Launch), s.launch? uid = some l → l.stopping = none →
    let bs := s.unitBlocks l u
    s.saveReady bs = true → Runs (.saveComplete uid u) s fun t => (∃ z, t.ctl.saves = s.ctl.saves ++ [z] ∧
      z.launch = uid ∧ z.unit = u ∧ z.blocks.map Block.id = bs.map Block.id ∧
      (∀ b ∈ bs, b.pre = .flushing → ∀ w ∈ z.warps, w.ref.block ≠ b.id) ∧
      ((∀ b ∈ bs, b.pre ≠ .flushing) → z.blocks = bs ∧
        z.warps.map Warp.ref = (s.x.warps.filter fun w => inBlocks bs w.ref).map Warp.ref)) ∧
      (∀ w ∈ t.x.warps, inBlocks bs w.ref = false) ∧
      (∀ b ∈ t.x.blocks, ¬(b.launch = uid ∧ l.record.unitOf b.id = u)) ∧
      t.launch? uid = some { l with saved := l.saved ++ [u] }) ∧
  ∀ (s : State) (uid u : Nat) (l : Launch) (z : Snapshot) (c : LaunchCluster) (p : Placement), s.launch? uid = some l →
    l.stopping = none → s.ctl.saves.find? (fun z => decide (z.launch = uid) && decide (z.unit = u)) = some z →
    z.clusters = [c] → z.engines = [] → z.spans = [] → s.restoreFits l z c p = true → s.recovering = false →
    (∀ b ∈ z.blocks, b.launch = uid ∧ b.released = false ∧ l.record.clusterOf b.id = c.num ∧ ∃ w ∈ z.warps, w.ref.block = b.id) →
    z.blocks ≠ [] → Runs (.restore uid u [p]) s fun t => z ∉ t.ctl.saves ∧
      (∀ b ∈ z.blocks, b.movedTo p l.record.cluster ∈ t.x.blocks) ∧
      ∀ w ∈ z.warps, (∃ b ∈ z.blocks, w.ref.block = b.id) → ∃ x ∈ t.x.warps, x = { w with sched := x.sched }

/-- 27 R370 to R373, 28 R390, R391, 10 R191: the host's registers. A doorbell moves the tail to the count whose low 32 bits it
names, unless more entries would lack completion records than the ring holds: then only ERR is set. A descriptor takes effect
when nothing but WEIGHT changes in a queue that is served. A grant is refused for an enabled interface or beyond 8,192 queues. A
disabled interface takes no register write. An island takes a legal clock and offset, a loupe island keeping its clock. A
margining run starts on an idle, present, unprotected lane, else it ends refused or busy. The model's choices: a descriptor that is
not accepted leaves the queue as it was, and a disabled interface takes no register write (log entry 17); a grant's and a
descriptor's reserved bits are dropped, while an island write with reserved bits set is refused whole (47); the numbering of
margined lanes (21). -/
def Obligations.HostRegisterEvents : Prop :=
  ∀ (s : State), s.ctl.power = .up → ∀ (i q : Nat) (v : DWord) (d : BitVec 256),
    let f := s.iface i
    let x := s.queue i q
    let same (t : State) : Prop := t.x = s.x ∧ t.mem = s.mem
    (Runs (.doorbell i q v) s fun t => same t ∧
      let n := x.tail + (v.toNat % 2 ^ 32 + 2 ^ 32 - x.tail % 2 ^ 32) % 2 ^ 32
      (f.enabled = true → q < s.qcountOf i → x.done + 2 ^ x.log2n < n → t.queue i q = { x with err := true }) ∧
      (f.enabled = true → q < s.qcountOf i → n ≤ x.done + 2 ^ x.log2n → (t.queue i q).tail = n ∧
        (t.queue i q).head = x.head ∧ (t.queue i q).err = x.err) ∧
      (f.enabled = false ∨ s.qcountOf i ≤ q → t = s)) ∧
    (Runs (.queueDescriptorWrite i q d) s fun t => same t ∧
      (f.enabled = true → q < s.qcountOf i → x.accepts i d.toNat = true →
        (t.queue i q).weight = d.toNat % 256 ∧ (t.queue i q).log2n = d.toNat / 2 ^ 24 % 32 ∧
        (t.queue i q).ringPa = d.toNat / 2 ^ 64 % 2 ^ 52 ∧ (t.queue i q).cmplPa = d.toNat / 2 ^ 128 % 2 ^ 52 ∧
        (t.queue i q).tail = x.tail) ∧
      (x.accepts i d.toNat = false → t = s)) ∧
    (Runs (.interfaceGrantWrite i v) s fun t => same t ∧
      (1 ≤ i → i ≤ 127 → f.enabled = false → s.grantSum i (v.toNat % 2 ^ 14) ≤ 8192 →
        t.iface i = { f with dieMask := BitVec.ofNat 8 (v.toNat / 2 ^ 16 % 256), qcount := v.toNat % 2 ^ 14 }) ∧
      (f.enabled = true ∨ 8192 < s.grantSum i (v.toNat % 2 ^ 14) → t = s)) ∧
    (∀ on, 1 ≤ i → i ≤ 127 → Runs (.virtualInterfaceEnable i on) s fun t => same t ∧ t.iface i = { f with enabled := on }) ∧
    (∀ on, i = 0 ∨ 127 < i → Runs (.virtualInterfaceEnable i on) s fun t => t = s) ∧
    (∀ o, o ≠ 0 → o ≠ 8 → Runs (.registerWrite i o v) s fun t => t = s) ∧
    (Runs (.registerWrite i 0 v) s fun t => same t ∧ t.iface i = if f.enabled then { f with ptroot := v } else f) ∧
    (Runs (.registerWrite i 8 v) s fun t => same t ∧ t.iface i = if f.enabled then { f with ftbase := v } else f) ∧
    (Runs (.islandRegisterWrite i q v) s fun t => same t ∧
      (s.islandOk i q v.toNat = true → tget t.ctl.islands q =
        some (if q < 24 ∧ q % 3 = 1 then BitVec.ofNat 64 (v.toNat / 4096 * 4096) else v)) ∧
      (s.islandOk i q v.toNat = false → t = s) ∧
      (i ≠ 0 ∨ (q < 24 ∧ (s.die (q / 3)).world ≠ 0 ∧ voltOffset v.toNat ≠ 0) → t = s)) ∧
    (Runs (.marginGo i v) s fun t => same t ∧ (i ≠ 0 ∨ s.ctl.marginBusy = true ∨ v.getLsbD 63 = false → t = s) ∧
      (i = 0 → s.ctl.marginBusy = false → v.getLsbD 63 = true → marginLegal v.toNat = true →
        s.marginFenced v.toNat = false → s.marginProtected v.toNat = false →
        t.ctl.marginBusy = !s.marginBusy v.toNat ∧
        t.ctl.margin = if s.marginBusy v.toNat then marginWord v.toNat 1 3 0 else marginWord v.toNat 0 0 0) ∧
      (i = 0 → s.ctl.marginBusy = false → v.getLsbD 63 = true →
        (marginLegal v.toNat = false ∨ s.marginFenced v.toNat = true ∨ s.marginProtected v.toNat = true) →
        t.ctl.marginBusy = false ∧ t.ctl.margin = marginWord v.toNat 1 2 0)) ∧
    (∀ fail errs, s.ctl.marginBusy = true → Runs (.marginDone fail errs) s fun t => same t ∧ t.ctl.marginBusy = false ∧
      t.ctl.margin = marginWord s.ctl.margin.toNat 1 (if fail then 1 else 0) errs) ∧
    ∀ k w a, tget f.windows k = some w → a < w.bytes → Runs (.publicationWindowRead i k a) s fun t => same t ∧
      t.ctl.hostReads = s.ctl.hostReads ++ [readBytes w.image (a / 64 * 64) 64]

/-- 27 R374, R378, R379, R382, R383, 09 R170: the commands at the head of a queue whose earlier entries have completed. Each ends
OK or FAULTED with the kind of its fault; one with a reserved bit set ends BAD_COMMAND. COPY and SIGNAL write what the tables let
them; WAIT waits until its compare holds or its time is over; PUBACK counts the images up to the one it names as acknowledged;
SUMMARY, at the head of a queue, and COUNTERS write their record; INVAL completes when no launch holds a covered translation,
and no die and no walker then caches one; WINDOW and GROUP open, set up, close and remove. Those that use main memory, the end of
a WAIT and that of an INVAL are stated while no die recovers. The model's choices: COPY reads all its source before it writes
(log entry 18); the OPEN and ACK bits of WINDOW's dword 5, and closing a window that is not open (19); PUBACK of one that is not
open, GROUP with N = 0 where there is no group, and a WAIT compare above 5 (39). Outside a protected world a command
that has its status completes with its record, and the next entry comes to the head. -/
def Obligations.CommandEvents : Prop :=
  ∀ (s : State) (i q : Nat), s.ctl.power = .up →
    let x := s.queue i q
    let f := s.iface i
    let w := s.sessionWorld i
    (∀ n, s.headEntry i q = some n → x.quiet = true →
      let c : Cmd := ⟨i, q, n, leNat (s.entryBytes i q n 64)⟩
      let ends (t : State) (k : Option FaultKind) : Prop := t.x.warps = s.x.warps ∧ (t.queue i q).head = x.head ∧
        (t.queue i q).running = some ⟨n, s.time, f.ptroot, .ended (if k = none then .ok else .faulted) k⟩
      let cmd (j : Instr) (op : Nat) (used : List Nat) (P : State → Prop) : Prop := c.v % 256 = op →
        (c.clean used = true → Runs j s P) ∧ (c.clean used = false → Runs j s fun t => ends t (some .badCommand) ∧ t.mem = s.mem)
      let mem (j : Instr) (op : Nat) (used : List Nat) (P : State → Prop) : Prop := s.recovering = false → cmd j op used P
      mem (.copy i q) 1 [1, 2, 3] (fun t =>
        let r := s.readVa none (s.mmu i) w (c.dw 1) (c.dw 3)
        let y := r.s.writeVa none (s.mmu i) w none (c.dw 2) r.bytes
        if c.dw 3 = 0 ∨ 2 ^ 32 < c.dw 3 then ends t (some .badCommand) ∧ t.mem = s.mem
        else if r.fault = none then ends t (y.1.map Prod.fst) ∧ t.mem = y.2.mem
        else ends t (r.fault.map Prod.fst) ∧ t.mem = s.mem) ∧
      mem (.signal i q) 2 [1, 2] (fun t =>
        let y := s.writeVa none (s.mmu i) w none (c.dw 1) (leBytes 8 (c.dw 2))
        ends t (y.1.map Prod.fst) ∧ t.mem = y.2.mem) ∧
      mem (.wait i q) 3 [1, 2, 3, 4] (fun t =>
        let r := s.readVa none (s.mmu i) w (c.dw 1) 8
        if 5 < c.dw 3 then ends t (some .badCommand)
        else if r.fault = none then
          (t.queue i q).running = some ⟨n, s.time, f.ptroot, .waiting (c.dw 1) (c.dw 2) (c.dw 3) (c.dw 4)⟩
        else ends t (r.fault.map Prod.fst)) ∧
      cmd (.puback i q) 4 [1, 2] (fun t => (if c.dw 1 < 2 ^ 16 then ends t none else ends t (some .badCommand)) ∧
        ∀ y, c.dw 1 < 2 ^ 16 → tget f.windows (c.dw 1) = some y →
          tget (t.iface i).windows (c.dw 1) = some { y with acked := max y.acked (c.dw 2 + 1) }) ∧
      cmd (.inval i q) 6 [1, 2] (fun t => if c.dw 2 % 65536 ≠ 0 then ends t (some .badCommand)
        else ∃ a b, (t.queue i q).running = some ⟨n, s.time, f.ptroot, .invalidating a b⟩ ∧
          ∀ p, (a ≤ p ∧ p < b) ↔ ∃ va, c.dw 1 ≤ va ∧ va < c.dw 1 + c.dw 2 ∧ va / 65536 = p) ∧
      mem (.window i q) 7 [1, 2, 3, 4, 5] (fun t =>
        (2 ^ 16 ≤ c.dw 1 ∨ 4 ≤ c.dw 5 → ends t (some .badCommand)) ∧
        (c.dw 1 < 2 ^ 16 → c.dw 5 < 4 → c.dw 5 % 2 = 0 → ends t none ∧ (t.iface i).windows = tdel f.windows (c.dw 1)) ∧
        (c.dw 1 < 2 ^ 16 → c.dw 5 < 4 → c.dw 5 % 2 = 1 → (2 ^ 52 ≤ c.dw 4 ∨ c.dw 4 % 8 ≠ 0) → ends t (some .badCommand)) ∧
        (c.dw 1 < 2 ^ 16 → c.dw 5 < 4 → c.dw 5 % 2 = 1 → c.dw 4 < 2 ^ 52 → c.dw 4 % 8 = 0 →
          let r := s.readVa none (s.mmu i) w (c.dw 2) (c.dw 3)
          if r.fault = none then ends t none ∧ tget (t.iface i).windows (c.dw 1) =
            some ⟨c.dw 2, c.dw 3, c.dw 4, decide (2 ≤ c.dw 5), w, writeBytes [] 0 r.bytes, 0, 0⟩
          else ends t (r.fault.map Prod.fst))) ∧
      cmd (.group i q) 8 [1, 2, 3, 4, 5] (fun t =>
        let es := s.routeTable (c.dw 5) (c.dw 2)
        (256 ≤ c.dw 1 ∨ s.groupBusy i (c.dw 1) = true → ends t (some .badCommand)) ∧
        (c.dw 1 < 256 → s.groupBusy i (c.dw 1) = false → c.dw 2 = 0 →
          ends t none ∧ (t.iface i).groups = tdel f.groups (c.dw 1)) ∧
        (c.dw 2 ≠ 0 → (powerIn (c.dw 2) 1 256 = false ∨ c.dw 2 ≤ c.dw 3 ∨ 2 ^ 52 ≤ c.dw 5 ∨ c.dw 5 % 64 ≠ 0 ∨
          (∃ y ∈ es.zipIdx, s.routeOk (c.dw 3) y.2 y.1 = false) ∨ s.groupKeysOk i (c.dw 3) es = false) →
          ends t (some .badCommand)) ∧
        (c.dw 1 < 256 → s.groupBusy i (c.dw 1) = false → powerIn (c.dw 2) 1 256 = true → c.dw 3 < c.dw 2 →
          c.dw 5 < 2 ^ 52 → c.dw 5 % 64 = 0 → (∀ y ∈ es.zipIdx, s.routeOk (c.dw 3) y.2 y.1 = true) →
          s.groupKeysOk i (c.dw 3) es = true →
          ends t none ∧ ∃ g, tget (t.iface i).groups (c.dw 1) = some g ∧ g.n = c.dw 2 ∧ g.rank = c.dw 3 ∧
            g.timeoutUs = (if c.dw 4 = 0 then 1000000 else c.dw 4) ∧ g.routes.length = c.dw 2)) ∧
      cmd (.counters i q) 10 [1, 2] (fun t =>
        if c.dw 1 < 2 ^ 52 ∧ c.dw 1 % 4096 = 0 ∧ c.dw 2 < 2 then
          ends t none ∧ t.mem = writeBytes s.mem (hostBase + c.dw 1) (s.countersBytes i)
        else ends t (some .badCommand))) ∧
    (∀ n, s.summaryAt i q n = true → x.head = n → w = 0 →
      let c : Cmd := ⟨i, q, n, leNat (s.entryBytes i q n 64)⟩
      c.clean [1, 2] = true → c.dw 1 < 2 ^ 52 → c.dw 1 % 4096 = 0 → Runs (.summary i q n) s fun t =>
        t.mem = writeBytes (writeBytes s.mem (hostBase + c.dw 1) (s.summaryBytes i (c.dw 2)))
          (hostBase + (x.cmplPa + 64 * (x.done % 2 ^ x.log2n)))
          (leBytes 64 (recordBits (windowOf s.time) q (launchId q n) .ok 0 0 s.time.toNat 0 +
            (1 - x.done / 2 ^ x.log2n % 2) * 2 ^ 256)) ∧ n < (t.queue i q).head ∧ (t.iface i).sessionLost = false) ∧
    (∀ r va v cmp lim, x.running = some r → r.st = .waiting va v cmp lim →
      let y := s.readVa none ⟨i, r.root⟩ w va 8
      y.fault = none → s.recovering = false →
      (waitCmp64 cmp (leNat y.bytes) v = true → Runs (.waitSatisfied i q) s fun t =>
        (t.queue i q).running = some { r with st := .ended .ok none }) ∧
      (waitCmp64 cmp (leNat y.bytes) v = false → lim * 2100 ≤ (s.time - r.start).toNat →
        Runs (.waitCommandTimeout i q) s fun t =>
          (t.queue i q).running = some { r with st := .ended .faulted (some .waitTimeout) })) ∧
    (∀ r a b, x.running = some r → r.st = .invalidating a b → s.heldPages i a b = false →
      s.recovering = false →
      Runs (.invalidationComplete i q) s fun t => (t.queue i q).running = some { r with st := .ended .ok none } ∧
        (∀ d, ∀ e ∈ (t.die d).tlb, e.iface = i → e.meets a b = false) ∧
        ∀ e ∈ t.ctl.walkers, e.iface = i → e.meets a b = false) ∧
    ∀ r st k, x.running = some r → s.cmdStatus r = some (st, k) → w = 0 → Runs (.commandCompletion i q) s fun t =>
      (t.queue i q).running = none ∧ x.head < (t.queue i q).head ∧ (t.queue i q).done = x.done + 1 ∧
      (t.queue i q).ended = x.ended + 1 ∧
      t.mem = writeBytes s.mem (hostBase + (x.cmplPa + 64 * (x.done % 2 ^ x.log2n)))
        (leBytes 64 (recordBits (windowOf s.time) q (launchId q r.n) st ((k.map FaultKind.code).getD 0) 0 s.time.toNat 0 +
          (1 - x.done / 2 ^ x.log2n % 2) * 2 ^ 256))

/-- 27 R380, R381, 20 R294 to R296, R302, R305, R309: the DEBUG sub-ops at the head of a queue. On an enabled loupe cluster
whose world is not closed they write a watchpoint, a program table entry, code, the control record and the names of a slot's
registers, and read out the contact sheet and the film strip. On a warp they transfer, release (when no SELFTEST of it runs on a loupe core), pause and resume, at a fault in the faulting lanes
or at its NPC; ARMBRK arms a launch. A field that breaks its rule refuses with BAD_COMMAND, a closed world with PERMISSION and a
die without a loupe cluster with BAD_COMMAND (this last, and PERMISSION for a closed world, by log entry 35), and nothing
changes. -/
def Obligations.DebugCommandEvents : Prop :=
  ∀ (s : State) (i q n : Nat), s.ctl.power = .up → s.headEntry i q = some n → (s.queue i q).quiet = true →
    let c : Cmd := ⟨i, q, n, leNat (s.entryBytes i q n 64)⟩
    c.v % 256 = 9 → c.dw 1 / 2 ^ 18 % 2 ^ 14 = 0 →
    let ends (t : State) (k : Option FaultKind) : Prop := (t.queue i q).running =
      some ⟨n, s.time, (s.iface i).ptroot, .ended (if k = none then .ok else .faulted) k⟩
    let sub (j : Instr) (k : Nat) (used : List Nat) (P : State → Prop) : Prop :=
      c.sub = k → c.clean (1 :: used) = true → Runs j s P
    let cluster (j : Instr) (k : Nat) (used : List Nat) (P : LoupeCluster → LoupeCluster → State → Prop) : Prop :=
      (∀ d, s.debugDie c = .ok d → sub j k used fun t => t.x.warps = s.x.warps ∧ P (s.die d).loupe (t.die d).loupe t) ∧
      ∀ e, s.debugDie c = .error e → sub j k used fun t => ends t (some e) ∧ t.x = s.x ∧ t.mem = s.mem
    let warp (j : Instr) (k : Nat) (used : List Nat) (P : Warp → Warp → State → Prop) : Prop :=
      (∀ w, s.debugWarp c = .ok w → sub j k used fun t => ∃ u, t.warp? w.ref = some u ∧ P w u t) ∧
      ∀ e, s.debugWarp c = .error e → sub j k used fun t => ends t (some e) ∧ t.x = s.x ∧ t.mem = s.mem
    (∀ e, s.debugDie c = .error e ↔
      (∀ d, (s.logicalDies i)[c.ldie]? = some d → s.loupeSite? d = none) ∧ e = .badCommand ∨
      ∃ d, (s.logicalDies i)[c.ldie]? = some d ∧ s.loupeSite? d ≠ none ∧ s.worldClosed (s.die d).world = true ∧ e = .permission) ∧
    let orBad (t : State) (good : Bool) (P : Prop) : Prop := if good = true then ends t none ∧ P else ends t (some .badCommand)
    cluster (.wpset i q) 1 [2, 3] (fun x y t => orBad t (decide (c.index < 64) && wpLegal c.record)
      (y = { x with wps := tput x.wps (64 * c.lcore + c.index) c.record })) ∧
    cluster (.progset i q) 2 [2, 3] (fun x y t => orBad t (decide (c.index < 64))
      (y = { x with sram := writeBytes x.sram (4 * c.index) (leBytes 4 (c.record.toNat % 2 ^ 16)) })) ∧
    cluster (.drload i q) 3 [4, 5] (fun x y t =>
      orBad t (decide (c.arg 1 % 4 = 0 ∧ c.arg 1 ≤ 61440 ∧ 0x1000 ≤ c.index ∧ c.index + c.arg 1 ≤ 0x10000 ∧ c.arg 0 < 2 ^ 52))
        (y = { x with sram := writeBytes x.sram c.index (readBytes s.mem (hostBase + c.arg 0) (c.arg 1)) })) ∧
    cluster (.ctlset i q) 4 [2, 3] (fun x y t => orBad t (ctlLegal c.record.toNat)
      (y.ctl.pace = c.record.toNat / 2 ^ 32 % 2 ^ 16 ∧ y.ctl.wdog = c.record.toNat % 2 ^ 32 ∧
        y.wps = x.wps ∧ y.sram = x.sram ∧ y.sheet = x.sheet)) ∧
    cluster (.csread i q) 10 [4] (fun x _ t => orBad t (decide (c.arg 0 < 2 ^ 52 ∧ c.arg 0 % 4096 = 0))
      (t.mem = writeBytes s.mem (hostBase + c.arg 0) x.sheetBytes)) ∧
    cluster (.fsread i q) 11 [4] (fun x _ t => orBad t (decide (c.arg 0 < 2 ^ 52 ∧ c.arg 0 % 4096 = 0))
      (t.mem = writeBytes s.mem (hostBase + c.arg 0) x.filmBytes)) ∧
    cluster (.fsname i q) 12 [2, 3] (fun x y t =>
      orBad t (decide (c.index < 32) && (filmNames c.record.toNat).all fun b => decide (b < 0xC0) || decide (b = 256))
        (y = { x with film := tput x.film c.index ((filmNames c.record.toNat).map fun b => ⟨b, []⟩) })) ∧
    warp (.transfer i q) 5 [4, 5, 6] (fun w u t =>
      (s.loupeSite? (s.dieOf w.ref) = none → ends t (some .badCommand)) ∧
      (s.loupeSite? (s.dieOf w.ref) ≠ none → w.loupe.place = .home →
        (t.queue i q).running = some ⟨n, s.time, (s.iface i).ptroot, .moving w.ref false⟩ ∧
        match s.slotFor w.ref with
        | some (a, b) => u.loupe.place = .leaving a b
        | none => ∃ k, u.loupe.place = .wanting k)) ∧
    ((∀ w, s.debugWarp c = .ok w → w.onLoupe? = none ∨ w.testing = false) → warp (.release i q) 6 [4, 5, 6] (fun w u t =>
      (t.queue i q).running = some ⟨n, s.time, (s.iface i).ptroot, .moving w.ref true⟩ ∧
      (w.loupe.pause = .none → (∃ a b, w.loupe.place = .loupe a b) →
        (∀ h ∈ (s.die (s.dieOf w.ref)).loupe.hits, h.ref ≠ w.ref) → u.loupe.place = .returning ∧ u.inject = none))) ∧
    warp (.pause i q) 7 [4, 5, 6] (fun w u t => (w.onLoupe? = none → ends t (some .badCommand) ∧ u = w) ∧
      (w.onLoupe? ≠ none → w.loupe.pause = .none → ends t none ∧ u = { w with loupe := { w.loupe with pause := .debugger } }) ∧
      (w.onLoupe? ≠ none → w.loupe.pause ≠ .none → ends t none ∧ u = w)) ∧
    warp (.debugResume i q) 8 [4, 5, 6, 7] (fun w u t =>
      ((w.loupe.pause = .debugger ∨ w.loupe.pause = .breakpoint) → c.arg 3 = 0 →
        ends t none ∧ u = { w with loupe := { w.loupe with pause := .none } }) ∧
      (2 ≤ c.arg 3 → ends t (some .badCommand) ∧ u = w) ∧
      ∀ cls slot fpc npc m p, w.loupe.pause = .fault cls slot fpc npc m → w.path? slot = some p → c.arg 3 < 2 →
        ends t none ∧ u.loupe.pause = .none ∧ ∃ p', u.path? slot = some p' ∧ p'.lanes = p.lanes ∧
          (c.arg 3 = 0 → p'.pc = fpc ∧ p'.only = some m ∧ p'.back = some npc) ∧ (c.arg 3 = 1 → p'.pc = npc ∧ p'.only = none)) ∧
    (∀ e, s.debugLaunch c = .error e → sub (.armbrk i q) 9 [2, 3, 4] fun t => ends t (some e) ∧ t.x = s.x ∧ t.mem = s.mem) ∧
    ∀ l, s.debugLaunch c = .ok l → sub (.armbrk i q) 9 [2, 3, 4] fun t => ends t none ∧ t.x.warps = s.x.warps ∧
      t.launch? l.uid = (s.launch? l.uid).map fun l => { l with dbgArmed := c.record.getLsbD 0 }

/-- 24 R341, R343, R345 to R348: worlds and sessions. An empty die is zeroed and latched to world 0 or to the world of a session.
A session that is established sets its deadline to three heartbeats from now and its world's key; a heartbeat with a higher
number before the deadline moves it; when the deadline has passed the session is gone, no launch of its world runs, and its world
has a new key. At a window's end the coarsened counters take the values of then, and no record of a window that has ended is
held any longer. -/
def Obligations.WorldEvents : Prop :=
  (∀ (s : State) (d w : Nat), s.ctl.power = .up → s.dieInUse d = true → (s.die d).st = .running → s.dieEmpty d = true →
    (w = 0 ∨ (w ≤ 8 ∧ ∃ f ∈ s.ctl.ifaces, ∃ x, f.2.session = some x ∧ x.world = w)) →
    Runs (.worldLatch d w) s fun t => (t.die d).world = w ∧ t.mem = s.mem ∧ t.x.warps = s.x.warps ∧
      (t.die d).loupe.sram = [] ∧ (t.die d).loupe.sheet = [] ∧ (t.die d).loupe.wps = [] ∧
      (∀ e, e ≠ d → t.die e = s.die e) ∧ (∀ k ∈ t.x.spans, k.die = d → k.spad = []) ∧
      ∀ k < 16, (t.engine d k).slots = [] ∧ (t.engine d k).strips = [] ∧ (t.engine d k).cache = []) ∧
  (∀ (s : State) (r : SessionRequest), s.ctl.power = .up → Runs (.sessionEstablish r) s fun t => t.x = s.x ∧ t.mem = s.mem ∧
    (s.sessionOk r = false → t = s) ∧
    (s.sessionOk r = true → ∃ x, (t.iface r.iface).session = some x ∧ x.world = r.world ∧ x.debug = r.debug ∧
      x.weightKey = r.weightKey ∧ x.lastSeq = none ∧ x.deadline = s.time + BitVec.ofNat 64 (3 * r.heartbeatMs * 2100000) ∧
      t.keyOf r.world = s.ctl.keys ∧ ∀ i, i ≠ r.iface → t.iface i = s.iface i)) ∧
  (∀ (s : State) (i : Nat) (n : DWord) (x : Session), s.ctl.power = .up → (s.iface i).session = some x →
    Runs (.heartbeat i n) s fun t => t.x = s.x ∧ t.mem = s.mem ∧
      if s.time.toNat < x.deadline.toNat ∧ (∀ k, x.lastSeq = some k → k.toNat < n.toNat) then
        (t.iface i).session = some { x with
          lastSeq := some n, deadline := s.time + BitVec.ofNat 64 (3 * x.heartbeatMs * 2100000) }
      else t = s) ∧
  (∀ (s : State) (i : Nat) (x : Session), (s.iface i).session = some x → x.deadline.toNat ≤ s.time.toNat →
    Runs (.heartbeatDeadline i) s fun t => (t.iface i).session = none ∧ (t.iface i).sessionLost = true ∧
      t.keyOf x.world = s.ctl.keys ∧
      (∀ l ∈ t.x.launches, l.iface = i → l.record.world = x.world → ∃ st, l.stage = .completed st) ∧
      ∀ d < 8, (s.die d).world = x.world → (t.die d).negative = none ∧ (t.die d).loupe.sram = []) ∧
  ∀ (s : State), s.ctl.window < s.time.toNat / 2100000000 → s.ctl.clearAtBoundary = [] →
    Runs .grainWindowBoundary s fun t => t.ctl.window = s.time.toNat / 2100000000 ∧ t.ctl.coarse = s.allCounters ∧
      t.x = s.x ∧ ∀ h ∈ t.ctl.heldRecords, h ∈ s.ctl.heldRecords ∧
        s.time.toNat / 2100000000 ≤ leNat h.bytes / 2 ^ 192 % 2 ^ 64

/-- 24 R349 to R354: negatives and recovery. When a launch that waits for its negatives has no operation pending and is owed no
result, each of its dies that has a host keeps the blocks and warps it holds, with empty reels, and the waiters resume behind
their barrier. (No operation pending and no result owed, beyond 24 R350: the model's choice, log entries 31 and 41; so are a
die's world kept over its reset, and its negative gone where no launch recovers, 41.) A fatal error of a die without a launch fences it when its reset fails and leaves it running when it succeeds; one
of a die whose one launch has its negative leaves it recovering, with the negative's blocks and warps. A recovery with no write
held ends with the die running, what its receivers had accepted to be discarded. -/
def Obligations.RecoveryEvents : Prop :=
  (∀ (s : State) (uid : Nat) (l : Launch), s.launch? uid = some l → l.negWait = true → s.opsDone (s.blocksOf uid) = true →
    s.contextsReady uid = true →
    (∀ r ∈ l.replays, r.behind = 0) → (∀ d ∈ s.launchDies uid, (s.die d).st = .running) →
    Runs (.negativeComplete uid) s fun t => t.mem = s.mem ∧ (∃ l', t.launch? uid = some l' ∧ l'.negWait = false ∧ l'.replays = []) ∧
      (∀ d ∈ s.launchDies uid, ∀ h, s.negativeHost d = some h → ∃ z, (t.die d).negative = some ⟨h, z⟩ ∧ z.launch = l.uid ∧
        z.blocks = (s.blocksOf l.uid).filter (fun b => decide (b.die = d)) ∧
        z.warps.map Warp.ref = (s.x.warps.filter fun w => inBlocks z.blocks w.ref).map Warp.ref ∧ z.gen = l.barp.gen ∧
        (t.die d).reels = [] ∧ (t.die d).accepted = []) ∧
      ∀ r slot c k, s.ctxAt? r slot = some c → r.launch = uid → c.p.park = .barrier .package k → k < l.barp.gen →
        ∃ p, t.path? r slot = some p ∧ p.pc = c.next 4 ∧ p.lanes = c.p.lanes) ∧
  (∀ (s : State) (d : Nat), s.ctl.power = .up → s.dieInUse d = true → s.launchesOn d = [] → ∀ ok, Runs (.fatalDieError d ok) s fun t =>
    LogEvent.dieFatal d ∈ t.ctl.log ∧ (t.die d).st = .running ∧ (t.die d).fenced = !ok ∧ (t.die d).negative = none ∧
    (t.die d).loupe = LoupeCluster.fresh ∧ (t.die d).world = (s.die d).world ∧
    ∀ e n, (t.die e).negative = some n → n.host ≠ d) ∧
  (∀ (s : State) (d : Nat) (l : Launch) (z : Snapshot), s.ctl.power = .up → s.dieInUse d = true → s.launchesOn d = [l] →
    s.recoverable l d = some z → z.clusters = [] → Runs (.fatalDieError d true) s fun t =>
      (t.die d).st = .recovering l.uid ∧ (∀ b ∈ z.blocks, b ∈ t.x.blocks) ∧ (∀ w ∈ z.warps, w ∈ t.x.warps)) ∧
  ∀ (s : State) (d uid : Nat), (s.die d).st = .recovering uid → (s.die d).held = [] →
    Runs (.dieRecoveryComplete d) s fun t => (t.die d).st = .running ∧ (t.die d).held = [] ∧
      (t.die d).discard = (s.die d).accepted ∧
      ((s.die d).reels = [] → t.mem = s.mem)

/-- 27 R385, 28 R386 to R389: power and firmware. Power comes on only from off: with firmware whose signatures verify and a map
whose header verifies the device is up, its dies numbered but for those that fail, and holds nothing; with either wrong it does
not answer. A reset keeps the verified firmware. Neither power nor a reset changes the fused bytes or the identity certificate.
Power removal loses everything of the device; that device DRAM has lost its bytes after a reset or power removal, and host memory
keeps its own, is the model's choice (log entry 42). An image is installed only when both its signatures verify; a measurement
reports firmware, the fused map and fuse configuration under its nonce, with both signatures. -/
def Obligations.PowerAndFirmwareEvents : Prop :=
  ∀ (s : State) (env : PowerEnv),
    let up (t : State) (fw : BitVec 384) : Prop := match DefectMap.ofBytes s.ctl.fuses with
      | some m => t.ctl.power = .up ∧ t.ctl.map = m ∧ t.ctl.firmware = fw ∧ t.ctl.key0 = env.key0 ∧ t.x.warps = [] ∧
          t.x.launches = [] ∧ t.x.blocks = [] ∧ t.ctl.ifaces = [] ∧ t.time = 0 ∧
          (∀ d < 8, t.ctl.numbered.getLsbD d = true ↔
            ((m.dies[d]?).map DieFuses.dstate = some 0 ∧ env.failedDies.getLsbD d = false))
      | none => t.ctl.power = .stuck ∧ t.x.launches = []
    let hostKept (t : State) : Prop := t.mem = s.mem.filter fun c => decide (hostBase ≤ c.1)
    let newKey (t : State) : Prop := t.keyOf 0 = s.ctl.keys
    let burnt (t : State) : Prop := t.ctl.fuses = s.ctl.fuses ∧ t.ctl.identity = s.ctl.identity
    (env.fuses = s.ctl.fuses → s.ctl.power = .off → firmwareOk env.firmware = true →
      Runs (.powerOn env) s fun t => up t env.firmware.digest ∧ hostKept t ∧ newKey t ∧ burnt t) ∧
    (env.fuses = s.ctl.fuses → s.ctl.power = .off → firmwareOk env.firmware = false →
      Runs (.powerOn env) s fun t => t.ctl.power = .stuck ∧ hostKept t ∧ burnt t) ∧
    (env.fuses = s.ctl.fuses → s.ctl.power = .up →
      Runs (.packageReset env) s fun t => up t s.ctl.firmware ∧ hostKept t ∧ newKey t ∧ burnt t) ∧
    (Runs .modulePowerRemoval s fun t => t.ctl.power = .off ∧ t.x = Exec.reset ∧ t.ctl.map.dies = [] ∧ hostKept t ∧ burnt t) ∧
    (s.ctl.power = .up → ∀ f, Runs (.firmwareUpdate f) s fun t => t.x = s.x ∧ t.mem = s.mem ∧
      t.ctl.firmware = if firmwareOk f then f.digest else s.ctl.firmware) ∧
    (s.ctl.power = .up → ∀ i nonce, (s.iface i).enabled = true → Runs (.measurements i nonce) s fun t => t.x = s.x ∧ t.mem = s.mem ∧
      ∃ r, t.ctl.reports = s.ctl.reports ++ [r] ∧ r.iface = i ∧ r.nonce = nonce ∧ r.firmware = s.ctl.firmware ∧ r.map = s.ctl.fuses ∧
        r.fuses = Config.fuseConfig ∧
        let digest := sha384 (leBytes 32 nonce.toNat ++ leBytes 48 s.ctl.firmware.toNat ++ s.ctl.fuses ++ Config.fuseConfig)
        r.ed25519 = Config.signEd25519 digest ∧ r.mlDsa = Config.signMlDsa digest)
end

