-- ==== Sys2Proof/Laws/Darkroom.lean ====
section
/-! SUPPORT. How a run of the darkroom core ends (27 R381). -/

namespace Sys2Proof.Machine

/-- The address to which a predicate returns lies outside SRAM. -/
theorem darkReturn_outside : darkBytes ≤ darkReturn.toNat := by
  have h : Config.romReturn % (2 ^ 31 - darkBytes / 2) < 2 ^ 31 - darkBytes / 2 :=
    Nat.mod_lt _ (by decide)
  simp only [darkReturn, BitVec.toNat_ofNat]
  generalize Config.romReturn % (2 ^ 31 - darkBytes / 2) = k at h ⊢
  simp only [darkBytes] at h ⊢
  omega

/-- A PC inside SRAM is not the return. -/
theorem ne_darkReturn {pc : Word} (h : pc.toNat < darkBytes) : pc ≠ darkReturn := fun e =>
  absurd darkReturn_outside (by rw [← e]; omega)

theorem darkRun_returned (n : Nat) (c : DarkCore) (m : Memory) (h : c.pc = darkReturn) : darkRun n c m = (c, m, .returned) := by
  cases n <;> simp [darkRun, h]

theorem darkRun_exception (n : Nat) (c : DarkCore) (m : Memory) (h : c.pc.toNat < darkBytes) (hs : c.step m = none) :
    darkRun (n + 1) c m = (c, m, .exception) := by
  simp [darkRun, ne_darkReturn h, hs]

/-- A store that is not completed. -/
theorem darkRun_broken (n : Nat) (c : DarkCore) (m : Memory) (h : c.pc.toNat < darkBytes) {c' : DarkCore} {x : DarkStored}
    (hs : c.step m = some (c', x)) (hok : x.ok = false) : darkRun (n + 1) c m = (c', x.m, .exception) := by
  simp [darkRun, ne_darkReturn h, hs, hok]

/-- An instruction that rings the doorbell. -/
theorem darkRun_rang (n : Nat) (c : DarkCore) (m : Memory) (h : c.pc.toNat < darkBytes) {c' : DarkCore} {x : DarkStored}
    (hs : c.step m = some (c', x)) (hok : x.ok = true) (hr : x.rings ≠ []) :
    darkRun (n + 1) c m = (c', x.m, .rang x.rings) := by
  simp [darkRun, ne_darkReturn h, hs, hok, hr]

/-- Any other instruction, after which the run goes on. -/
theorem darkRun_goes (n : Nat) (c : DarkCore) (m : Memory) (h : c.pc.toNat < darkBytes) {c' : DarkCore} {x : DarkStored}
    (hs : c.step m = some (c', x)) (hok : x.ok = true) (hr : x.rings = []) : darkRun (n + 1) c m = darkRun n c' x.m := by
  simp [darkRun, ne_darkReturn h, hs, hok, hr]

/-- A run that has stored nothing leaves no bytes. -/
@[simp] theorem LoupeCluster.leaves_nil (x : LoupeCluster) : x.leaves [] x.sram = true := by simp [leaves, overlaid]

/-- A predicate that can execute nothing leaves darkroom SRAM as it is when its budget stops it. -/
theorem State.darkStopped_stuck (s : State) (die : Nat) (h : (s.die die).loupe.dark.pc.toNat < darkBytes)
    (hs : (s.die die).loupe.dark.step (s.die die).loupe.sram = none) : (s.darkStopped die).2 = (s.die die).loupe.sram := by
  simp only [darkStopped, LoupeCluster.runDark]
  generalize min (_ : Nat) (_ : Nat) = n
  cases n with
  | zero => simp [darkRun, ne_darkReturn h]
  | succ n => simp [darkRun_exception n _ _ h hs]

end Sys2Proof.Machine
end

