-- ==== Sys2Proof/Laws/Memory.lean ====
section
/-! SUPPORT. Memories, register files and keyed tables: read after write, and the canonical form. -/

namespace Sys2Proof.Machine

/-! ### Words by index -/

theorem get0_put0_same {w : Nat} (t : List (Nat × BitVec w)) (k : Nat) (v : BitVec w) (h : wf0 t = true) :
    get0 (put0 t k v) k = v := by
  suffices H : ∀ lo, wfFrom lo t = true → get0 (put0 t k v) k = v from H 0 h
  clear h
  induction t with
  | nil => intro lo _; by_cases hv : v = 0#w <;> simp [put0, get0, hv]
  | cons x r ih =>
    intro lo h
    obtain ⟨a, x⟩ := x
    simp only [wfFrom, Bool.and_eq_true, decide_eq_true_eq] at h
    have low : ∀ (r : List (Nat × BitVec w)) (lo : Nat), wfFrom lo r = true → k < lo → get0 r k = 0 := by
      intro r
      induction r with
      | nil => intros; rfl
      | cons y r ih =>
        intro lo h hk
        obtain ⟨b, y⟩ := y
        simp only [wfFrom, Bool.and_eq_true, decide_eq_true_eq] at h
        have : b ≠ k := by omega
        simp only [get0, this, if_false]
        exact ih _ h.2 (by omega)
    unfold put0
    by_cases h1 : k < a
    · by_cases hv : v = 0#w
      · have : a ≠ k := by omega
        simp [h1, hv, get0, this, low r (a + 1) h.2 (by omega)]
      · simp [h1, hv, get0]
    · by_cases h2 : a = k
      · by_cases hv : v = 0#w
        · subst h2; simp [hv, low r (a + 1) h.2 (by omega)]
        · simp [h2, hv, get0]
      · simp [h1, h2, get0, ih _ h.2]

theorem get0_put0_ne {w : Nat} (t : List (Nat × BitVec w)) (k j : Nat) (v : BitVec w) (hj : j ≠ k) :
    get0 (put0 t k v) j = get0 t j := by
  induction t with
  | nil => by_cases hv : v = 0#w <;> simp [put0, get0, hv, Ne.symm hj]
  | cons x r ih =>
    obtain ⟨a, x⟩ := x
    unfold put0
    by_cases h1 : k < a
    · by_cases hv : v = 0#w <;> simp [h1, hv, get0, Ne.symm hj]
    · by_cases h2 : a = k
      · subst h2; by_cases hv : v = 0#w <;> simp [hv, get0, Ne.symm hj]
      · simp only [h1, h2, if_false, get0, ih]

theorem wfFrom_mono {w : Nat} {t : List (Nat × BitVec w)} {lo k : Nat} (h : wfFrom lo t = true) (hk : k ≤ lo) :
    wfFrom k t = true := by
  cases t with
  | nil => rfl
  | cons x r =>
    obtain ⟨a, x⟩ := x
    simp only [wfFrom, Bool.and_eq_true, decide_eq_true_eq] at h ⊢
    exact ⟨⟨by omega, h.1.2⟩, h.2⟩

theorem wfFrom_put0 {w : Nat} (t : List (Nat × BitVec w)) (k : Nat) (v : BitVec w) (lo : Nat)
    (h : wfFrom lo t = true) (hk : lo ≤ k) : wfFrom lo (put0 t k v) = true := by
  induction t generalizing lo with
  | nil => by_cases hv : v = 0#w <;> simp [put0, wfFrom, hv, hk]
  | cons x r ih =>
    obtain ⟨a, x⟩ := x
    have h' := h
    simp only [wfFrom, Bool.and_eq_true, decide_eq_true_eq] at h
    unfold put0
    split_ifs with h1 hv h2 hv
    · exact h'
    · simp only [wfFrom, Bool.and_eq_true, decide_eq_true_eq]
      exact ⟨⟨hk, hv⟩, ⟨by omega, h.1.2⟩, h.2⟩
    · exact wfFrom_mono h.2 (by omega)
    · subst h2
      simp only [wfFrom, Bool.and_eq_true, decide_eq_true_eq]
      exact ⟨⟨hk, hv⟩, h.2⟩
    · simp only [wfFrom, Bool.and_eq_true, decide_eq_true_eq]
      exact ⟨h.1, ih _ h.2 (by omega)⟩

/-- A write keeps the canonical form. -/
theorem wf0_put0 {w : Nat} {t : List (Nat × BitVec w)} (h : wf0 t = true) (k : Nat) (v : BitVec w) :
    wf0 (put0 t k v) = true := wfFrom_put0 t k v 0 h (Nat.zero_le k)

theorem wfFrom_filter {w : Nat} (p : Nat × BitVec w → Bool) {t : List (Nat × BitVec w)} {lo : Nat}
    (h : wfFrom lo t = true) : wfFrom lo (t.filter p) = true := by
  induction t generalizing lo with
  | nil => rfl
  | cons x r ih =>
    obtain ⟨a, x⟩ := x
    simp only [wfFrom, Bool.and_eq_true, decide_eq_true_eq] at h
    by_cases hp : p (a, x) = true
    · simp only [List.filter_cons, hp, if_true, wfFrom, Bool.and_eq_true, decide_eq_true_eq]
      exact ⟨h.1, ih h.2⟩
    · simp only [List.filter_cons, hp]
      exact wfFrom_mono (ih h.2) (by omega)

/-- Dropping entries keeps the canonical form. -/
theorem wf0_filter {w : Nat} (p : Nat × BitVec w → Bool) {t : List (Nat × BitVec w)} (h : wf0 t = true) :
    wf0 (t.filter p) = true := wfFrom_filter p h

/-! ### Bytes -/

/-- Writing bytes keeps the canonical form. -/
theorem wf0_writeBytes {m : Memory} (h : wf0 m = true) (a : Nat) (bs : List Byte) : wf0 (writeBytes m a bs) = true := by
  induction bs generalizing m a with
  | nil => exact h
  | cons b r ih => exact ih (wf0_put0 h a b) (a + 1)

/-- Writing bytes leaves every other byte alone. -/
theorem get0_writeBytes_out (m : Memory) (a k : Nat) (bs : List Byte) (h : k < a ∨ a + bs.length ≤ k) :
    get0 (writeBytes m a bs) k = get0 m k := by
  induction bs generalizing m a with
  | nil => rfl
  | cons b r ih =>
    simp only [List.length_cons] at h
    unfold writeBytes
    rw [ih _ _ (by omega), get0_put0_ne _ _ _ _ (by omega)]

/-- A byte that has been written reads as what was written. -/
theorem get0_writeBytes_in {m : Memory} (hm : wf0 m = true) (a i : Nat) (bs : List Byte) (h : i < bs.length) :
    get0 (writeBytes m a bs) (a + i) = bs.getD i 0 := by
  induction bs generalizing m a i with
  | nil => simp at h
  | cons b r ih =>
    unfold writeBytes
    cases i with
    | zero => rw [get0_writeBytes_out _ _ _ _ (by omega)]; simpa using get0_put0_same m a b hm
    | succ i =>
      have := ih (wf0_put0 hm a b) (a + 1) i (by simpa using h)
      rw [show a + (i + 1) = a + 1 + i by omega, this]; simp

@[simp] theorem readBytes_length (m : Memory) (a n : Nat) : (readBytes m a n).length = n := by
  induction n generalizing a with
  | zero => rfl
  | succ n ih => simp [readBytes, ih]

@[simp] theorem leBytes_length (n x : Nat) : (leBytes n x).length = n := by
  induction n generalizing x with
  | zero => rfl
  | succ n ih => simp [leBytes, ih]

/-- Byte i of a number's little-endian bytes. -/
theorem leBytes_getD (n x i : Nat) (h : i < n) : (leBytes n x).getD i 0 = BitVec.ofNat 8 (x / 256 ^ i) := by
  induction n generalizing x i with
  | zero => omega
  | succ n ih =>
    cases i with
    | zero => simp [leBytes]
    | succ i =>
      have := ih (x / 256) i (by omega)
      simpa [leBytes, Nat.div_div_eq_div_mul, Nat.pow_succ, Nat.mul_comm] using this

/-! ### Records by key -/

theorem tget_tput_same {α : Type} (t : Table α) (k : Nat) (v : α) : tget (tput t k v) k = some v := by
  induction t with
  | nil => simp [tput, tget]
  | cons x r ih =>
    obtain ⟨a, x⟩ := x
    unfold tput
    by_cases h1 : k < a
    · simp [h1, tget]
    · by_cases h2 : a = k
      · simp [h2, tget]
      · simp [h1, h2, tget, ih]

theorem tget_tput_ne {α : Type} (t : Table α) (k j : Nat) (v : α) (hj : j ≠ k) : tget (tput t k v) j = tget t j := by
  induction t with
  | nil => simp [tput, tget, Ne.symm hj]
  | cons x r ih =>
    obtain ⟨a, x⟩ := x
    unfold tput
    by_cases h1 : k < a
    · simp [h1, tget, Ne.symm hj]
    · by_cases h2 : a = k
      · subst h2; simp [tget, Ne.symm hj]
      · simp [h1, h2, tget, ih]

end Sys2Proof.Machine
end

