-- ==== Sys2Proof/Laws/State.lean ====
section
/-! SUPPORT. What each update of the state leaves alone: one lemma per update and field, true by unfolding. -/

namespace Sys2Proof.Machine.State

@[simp] theorem setWarp_time (s : State) (w : Warp) : (s.setWarp w).time = s.time := rfl
@[simp] theorem setWarp_mem (s : State) (w : Warp) : (s.setWarp w).mem = s.mem := rfl
@[simp] theorem setWarp_memKeys (s : State) (w : Warp) : (s.setWarp w).memKeys = s.memKeys := rfl
@[simp] theorem setWarp_ctl (s : State) (w : Warp) : (s.setWarp w).ctl = s.ctl := rfl
@[simp] theorem setWarp_issuer (s : State) (w : Warp) : (s.setWarp w).issuer = s.issuer := rfl
@[simp] theorem setWarp_agenda (s : State) (w : Warp) : (s.setWarp w).agenda = s.agenda := rfl
@[simp] theorem setWarp_free (s : State) (w : Warp) : (s.setWarp w).free = s.free := rfl
@[simp] theorem setWarp_nextOp (s : State) (w : Warp) : (s.setWarp w).nextOp = s.nextOp := rfl
@[simp] theorem setWarp_nextUid (s : State) (w : Warp) : (s.setWarp w).nextUid = s.nextUid := rfl
@[simp] theorem setWarp_x_launches (s : State) (w : Warp) : (s.setWarp w).x.launches = s.x.launches := rfl
@[simp] theorem setWarp_x_code (s : State) (w : Warp) : (s.setWarp w).x.code = s.x.code := rfl
@[simp] theorem setWarp_x_blocks (s : State) (w : Warp) : (s.setWarp w).x.blocks = s.x.blocks := rfl
@[simp] theorem setWarp_x_clusters (s : State) (w : Warp) : (s.setWarp w).x.clusters = s.x.clusters := rfl
@[simp] theorem setWarp_x_spans (s : State) (w : Warp) : (s.setWarp w).x.spans = s.x.spans := rfl
@[simp] theorem setWarp_x_ops (s : State) (w : Warp) : (s.setWarp w).x.ops = s.x.ops := rfl
@[simp] theorem setWarp_x_splices (s : State) (w : Warp) : (s.setWarp w).x.splices = s.x.splices := rfl
@[simp] theorem setWarp_x_engines (s : State) (w : Warp) : (s.setWarp w).x.engines = s.x.engines := rfl
@[simp] theorem setWarp_x_dies (s : State) (w : Warp) : (s.setWarp w).x.dies = s.x.dies := rfl
@[simp] theorem setWarp_x_cores (s : State) (w : Warp) : (s.setWarp w).x.cores = s.x.cores := rfl

@[simp] theorem updWarp_time (s : State) (r : WarpRef) (f : Warp → Warp) : (s.updWarp r f).time = s.time := rfl
@[simp] theorem updWarp_mem (s : State) (r : WarpRef) (f : Warp → Warp) : (s.updWarp r f).mem = s.mem := rfl
@[simp] theorem updWarp_memKeys (s : State) (r : WarpRef) (f : Warp → Warp) : (s.updWarp r f).memKeys = s.memKeys := rfl
@[simp] theorem updWarp_ctl (s : State) (r : WarpRef) (f : Warp → Warp) : (s.updWarp r f).ctl = s.ctl := rfl
@[simp] theorem updWarp_issuer (s : State) (r : WarpRef) (f : Warp → Warp) : (s.updWarp r f).issuer = s.issuer := rfl
@[simp] theorem updWarp_agenda (s : State) (r : WarpRef) (f : Warp → Warp) : (s.updWarp r f).agenda = s.agenda := rfl
@[simp] theorem updWarp_free (s : State) (r : WarpRef) (f : Warp → Warp) : (s.updWarp r f).free = s.free := rfl
@[simp] theorem updWarp_nextOp (s : State) (r : WarpRef) (f : Warp → Warp) : (s.updWarp r f).nextOp = s.nextOp := rfl
@[simp] theorem updWarp_nextUid (s : State) (r : WarpRef) (f : Warp → Warp) : (s.updWarp r f).nextUid = s.nextUid := rfl
@[simp] theorem updWarp_x_launches (s : State) (r : WarpRef) (f : Warp → Warp) : (s.updWarp r f).x.launches = s.x.launches := rfl
@[simp] theorem updWarp_x_code (s : State) (r : WarpRef) (f : Warp → Warp) : (s.updWarp r f).x.code = s.x.code := rfl
@[simp] theorem updWarp_x_blocks (s : State) (r : WarpRef) (f : Warp → Warp) : (s.updWarp r f).x.blocks = s.x.blocks := rfl
@[simp] theorem updWarp_x_clusters (s : State) (r : WarpRef) (f : Warp → Warp) : (s.updWarp r f).x.clusters = s.x.clusters := rfl
@[simp] theorem updWarp_x_spans (s : State) (r : WarpRef) (f : Warp → Warp) : (s.updWarp r f).x.spans = s.x.spans := rfl
@[simp] theorem updWarp_x_ops (s : State) (r : WarpRef) (f : Warp → Warp) : (s.updWarp r f).x.ops = s.x.ops := rfl
@[simp] theorem updWarp_x_splices (s : State) (r : WarpRef) (f : Warp → Warp) : (s.updWarp r f).x.splices = s.x.splices := rfl
@[simp] theorem updWarp_x_engines (s : State) (r : WarpRef) (f : Warp → Warp) : (s.updWarp r f).x.engines = s.x.engines := rfl
@[simp] theorem updWarp_x_dies (s : State) (r : WarpRef) (f : Warp → Warp) : (s.updWarp r f).x.dies = s.x.dies := rfl
@[simp] theorem updWarp_x_cores (s : State) (r : WarpRef) (f : Warp → Warp) : (s.updWarp r f).x.cores = s.x.cores := rfl

@[simp] theorem updPath_time (s : State) (r : WarpRef) (slot : Bool) (f : Path → Path) : (s.updPath r slot f).time = s.time := rfl
@[simp] theorem updPath_mem (s : State) (r : WarpRef) (slot : Bool) (f : Path → Path) : (s.updPath r slot f).mem = s.mem := rfl
@[simp] theorem updPath_memKeys (s : State) (r : WarpRef) (slot : Bool) (f : Path → Path) : (s.updPath r slot f).memKeys = s.memKeys := rfl
@[simp] theorem updPath_ctl (s : State) (r : WarpRef) (slot : Bool) (f : Path → Path) : (s.updPath r slot f).ctl = s.ctl := rfl
@[simp] theorem updPath_issuer (s : State) (r : WarpRef) (slot : Bool) (f : Path → Path) : (s.updPath r slot f).issuer = s.issuer := rfl
@[simp] theorem updPath_agenda (s : State) (r : WarpRef) (slot : Bool) (f : Path → Path) : (s.updPath r slot f).agenda = s.agenda := rfl
@[simp] theorem updPath_free (s : State) (r : WarpRef) (slot : Bool) (f : Path → Path) : (s.updPath r slot f).free = s.free := rfl
@[simp] theorem updPath_nextOp (s : State) (r : WarpRef) (slot : Bool) (f : Path → Path) : (s.updPath r slot f).nextOp = s.nextOp := rfl
@[simp] theorem updPath_nextUid (s : State) (r : WarpRef) (slot : Bool) (f : Path → Path) : (s.updPath r slot f).nextUid = s.nextUid := rfl
@[simp] theorem updPath_x_launches (s : State) (r : WarpRef) (slot : Bool) (f : Path → Path) : (s.updPath r slot f).x.launches = s.x.launches := rfl
@[simp] theorem updPath_x_code (s : State) (r : WarpRef) (slot : Bool) (f : Path → Path) : (s.updPath r slot f).x.code = s.x.code := rfl
@[simp] theorem updPath_x_blocks (s : State) (r : WarpRef) (slot : Bool) (f : Path → Path) : (s.updPath r slot f).x.blocks = s.x.blocks := rfl
@[simp] theorem updPath_x_clusters (s : State) (r : WarpRef) (slot : Bool) (f : Path → Path) : (s.updPath r slot f).x.clusters = s.x.clusters := rfl
@[simp] theorem updPath_x_spans (s : State) (r : WarpRef) (slot : Bool) (f : Path → Path) : (s.updPath r slot f).x.spans = s.x.spans := rfl
@[simp] theorem updPath_x_ops (s : State) (r : WarpRef) (slot : Bool) (f : Path → Path) : (s.updPath r slot f).x.ops = s.x.ops := rfl
@[simp] theorem updPath_x_splices (s : State) (r : WarpRef) (slot : Bool) (f : Path → Path) : (s.updPath r slot f).x.splices = s.x.splices := rfl
@[simp] theorem updPath_x_engines (s : State) (r : WarpRef) (slot : Bool) (f : Path → Path) : (s.updPath r slot f).x.engines = s.x.engines := rfl
@[simp] theorem updPath_x_dies (s : State) (r : WarpRef) (slot : Bool) (f : Path → Path) : (s.updPath r slot f).x.dies = s.x.dies := rfl
@[simp] theorem updPath_x_cores (s : State) (r : WarpRef) (slot : Bool) (f : Path → Path) : (s.updPath r slot f).x.cores = s.x.cores := rfl

@[simp] theorem updBlock_time (s : State) (l b : Nat) (f : Block → Block) : (s.updBlock l b f).time = s.time := rfl
@[simp] theorem updBlock_mem (s : State) (l b : Nat) (f : Block → Block) : (s.updBlock l b f).mem = s.mem := rfl
@[simp] theorem updBlock_memKeys (s : State) (l b : Nat) (f : Block → Block) : (s.updBlock l b f).memKeys = s.memKeys := rfl
@[simp] theorem updBlock_ctl (s : State) (l b : Nat) (f : Block → Block) : (s.updBlock l b f).ctl = s.ctl := rfl
@[simp] theorem updBlock_issuer (s : State) (l b : Nat) (f : Block → Block) : (s.updBlock l b f).issuer = s.issuer := rfl
@[simp] theorem updBlock_agenda (s : State) (l b : Nat) (f : Block → Block) : (s.updBlock l b f).agenda = s.agenda := rfl
@[simp] theorem updBlock_free (s : State) (l b : Nat) (f : Block → Block) : (s.updBlock l b f).free = s.free := rfl
@[simp] theorem updBlock_nextOp (s : State) (l b : Nat) (f : Block → Block) : (s.updBlock l b f).nextOp = s.nextOp := rfl
@[simp] theorem updBlock_nextUid (s : State) (l b : Nat) (f : Block → Block) : (s.updBlock l b f).nextUid = s.nextUid := rfl
@[simp] theorem updBlock_x_launches (s : State) (l b : Nat) (f : Block → Block) : (s.updBlock l b f).x.launches = s.x.launches := rfl
@[simp] theorem updBlock_x_code (s : State) (l b : Nat) (f : Block → Block) : (s.updBlock l b f).x.code = s.x.code := rfl
@[simp] theorem updBlock_x_warps (s : State) (l b : Nat) (f : Block → Block) : (s.updBlock l b f).x.warps = s.x.warps := rfl
@[simp] theorem updBlock_x_clusters (s : State) (l b : Nat) (f : Block → Block) : (s.updBlock l b f).x.clusters = s.x.clusters := rfl
@[simp] theorem updBlock_x_spans (s : State) (l b : Nat) (f : Block → Block) : (s.updBlock l b f).x.spans = s.x.spans := rfl
@[simp] theorem updBlock_x_ops (s : State) (l b : Nat) (f : Block → Block) : (s.updBlock l b f).x.ops = s.x.ops := rfl
@[simp] theorem updBlock_x_splices (s : State) (l b : Nat) (f : Block → Block) : (s.updBlock l b f).x.splices = s.x.splices := rfl
@[simp] theorem updBlock_x_engines (s : State) (l b : Nat) (f : Block → Block) : (s.updBlock l b f).x.engines = s.x.engines := rfl
@[simp] theorem updBlock_x_dies (s : State) (l b : Nat) (f : Block → Block) : (s.updBlock l b f).x.dies = s.x.dies := rfl
@[simp] theorem updBlock_x_cores (s : State) (l b : Nat) (f : Block → Block) : (s.updBlock l b f).x.cores = s.x.cores := rfl

@[simp] theorem updLaunch_time (s : State) (l : Nat) (f : Launch → Launch) : (s.updLaunch l f).time = s.time := rfl
@[simp] theorem updLaunch_mem (s : State) (l : Nat) (f : Launch → Launch) : (s.updLaunch l f).mem = s.mem := rfl
@[simp] theorem updLaunch_memKeys (s : State) (l : Nat) (f : Launch → Launch) : (s.updLaunch l f).memKeys = s.memKeys := rfl
@[simp] theorem updLaunch_ctl (s : State) (l : Nat) (f : Launch → Launch) : (s.updLaunch l f).ctl = s.ctl := rfl
@[simp] theorem updLaunch_issuer (s : State) (l : Nat) (f : Launch → Launch) : (s.updLaunch l f).issuer = s.issuer := rfl
@[simp] theorem updLaunch_agenda (s : State) (l : Nat) (f : Launch → Launch) : (s.updLaunch l f).agenda = s.agenda := rfl
@[simp] theorem updLaunch_free (s : State) (l : Nat) (f : Launch → Launch) : (s.updLaunch l f).free = s.free := rfl
@[simp] theorem updLaunch_nextOp (s : State) (l : Nat) (f : Launch → Launch) : (s.updLaunch l f).nextOp = s.nextOp := rfl
@[simp] theorem updLaunch_nextUid (s : State) (l : Nat) (f : Launch → Launch) : (s.updLaunch l f).nextUid = s.nextUid := rfl
@[simp] theorem updLaunch_x_code (s : State) (l : Nat) (f : Launch → Launch) : (s.updLaunch l f).x.code = s.x.code := rfl
@[simp] theorem updLaunch_x_blocks (s : State) (l : Nat) (f : Launch → Launch) : (s.updLaunch l f).x.blocks = s.x.blocks := rfl
@[simp] theorem updLaunch_x_warps (s : State) (l : Nat) (f : Launch → Launch) : (s.updLaunch l f).x.warps = s.x.warps := rfl
@[simp] theorem updLaunch_x_clusters (s : State) (l : Nat) (f : Launch → Launch) : (s.updLaunch l f).x.clusters = s.x.clusters := rfl
@[simp] theorem updLaunch_x_spans (s : State) (l : Nat) (f : Launch → Launch) : (s.updLaunch l f).x.spans = s.x.spans := rfl
@[simp] theorem updLaunch_x_ops (s : State) (l : Nat) (f : Launch → Launch) : (s.updLaunch l f).x.ops = s.x.ops := rfl
@[simp] theorem updLaunch_x_splices (s : State) (l : Nat) (f : Launch → Launch) : (s.updLaunch l f).x.splices = s.x.splices := rfl
@[simp] theorem updLaunch_x_engines (s : State) (l : Nat) (f : Launch → Launch) : (s.updLaunch l f).x.engines = s.x.engines := rfl
@[simp] theorem updLaunch_x_dies (s : State) (l : Nat) (f : Launch → Launch) : (s.updLaunch l f).x.dies = s.x.dies := rfl
@[simp] theorem updLaunch_x_cores (s : State) (l : Nat) (f : Launch → Launch) : (s.updLaunch l f).x.cores = s.x.cores := rfl

@[simp] theorem updCluster_time (s : State) (l n : Nat) (f : LaunchCluster → LaunchCluster) : (s.updCluster l n f).time = s.time := rfl
@[simp] theorem updCluster_mem (s : State) (l n : Nat) (f : LaunchCluster → LaunchCluster) : (s.updCluster l n f).mem = s.mem := rfl
@[simp] theorem updCluster_memKeys (s : State) (l n : Nat) (f : LaunchCluster → LaunchCluster) : (s.updCluster l n f).memKeys = s.memKeys := rfl
@[simp] theorem updCluster_ctl (s : State) (l n : Nat) (f : LaunchCluster → LaunchCluster) : (s.updCluster l n f).ctl = s.ctl := rfl
@[simp] theorem updCluster_issuer (s : State) (l n : Nat) (f : LaunchCluster → LaunchCluster) : (s.updCluster l n f).issuer = s.issuer := rfl
@[simp] theorem updCluster_agenda (s : State) (l n : Nat) (f : LaunchCluster → LaunchCluster) : (s.updCluster l n f).agenda = s.agenda := rfl
@[simp] theorem updCluster_free (s : State) (l n : Nat) (f : LaunchCluster → LaunchCluster) : (s.updCluster l n f).free = s.free := rfl
@[simp] theorem updCluster_nextOp (s : State) (l n : Nat) (f : LaunchCluster → LaunchCluster) : (s.updCluster l n f).nextOp = s.nextOp := rfl
@[simp] theorem updCluster_nextUid (s : State) (l n : Nat) (f : LaunchCluster → LaunchCluster) : (s.updCluster l n f).nextUid = s.nextUid := rfl
@[simp] theorem updCluster_x_launches (s : State) (l n : Nat) (f : LaunchCluster → LaunchCluster) : (s.updCluster l n f).x.launches = s.x.launches := rfl
@[simp] theorem updCluster_x_code (s : State) (l n : Nat) (f : LaunchCluster → LaunchCluster) : (s.updCluster l n f).x.code = s.x.code := rfl
@[simp] theorem updCluster_x_blocks (s : State) (l n : Nat) (f : LaunchCluster → LaunchCluster) : (s.updCluster l n f).x.blocks = s.x.blocks := rfl
@[simp] theorem updCluster_x_warps (s : State) (l n : Nat) (f : LaunchCluster → LaunchCluster) : (s.updCluster l n f).x.warps = s.x.warps := rfl
@[simp] theorem updCluster_x_spans (s : State) (l n : Nat) (f : LaunchCluster → LaunchCluster) : (s.updCluster l n f).x.spans = s.x.spans := rfl
@[simp] theorem updCluster_x_ops (s : State) (l n : Nat) (f : LaunchCluster → LaunchCluster) : (s.updCluster l n f).x.ops = s.x.ops := rfl
@[simp] theorem updCluster_x_splices (s : State) (l n : Nat) (f : LaunchCluster → LaunchCluster) : (s.updCluster l n f).x.splices = s.x.splices := rfl
@[simp] theorem updCluster_x_engines (s : State) (l n : Nat) (f : LaunchCluster → LaunchCluster) : (s.updCluster l n f).x.engines = s.x.engines := rfl
@[simp] theorem updCluster_x_dies (s : State) (l n : Nat) (f : LaunchCluster → LaunchCluster) : (s.updCluster l n f).x.dies = s.x.dies := rfl
@[simp] theorem updCluster_x_cores (s : State) (l n : Nat) (f : LaunchCluster → LaunchCluster) : (s.updCluster l n f).x.cores = s.x.cores := rfl

@[simp] theorem updSpan_time (s : State) (l n : Nat) (f : Span → Span) : (s.updSpan l n f).time = s.time := rfl
@[simp] theorem updSpan_mem (s : State) (l n : Nat) (f : Span → Span) : (s.updSpan l n f).mem = s.mem := rfl
@[simp] theorem updSpan_memKeys (s : State) (l n : Nat) (f : Span → Span) : (s.updSpan l n f).memKeys = s.memKeys := rfl
@[simp] theorem updSpan_ctl (s : State) (l n : Nat) (f : Span → Span) : (s.updSpan l n f).ctl = s.ctl := rfl
@[simp] theorem updSpan_issuer (s : State) (l n : Nat) (f : Span → Span) : (s.updSpan l n f).issuer = s.issuer := rfl
@[simp] theorem updSpan_agenda (s : State) (l n : Nat) (f : Span → Span) : (s.updSpan l n f).agenda = s.agenda := rfl
@[simp] theorem updSpan_free (s : State) (l n : Nat) (f : Span → Span) : (s.updSpan l n f).free = s.free := rfl
@[simp] theorem updSpan_nextOp (s : State) (l n : Nat) (f : Span → Span) : (s.updSpan l n f).nextOp = s.nextOp := rfl
@[simp] theorem updSpan_nextUid (s : State) (l n : Nat) (f : Span → Span) : (s.updSpan l n f).nextUid = s.nextUid := rfl
@[simp] theorem updSpan_x_launches (s : State) (l n : Nat) (f : Span → Span) : (s.updSpan l n f).x.launches = s.x.launches := rfl
@[simp] theorem updSpan_x_code (s : State) (l n : Nat) (f : Span → Span) : (s.updSpan l n f).x.code = s.x.code := rfl
@[simp] theorem updSpan_x_blocks (s : State) (l n : Nat) (f : Span → Span) : (s.updSpan l n f).x.blocks = s.x.blocks := rfl
@[simp] theorem updSpan_x_warps (s : State) (l n : Nat) (f : Span → Span) : (s.updSpan l n f).x.warps = s.x.warps := rfl
@[simp] theorem updSpan_x_clusters (s : State) (l n : Nat) (f : Span → Span) : (s.updSpan l n f).x.clusters = s.x.clusters := rfl
@[simp] theorem updSpan_x_ops (s : State) (l n : Nat) (f : Span → Span) : (s.updSpan l n f).x.ops = s.x.ops := rfl
@[simp] theorem updSpan_x_splices (s : State) (l n : Nat) (f : Span → Span) : (s.updSpan l n f).x.splices = s.x.splices := rfl
@[simp] theorem updSpan_x_engines (s : State) (l n : Nat) (f : Span → Span) : (s.updSpan l n f).x.engines = s.x.engines := rfl
@[simp] theorem updSpan_x_dies (s : State) (l n : Nat) (f : Span → Span) : (s.updSpan l n f).x.dies = s.x.dies := rfl
@[simp] theorem updSpan_x_cores (s : State) (l n : Nat) (f : Span → Span) : (s.updSpan l n f).x.cores = s.x.cores := rfl

@[simp] theorem updOp_time (s : State) (i : Nat) (f : EngineOp → EngineOp) : (s.updOp i f).time = s.time := rfl
@[simp] theorem updOp_mem (s : State) (i : Nat) (f : EngineOp → EngineOp) : (s.updOp i f).mem = s.mem := rfl
@[simp] theorem updOp_memKeys (s : State) (i : Nat) (f : EngineOp → EngineOp) : (s.updOp i f).memKeys = s.memKeys := rfl
@[simp] theorem updOp_ctl (s : State) (i : Nat) (f : EngineOp → EngineOp) : (s.updOp i f).ctl = s.ctl := rfl
@[simp] theorem updOp_issuer (s : State) (i : Nat) (f : EngineOp → EngineOp) : (s.updOp i f).issuer = s.issuer := rfl
@[simp] theorem updOp_agenda (s : State) (i : Nat) (f : EngineOp → EngineOp) : (s.updOp i f).agenda = s.agenda := rfl
@[simp] theorem updOp_free (s : State) (i : Nat) (f : EngineOp → EngineOp) : (s.updOp i f).free = s.free := rfl
@[simp] theorem updOp_nextOp (s : State) (i : Nat) (f : EngineOp → EngineOp) : (s.updOp i f).nextOp = s.nextOp := rfl
@[simp] theorem updOp_nextUid (s : State) (i : Nat) (f : EngineOp → EngineOp) : (s.updOp i f).nextUid = s.nextUid := rfl
@[simp] theorem updOp_x_launches (s : State) (i : Nat) (f : EngineOp → EngineOp) : (s.updOp i f).x.launches = s.x.launches := rfl
@[simp] theorem updOp_x_code (s : State) (i : Nat) (f : EngineOp → EngineOp) : (s.updOp i f).x.code = s.x.code := rfl
@[simp] theorem updOp_x_blocks (s : State) (i : Nat) (f : EngineOp → EngineOp) : (s.updOp i f).x.blocks = s.x.blocks := rfl
@[simp] theorem updOp_x_warps (s : State) (i : Nat) (f : EngineOp → EngineOp) : (s.updOp i f).x.warps = s.x.warps := rfl
@[simp] theorem updOp_x_clusters (s : State) (i : Nat) (f : EngineOp → EngineOp) : (s.updOp i f).x.clusters = s.x.clusters := rfl
@[simp] theorem updOp_x_spans (s : State) (i : Nat) (f : EngineOp → EngineOp) : (s.updOp i f).x.spans = s.x.spans := rfl
@[simp] theorem updOp_x_splices (s : State) (i : Nat) (f : EngineOp → EngineOp) : (s.updOp i f).x.splices = s.x.splices := rfl
@[simp] theorem updOp_x_engines (s : State) (i : Nat) (f : EngineOp → EngineOp) : (s.updOp i f).x.engines = s.x.engines := rfl
@[simp] theorem updOp_x_dies (s : State) (i : Nat) (f : EngineOp → EngineOp) : (s.updOp i f).x.dies = s.x.dies := rfl
@[simp] theorem updOp_x_cores (s : State) (i : Nat) (f : EngineOp → EngineOp) : (s.updOp i f).x.cores = s.x.cores := rfl

@[simp] theorem updDie_time (s : State) (d : Nat) (f : Die → Die) : (s.updDie d f).time = s.time := rfl
@[simp] theorem updDie_mem (s : State) (d : Nat) (f : Die → Die) : (s.updDie d f).mem = s.mem := rfl
@[simp] theorem updDie_memKeys (s : State) (d : Nat) (f : Die → Die) : (s.updDie d f).memKeys = s.memKeys := rfl
@[simp] theorem updDie_ctl (s : State) (d : Nat) (f : Die → Die) : (s.updDie d f).ctl = s.ctl := rfl
@[simp] theorem updDie_issuer (s : State) (d : Nat) (f : Die → Die) : (s.updDie d f).issuer = s.issuer := rfl
@[simp] theorem updDie_agenda (s : State) (d : Nat) (f : Die → Die) : (s.updDie d f).agenda = s.agenda := rfl
@[simp] theorem updDie_free (s : State) (d : Nat) (f : Die → Die) : (s.updDie d f).free = s.free := rfl
@[simp] theorem updDie_nextOp (s : State) (d : Nat) (f : Die → Die) : (s.updDie d f).nextOp = s.nextOp := rfl
@[simp] theorem updDie_nextUid (s : State) (d : Nat) (f : Die → Die) : (s.updDie d f).nextUid = s.nextUid := rfl
@[simp] theorem updDie_x_launches (s : State) (d : Nat) (f : Die → Die) : (s.updDie d f).x.launches = s.x.launches := rfl
@[simp] theorem updDie_x_code (s : State) (d : Nat) (f : Die → Die) : (s.updDie d f).x.code = s.x.code := rfl
@[simp] theorem updDie_x_blocks (s : State) (d : Nat) (f : Die → Die) : (s.updDie d f).x.blocks = s.x.blocks := rfl
@[simp] theorem updDie_x_warps (s : State) (d : Nat) (f : Die → Die) : (s.updDie d f).x.warps = s.x.warps := rfl
@[simp] theorem updDie_x_clusters (s : State) (d : Nat) (f : Die → Die) : (s.updDie d f).x.clusters = s.x.clusters := rfl
@[simp] theorem updDie_x_spans (s : State) (d : Nat) (f : Die → Die) : (s.updDie d f).x.spans = s.x.spans := rfl
@[simp] theorem updDie_x_ops (s : State) (d : Nat) (f : Die → Die) : (s.updDie d f).x.ops = s.x.ops := rfl
@[simp] theorem updDie_x_splices (s : State) (d : Nat) (f : Die → Die) : (s.updDie d f).x.splices = s.x.splices := rfl
@[simp] theorem updDie_x_engines (s : State) (d : Nat) (f : Die → Die) : (s.updDie d f).x.engines = s.x.engines := rfl
@[simp] theorem updDie_x_cores (s : State) (d : Nat) (f : Die → Die) : (s.updDie d f).x.cores = s.x.cores := rfl

@[simp] theorem updLoupe_time (s : State) (d : Nat) (f : LoupeCluster → LoupeCluster) : (s.updLoupe d f).time = s.time := rfl
@[simp] theorem updLoupe_mem (s : State) (d : Nat) (f : LoupeCluster → LoupeCluster) : (s.updLoupe d f).mem = s.mem := rfl
@[simp] theorem updLoupe_memKeys (s : State) (d : Nat) (f : LoupeCluster → LoupeCluster) : (s.updLoupe d f).memKeys = s.memKeys := rfl
@[simp] theorem updLoupe_ctl (s : State) (d : Nat) (f : LoupeCluster → LoupeCluster) : (s.updLoupe d f).ctl = s.ctl := rfl
@[simp] theorem updLoupe_issuer (s : State) (d : Nat) (f : LoupeCluster → LoupeCluster) : (s.updLoupe d f).issuer = s.issuer := rfl
@[simp] theorem updLoupe_agenda (s : State) (d : Nat) (f : LoupeCluster → LoupeCluster) : (s.updLoupe d f).agenda = s.agenda := rfl
@[simp] theorem updLoupe_free (s : State) (d : Nat) (f : LoupeCluster → LoupeCluster) : (s.updLoupe d f).free = s.free := rfl
@[simp] theorem updLoupe_nextOp (s : State) (d : Nat) (f : LoupeCluster → LoupeCluster) : (s.updLoupe d f).nextOp = s.nextOp := rfl
@[simp] theorem updLoupe_nextUid (s : State) (d : Nat) (f : LoupeCluster → LoupeCluster) : (s.updLoupe d f).nextUid = s.nextUid := rfl
@[simp] theorem updLoupe_x_launches (s : State) (d : Nat) (f : LoupeCluster → LoupeCluster) : (s.updLoupe d f).x.launches = s.x.launches := rfl
@[simp] theorem updLoupe_x_code (s : State) (d : Nat) (f : LoupeCluster → LoupeCluster) : (s.updLoupe d f).x.code = s.x.code := rfl
@[simp] theorem updLoupe_x_blocks (s : State) (d : Nat) (f : LoupeCluster → LoupeCluster) : (s.updLoupe d f).x.blocks = s.x.blocks := rfl
@[simp] theorem updLoupe_x_warps (s : State) (d : Nat) (f : LoupeCluster → LoupeCluster) : (s.updLoupe d f).x.warps = s.x.warps := rfl
@[simp] theorem updLoupe_x_clusters (s : State) (d : Nat) (f : LoupeCluster → LoupeCluster) : (s.updLoupe d f).x.clusters = s.x.clusters := rfl
@[simp] theorem updLoupe_x_spans (s : State) (d : Nat) (f : LoupeCluster → LoupeCluster) : (s.updLoupe d f).x.spans = s.x.spans := rfl
@[simp] theorem updLoupe_x_ops (s : State) (d : Nat) (f : LoupeCluster → LoupeCluster) : (s.updLoupe d f).x.ops = s.x.ops := rfl
@[simp] theorem updLoupe_x_splices (s : State) (d : Nat) (f : LoupeCluster → LoupeCluster) : (s.updLoupe d f).x.splices = s.x.splices := rfl
@[simp] theorem updLoupe_x_engines (s : State) (d : Nat) (f : LoupeCluster → LoupeCluster) : (s.updLoupe d f).x.engines = s.x.engines := rfl
@[simp] theorem updLoupe_x_cores (s : State) (d : Nat) (f : LoupeCluster → LoupeCluster) : (s.updLoupe d f).x.cores = s.x.cores := rfl

@[simp] theorem updEngine_time (s : State) (d n : Nat) (f : MatrixEngine → MatrixEngine) : (s.updEngine d n f).time = s.time := rfl
@[simp] theorem updEngine_mem (s : State) (d n : Nat) (f : MatrixEngine → MatrixEngine) : (s.updEngine d n f).mem = s.mem := rfl
@[simp] theorem updEngine_memKeys (s : State) (d n : Nat) (f : MatrixEngine → MatrixEngine) : (s.updEngine d n f).memKeys = s.memKeys := rfl
@[simp] theorem updEngine_ctl (s : State) (d n : Nat) (f : MatrixEngine → MatrixEngine) : (s.updEngine d n f).ctl = s.ctl := rfl
@[simp] theorem updEngine_issuer (s : State) (d n : Nat) (f : MatrixEngine → MatrixEngine) : (s.updEngine d n f).issuer = s.issuer := rfl
@[simp] theorem updEngine_agenda (s : State) (d n : Nat) (f : MatrixEngine → MatrixEngine) : (s.updEngine d n f).agenda = s.agenda := rfl
@[simp] theorem updEngine_free (s : State) (d n : Nat) (f : MatrixEngine → MatrixEngine) : (s.updEngine d n f).free = s.free := rfl
@[simp] theorem updEngine_nextOp (s : State) (d n : Nat) (f : MatrixEngine → MatrixEngine) : (s.updEngine d n f).nextOp = s.nextOp := rfl
@[simp] theorem updEngine_nextUid (s : State) (d n : Nat) (f : MatrixEngine → MatrixEngine) : (s.updEngine d n f).nextUid = s.nextUid := rfl
@[simp] theorem updEngine_x_launches (s : State) (d n : Nat) (f : MatrixEngine → MatrixEngine) : (s.updEngine d n f).x.launches = s.x.launches := rfl
@[simp] theorem updEngine_x_code (s : State) (d n : Nat) (f : MatrixEngine → MatrixEngine) : (s.updEngine d n f).x.code = s.x.code := rfl
@[simp] theorem updEngine_x_blocks (s : State) (d n : Nat) (f : MatrixEngine → MatrixEngine) : (s.updEngine d n f).x.blocks = s.x.blocks := rfl
@[simp] theorem updEngine_x_warps (s : State) (d n : Nat) (f : MatrixEngine → MatrixEngine) : (s.updEngine d n f).x.warps = s.x.warps := rfl
@[simp] theorem updEngine_x_clusters (s : State) (d n : Nat) (f : MatrixEngine → MatrixEngine) : (s.updEngine d n f).x.clusters = s.x.clusters := rfl
@[simp] theorem updEngine_x_spans (s : State) (d n : Nat) (f : MatrixEngine → MatrixEngine) : (s.updEngine d n f).x.spans = s.x.spans := rfl
@[simp] theorem updEngine_x_ops (s : State) (d n : Nat) (f : MatrixEngine → MatrixEngine) : (s.updEngine d n f).x.ops = s.x.ops := rfl
@[simp] theorem updEngine_x_splices (s : State) (d n : Nat) (f : MatrixEngine → MatrixEngine) : (s.updEngine d n f).x.splices = s.x.splices := rfl
@[simp] theorem updEngine_x_dies (s : State) (d n : Nat) (f : MatrixEngine → MatrixEngine) : (s.updEngine d n f).x.dies = s.x.dies := rfl
@[simp] theorem updEngine_x_cores (s : State) (d n : Nat) (f : MatrixEngine → MatrixEngine) : (s.updEngine d n f).x.cores = s.x.cores := rfl

@[simp] theorem updCore_time (s : State) (k : Nat) (f : CoreState → CoreState) : (s.updCore k f).time = s.time := rfl
@[simp] theorem updCore_mem (s : State) (k : Nat) (f : CoreState → CoreState) : (s.updCore k f).mem = s.mem := rfl
@[simp] theorem updCore_memKeys (s : State) (k : Nat) (f : CoreState → CoreState) : (s.updCore k f).memKeys = s.memKeys := rfl
@[simp] theorem updCore_ctl (s : State) (k : Nat) (f : CoreState → CoreState) : (s.updCore k f).ctl = s.ctl := rfl
@[simp] theorem updCore_issuer (s : State) (k : Nat) (f : CoreState → CoreState) : (s.updCore k f).issuer = s.issuer := rfl
@[simp] theorem updCore_agenda (s : State) (k : Nat) (f : CoreState → CoreState) : (s.updCore k f).agenda = s.agenda := rfl
@[simp] theorem updCore_free (s : State) (k : Nat) (f : CoreState → CoreState) : (s.updCore k f).free = s.free := rfl
@[simp] theorem updCore_nextOp (s : State) (k : Nat) (f : CoreState → CoreState) : (s.updCore k f).nextOp = s.nextOp := rfl
@[simp] theorem updCore_nextUid (s : State) (k : Nat) (f : CoreState → CoreState) : (s.updCore k f).nextUid = s.nextUid := rfl
@[simp] theorem updCore_x_launches (s : State) (k : Nat) (f : CoreState → CoreState) : (s.updCore k f).x.launches = s.x.launches := rfl
@[simp] theorem updCore_x_code (s : State) (k : Nat) (f : CoreState → CoreState) : (s.updCore k f).x.code = s.x.code := rfl
@[simp] theorem updCore_x_blocks (s : State) (k : Nat) (f : CoreState → CoreState) : (s.updCore k f).x.blocks = s.x.blocks := rfl
@[simp] theorem updCore_x_warps (s : State) (k : Nat) (f : CoreState → CoreState) : (s.updCore k f).x.warps = s.x.warps := rfl
@[simp] theorem updCore_x_clusters (s : State) (k : Nat) (f : CoreState → CoreState) : (s.updCore k f).x.clusters = s.x.clusters := rfl
@[simp] theorem updCore_x_spans (s : State) (k : Nat) (f : CoreState → CoreState) : (s.updCore k f).x.spans = s.x.spans := rfl
@[simp] theorem updCore_x_ops (s : State) (k : Nat) (f : CoreState → CoreState) : (s.updCore k f).x.ops = s.x.ops := rfl
@[simp] theorem updCore_x_splices (s : State) (k : Nat) (f : CoreState → CoreState) : (s.updCore k f).x.splices = s.x.splices := rfl
@[simp] theorem updCore_x_engines (s : State) (k : Nat) (f : CoreState → CoreState) : (s.updCore k f).x.engines = s.x.engines := rfl
@[simp] theorem updCore_x_dies (s : State) (k : Nat) (f : CoreState → CoreState) : (s.updCore k f).x.dies = s.x.dies := rfl

@[simp] theorem updCtl_time (s : State) (f : Control → Control) : (s.updCtl f).time = s.time := rfl
@[simp] theorem updCtl_mem (s : State) (f : Control → Control) : (s.updCtl f).mem = s.mem := rfl
@[simp] theorem updCtl_memKeys (s : State) (f : Control → Control) : (s.updCtl f).memKeys = s.memKeys := rfl
@[simp] theorem updCtl_x (s : State) (f : Control → Control) : (s.updCtl f).x = s.x := rfl
@[simp] theorem updCtl_issuer (s : State) (f : Control → Control) : (s.updCtl f).issuer = s.issuer := rfl
@[simp] theorem updCtl_agenda (s : State) (f : Control → Control) : (s.updCtl f).agenda = s.agenda := rfl
@[simp] theorem updCtl_free (s : State) (f : Control → Control) : (s.updCtl f).free = s.free := rfl
@[simp] theorem updCtl_nextOp (s : State) (f : Control → Control) : (s.updCtl f).nextOp = s.nextOp := rfl
@[simp] theorem updCtl_nextUid (s : State) (f : Control → Control) : (s.updCtl f).nextUid = s.nextUid := rfl

@[simp] theorem updIface_time (s : State) (i : Nat) (f : Iface → Iface) : (s.updIface i f).time = s.time := rfl
@[simp] theorem updIface_mem (s : State) (i : Nat) (f : Iface → Iface) : (s.updIface i f).mem = s.mem := rfl
@[simp] theorem updIface_memKeys (s : State) (i : Nat) (f : Iface → Iface) : (s.updIface i f).memKeys = s.memKeys := rfl
@[simp] theorem updIface_x (s : State) (i : Nat) (f : Iface → Iface) : (s.updIface i f).x = s.x := rfl
@[simp] theorem updIface_issuer (s : State) (i : Nat) (f : Iface → Iface) : (s.updIface i f).issuer = s.issuer := rfl
@[simp] theorem updIface_agenda (s : State) (i : Nat) (f : Iface → Iface) : (s.updIface i f).agenda = s.agenda := rfl
@[simp] theorem updIface_free (s : State) (i : Nat) (f : Iface → Iface) : (s.updIface i f).free = s.free := rfl
@[simp] theorem updIface_nextOp (s : State) (i : Nat) (f : Iface → Iface) : (s.updIface i f).nextOp = s.nextOp := rfl
@[simp] theorem updIface_nextUid (s : State) (i : Nat) (f : Iface → Iface) : (s.updIface i f).nextUid = s.nextUid := rfl

@[simp] theorem updQueue_time (s : State) (i q : Nat) (f : Queue → Queue) : (s.updQueue i q f).time = s.time := rfl
@[simp] theorem updQueue_mem (s : State) (i q : Nat) (f : Queue → Queue) : (s.updQueue i q f).mem = s.mem := rfl
@[simp] theorem updQueue_memKeys (s : State) (i q : Nat) (f : Queue → Queue) : (s.updQueue i q f).memKeys = s.memKeys := rfl
@[simp] theorem updQueue_x (s : State) (i q : Nat) (f : Queue → Queue) : (s.updQueue i q f).x = s.x := rfl
@[simp] theorem updQueue_issuer (s : State) (i q : Nat) (f : Queue → Queue) : (s.updQueue i q f).issuer = s.issuer := rfl
@[simp] theorem updQueue_agenda (s : State) (i q : Nat) (f : Queue → Queue) : (s.updQueue i q f).agenda = s.agenda := rfl
@[simp] theorem updQueue_free (s : State) (i q : Nat) (f : Queue → Queue) : (s.updQueue i q f).free = s.free := rfl
@[simp] theorem updQueue_nextOp (s : State) (i q : Nat) (f : Queue → Queue) : (s.updQueue i q f).nextOp = s.nextOp := rfl
@[simp] theorem updQueue_nextUid (s : State) (i q : Nat) (f : Queue → Queue) : (s.updQueue i q f).nextUid = s.nextUid := rfl

@[simp] theorem logEvent_time (s : State) (e : LogEvent) : (s.logEvent e).time = s.time := rfl
@[simp] theorem logEvent_mem (s : State) (e : LogEvent) : (s.logEvent e).mem = s.mem := rfl
@[simp] theorem logEvent_memKeys (s : State) (e : LogEvent) : (s.logEvent e).memKeys = s.memKeys := rfl
@[simp] theorem logEvent_x (s : State) (e : LogEvent) : (s.logEvent e).x = s.x := rfl
@[simp] theorem logEvent_issuer (s : State) (e : LogEvent) : (s.logEvent e).issuer = s.issuer := rfl
@[simp] theorem logEvent_agenda (s : State) (e : LogEvent) : (s.logEvent e).agenda = s.agenda := rfl
@[simp] theorem logEvent_free (s : State) (e : LogEvent) : (s.logEvent e).free = s.free := rfl
@[simp] theorem logEvent_nextOp (s : State) (e : LogEvent) : (s.logEvent e).nextOp = s.nextOp := rfl
@[simp] theorem logEvent_nextUid (s : State) (e : LogEvent) : (s.logEvent e).nextUid = s.nextUid := rfl

@[simp] theorem bump_time (s : State) : (s.bump).time = s.time := rfl
@[simp] theorem bump_mem (s : State) : (s.bump).mem = s.mem := rfl
@[simp] theorem bump_memKeys (s : State) : (s.bump).memKeys = s.memKeys := rfl
@[simp] theorem bump_x (s : State) : (s.bump).x = s.x := rfl
@[simp] theorem bump_ctl (s : State) : (s.bump).ctl = s.ctl := rfl
@[simp] theorem bump_issuer (s : State) : (s.bump).issuer = s.issuer := rfl
@[simp] theorem bump_agenda (s : State) : (s.bump).agenda = s.agenda := rfl
@[simp] theorem bump_nextOp (s : State) : (s.bump).nextOp = s.nextOp := rfl
@[simp] theorem bump_nextUid (s : State) : (s.bump).nextUid = s.nextUid := rfl

end Sys2Proof.Machine.State

namespace Sys2Proof.Machine

@[simp] theorem Path.goOn_mode (p : Path) (a : Word) : (p.goOn a).mode = p.mode := rfl
@[simp] theorem Path.goOn_ix (p : Path) (a : Word) : (p.goOn a).ix = p.ix := rfl
@[simp] theorem Path.goOn_lanes (p : Path) (a : Word) : (p.goOn a).lanes = p.lanes := rfl
@[simp] theorem Path.goOn_writes (p : Path) (a : Word) : (p.goOn a).writes = p.writes := rfl
@[simp] theorem Path.goOn_pending (p : Path) (a : Word) : (p.goOn a).pending = p.pending := rfl
@[simp] theorem Path.goOn_uncovered (p : Path) (a : Word) : (p.goOn a).uncovered = p.uncovered := rfl
@[simp] theorem Path.goOn_stack (p : Path) (a : Word) : (p.goOn a).stack = p.stack := rfl
@[simp] theorem Path.outstanding_pc (p : Path) (a : Word) (ws : List (WTarget × Word)) : (p.outstanding a ws).pc = p.pc := rfl
@[simp] theorem Path.outstanding_mode (p : Path) (a : Word) (ws : List (WTarget × Word)) : (p.outstanding a ws).mode = p.mode := rfl
@[simp] theorem Path.outstanding_ix (p : Path) (a : Word) (ws : List (WTarget × Word)) : (p.outstanding a ws).ix = p.ix := rfl
@[simp] theorem Path.outstanding_lanes (p : Path) (a : Word) (ws : List (WTarget × Word)) : (p.outstanding a ws).lanes = p.lanes := rfl
@[simp] theorem Path.outstanding_pending (p : Path) (a : Word) (ws : List (WTarget × Word)) : (p.outstanding a ws).pending = p.pending := rfl
@[simp] theorem Path.outstanding_stack (p : Path) (a : Word) (ws : List (WTarget × Word)) : (p.outstanding a ws).stack = p.stack := rfl
@[simp] theorem Path.outstanding_park (p : Path) (a : Word) (ws : List (WTarget × Word)) : (p.outstanding a ws).park = p.park := rfl
@[simp] theorem Path.outstanding_only (p : Path) (a : Word) (ws : List (WTarget × Word)) : (p.outstanding a ws).only = p.only := rfl
@[simp] theorem Path.outstanding_carry (p : Path) (a : Word) (ws : List (WTarget × Word)) : (p.outstanding a ws).carry = p.carry := rfl
@[simp] theorem Path.outstanding_waitStart (p : Path) (a : Word) (ws : List (WTarget × Word)) : (p.outstanding a ws).waitStart = p.waitStart := rfl
@[simp] theorem Path.outstanding_waitOn (p : Path) (a : Word) (ws : List (WTarget × Word)) : (p.outstanding a ws).waitOn = p.waitOn := rfl
@[simp] theorem Path.outstanding_passed (p : Path) (a : Word) (ws : List (WTarget × Word)) : (p.outstanding a ws).passed = p.passed := rfl
@[simp] theorem Path.outstanding_drawn (p : Path) (a : Word) (ws : List (WTarget × Word)) : (p.outstanding a ws).drawn = p.drawn := rfl
@[simp] theorem Path.outstanding_frameServed (p : Path) (a : Word) (ws : List (WTarget × Word)) : (p.outstanding a ws).frameServed = p.frameServed := rfl
@[simp] theorem Path.outstanding_back (p : Path) (a : Word) (ws : List (WTarget × Word)) : (p.outstanding a ws).back = p.back := rfl
@[simp] theorem Path.outstanding_starve (p : Path) (a : Word) (ws : List (WTarget × Word)) : (p.outstanding a ws).starve = p.starve := rfl
@[simp] theorem Path.outstanding_starved (p : Path) (a : Word) (ws : List (WTarget × Word)) : (p.outstanding a ws).starved = p.starved := rfl
@[simp] theorem Warp.retire_ref (w : Warp) (l : Launch) : (w.retire l).ref = w.ref := rfl
@[simp] theorem Warp.retire_p0 (w : Warp) (l : Launch) : (w.retire l).p0 = w.p0 := rfl
@[simp] theorem Warp.retire_p1 (w : Warp) (l : Launch) : (w.retire l).p1 = w.p1 := rfl
@[simp] theorem Warp.retire_groups (w : Warp) (l : Launch) : (w.retire l).groups = w.groups := rfl
@[simp] theorem Warp.retire_arrivals (w : Warp) (l : Launch) : (w.retire l).arrivals = w.arrivals := rfl
@[simp] theorem Warp.retire_exited (w : Warp) (l : Launch) : (w.retire l).exited = w.exited := rfl
@[simp] theorem Warp.retire_sregs (w : Warp) (l : Launch) : (w.retire l).sregs = w.sregs := rfl
@[simp] theorem Warp.retire_vregs (w : Warp) (l : Launch) : (w.retire l).vregs = w.vregs := rfl
@[simp] theorem Warp.retire_status (w : Warp) (l : Launch) : (w.retire l).status = w.status := rfl
@[simp] theorem Warp.retire_spill (w : Warp) (l : Launch) : (w.retire l).spill = w.spill := rfl
@[simp] theorem Warp.retire_staging (w : Warp) (l : Launch) : (w.retire l).staging = w.staging := rfl
@[simp] theorem Warp.retire_closes (w : Warp) (l : Launch) : (w.retire l).closes = w.closes := rfl
@[simp] theorem Warp.retire_doneCloses (w : Warp) (l : Launch) : (w.retire l).doneCloses = w.doneCloses := rfl
@[simp] theorem Warp.retire_errors (w : Warp) (l : Launch) : (w.retire l).errors = w.errors := rfl
@[simp] theorem Warp.retire_forest (w : Warp) (l : Launch) : (w.retire l).forest = w.forest := rfl
@[simp] theorem Warp.retire_profOver (w : Warp) (l : Launch) : (w.retire l).profOver = w.profOver := rfl
@[simp] theorem Warp.retire_frozen (w : Warp) (l : Launch) : (w.retire l).frozen = w.frozen := rfl
@[simp] theorem Warp.retire_splitReg (w : Warp) (l : Launch) : (w.retire l).splitReg = w.splitReg := rfl
@[simp] theorem Warp.retire_inject (w : Warp) (l : Launch) : (w.retire l).inject = w.inject := rfl
@[simp] theorem Warp.retire_soft (w : Warp) (l : Launch) : (w.retire l).soft = w.soft := rfl
@[simp] theorem Warp.retire_spillSoft (w : Warp) (l : Launch) : (w.retire l).spillSoft = w.spillSoft := rfl
@[simp] theorem Warp.retire_sched (w : Warp) (l : Launch) : (w.retire l).sched = w.sched := rfl
@[simp] theorem Warp.retire_startClk (w : Warp) (l : Launch) : (w.retire l).startClk = w.startClk := rfl
@[simp] theorem Warp.retire_loupe (w : Warp) (l : Launch) : (w.retire l).loupe = w.loupe := rfl
@[simp] theorem Warp.retire_ended (w : Warp) (l : Launch) : (w.retire l).ended = w.ended := rfl
@[simp] theorem Warp.setPath_ref (w : Warp) (k : Bool) (p : Option Path) : (w.setPath k p).ref = w.ref := by cases k <;> rfl
@[simp] theorem Warp.updPath_ref (w : Warp) (k : Bool) (f : Path → Path) : (w.updPath k f).ref = w.ref := by cases k <;> rfl
@[simp] theorem Warp.setPath_groups (w : Warp) (k : Bool) (p : Option Path) : (w.setPath k p).groups = w.groups := by cases k <;> rfl
@[simp] theorem Warp.updPath_groups (w : Warp) (k : Bool) (f : Path → Path) : (w.updPath k f).groups = w.groups := by cases k <;> rfl
@[simp] theorem Warp.setPath_arrivals (w : Warp) (k : Bool) (p : Option Path) : (w.setPath k p).arrivals = w.arrivals := by cases k <;> rfl
@[simp] theorem Warp.updPath_arrivals (w : Warp) (k : Bool) (f : Path → Path) : (w.updPath k f).arrivals = w.arrivals := by cases k <;> rfl
@[simp] theorem Warp.setPath_exited (w : Warp) (k : Bool) (p : Option Path) : (w.setPath k p).exited = w.exited := by cases k <;> rfl
@[simp] theorem Warp.updPath_exited (w : Warp) (k : Bool) (f : Path → Path) : (w.updPath k f).exited = w.exited := by cases k <;> rfl
@[simp] theorem Warp.setPath_sregs (w : Warp) (k : Bool) (p : Option Path) : (w.setPath k p).sregs = w.sregs := by cases k <;> rfl
@[simp] theorem Warp.updPath_sregs (w : Warp) (k : Bool) (f : Path → Path) : (w.updPath k f).sregs = w.sregs := by cases k <;> rfl
@[simp] theorem Warp.setPath_vregs (w : Warp) (k : Bool) (p : Option Path) : (w.setPath k p).vregs = w.vregs := by cases k <;> rfl
@[simp] theorem Warp.updPath_vregs (w : Warp) (k : Bool) (f : Path → Path) : (w.updPath k f).vregs = w.vregs := by cases k <;> rfl
@[simp] theorem Warp.setPath_status (w : Warp) (k : Bool) (p : Option Path) : (w.setPath k p).status = w.status := by cases k <;> rfl
@[simp] theorem Warp.updPath_status (w : Warp) (k : Bool) (f : Path → Path) : (w.updPath k f).status = w.status := by cases k <;> rfl
@[simp] theorem Warp.setPath_spill (w : Warp) (k : Bool) (p : Option Path) : (w.setPath k p).spill = w.spill := by cases k <;> rfl
@[simp] theorem Warp.updPath_spill (w : Warp) (k : Bool) (f : Path → Path) : (w.updPath k f).spill = w.spill := by cases k <;> rfl
@[simp] theorem Warp.setPath_staging (w : Warp) (k : Bool) (p : Option Path) : (w.setPath k p).staging = w.staging := by cases k <;> rfl
@[simp] theorem Warp.updPath_staging (w : Warp) (k : Bool) (f : Path → Path) : (w.updPath k f).staging = w.staging := by cases k <;> rfl
@[simp] theorem Warp.setPath_closes (w : Warp) (k : Bool) (p : Option Path) : (w.setPath k p).closes = w.closes := by cases k <;> rfl
@[simp] theorem Warp.updPath_closes (w : Warp) (k : Bool) (f : Path → Path) : (w.updPath k f).closes = w.closes := by cases k <;> rfl
@[simp] theorem Warp.setPath_doneCloses (w : Warp) (k : Bool) (p : Option Path) : (w.setPath k p).doneCloses = w.doneCloses := by cases k <;> rfl
@[simp] theorem Warp.updPath_doneCloses (w : Warp) (k : Bool) (f : Path → Path) : (w.updPath k f).doneCloses = w.doneCloses := by cases k <;> rfl
@[simp] theorem Warp.setPath_errors (w : Warp) (k : Bool) (p : Option Path) : (w.setPath k p).errors = w.errors := by cases k <;> rfl
@[simp] theorem Warp.updPath_errors (w : Warp) (k : Bool) (f : Path → Path) : (w.updPath k f).errors = w.errors := by cases k <;> rfl
@[simp] theorem Warp.setPath_forest (w : Warp) (k : Bool) (p : Option Path) : (w.setPath k p).forest = w.forest := by cases k <;> rfl
@[simp] theorem Warp.updPath_forest (w : Warp) (k : Bool) (f : Path → Path) : (w.updPath k f).forest = w.forest := by cases k <;> rfl
@[simp] theorem Warp.setPath_prof (w : Warp) (k : Bool) (p : Option Path) : (w.setPath k p).prof = w.prof := by cases k <;> rfl
@[simp] theorem Warp.updPath_prof (w : Warp) (k : Bool) (f : Path → Path) : (w.updPath k f).prof = w.prof := by cases k <;> rfl
@[simp] theorem Warp.setPath_profOver (w : Warp) (k : Bool) (p : Option Path) : (w.setPath k p).profOver = w.profOver := by cases k <;> rfl
@[simp] theorem Warp.updPath_profOver (w : Warp) (k : Bool) (f : Path → Path) : (w.updPath k f).profOver = w.profOver := by cases k <;> rfl
@[simp] theorem Warp.setPath_frozen (w : Warp) (k : Bool) (p : Option Path) : (w.setPath k p).frozen = w.frozen := by cases k <;> rfl
@[simp] theorem Warp.updPath_frozen (w : Warp) (k : Bool) (f : Path → Path) : (w.updPath k f).frozen = w.frozen := by cases k <;> rfl
@[simp] theorem Warp.setPath_splitReg (w : Warp) (k : Bool) (p : Option Path) : (w.setPath k p).splitReg = w.splitReg := by cases k <;> rfl
@[simp] theorem Warp.updPath_splitReg (w : Warp) (k : Bool) (f : Path → Path) : (w.updPath k f).splitReg = w.splitReg := by cases k <;> rfl
@[simp] theorem Warp.setPath_inject (w : Warp) (k : Bool) (p : Option Path) : (w.setPath k p).inject = w.inject := by cases k <;> rfl
@[simp] theorem Warp.updPath_inject (w : Warp) (k : Bool) (f : Path → Path) : (w.updPath k f).inject = w.inject := by cases k <;> rfl
@[simp] theorem Warp.setPath_soft (w : Warp) (k : Bool) (p : Option Path) : (w.setPath k p).soft = w.soft := by cases k <;> rfl
@[simp] theorem Warp.updPath_soft (w : Warp) (k : Bool) (f : Path → Path) : (w.updPath k f).soft = w.soft := by cases k <;> rfl
@[simp] theorem Warp.setPath_spillSoft (w : Warp) (k : Bool) (p : Option Path) : (w.setPath k p).spillSoft = w.spillSoft := by cases k <;> rfl
@[simp] theorem Warp.updPath_spillSoft (w : Warp) (k : Bool) (f : Path → Path) : (w.updPath k f).spillSoft = w.spillSoft := by cases k <;> rfl
@[simp] theorem Warp.setPath_sched (w : Warp) (k : Bool) (p : Option Path) : (w.setPath k p).sched = w.sched := by cases k <;> rfl
@[simp] theorem Warp.updPath_sched (w : Warp) (k : Bool) (f : Path → Path) : (w.updPath k f).sched = w.sched := by cases k <;> rfl
@[simp] theorem Warp.setPath_startClk (w : Warp) (k : Bool) (p : Option Path) : (w.setPath k p).startClk = w.startClk := by cases k <;> rfl
@[simp] theorem Warp.updPath_startClk (w : Warp) (k : Bool) (f : Path → Path) : (w.updPath k f).startClk = w.startClk := by cases k <;> rfl
@[simp] theorem Warp.setPath_retired (w : Warp) (k : Bool) (p : Option Path) : (w.setPath k p).retired = w.retired := by cases k <;> rfl
@[simp] theorem Warp.updPath_retired (w : Warp) (k : Bool) (f : Path → Path) : (w.updPath k f).retired = w.retired := by cases k <;> rfl
@[simp] theorem Warp.setPath_idle (w : Warp) (k : Bool) (p : Option Path) : (w.setPath k p).idle = w.idle := by cases k <;> rfl
@[simp] theorem Warp.updPath_idle (w : Warp) (k : Bool) (f : Path → Path) : (w.updPath k f).idle = w.idle := by cases k <;> rfl
@[simp] theorem Warp.setPath_loupe (w : Warp) (k : Bool) (p : Option Path) : (w.setPath k p).loupe = w.loupe := by cases k <;> rfl
@[simp] theorem Warp.updPath_loupe (w : Warp) (k : Bool) (f : Path → Path) : (w.updPath k f).loupe = w.loupe := by cases k <;> rfl
@[simp] theorem Warp.setPath_frame (w : Warp) (k : Bool) (p : Option Path) : (w.setPath k p).frame = w.frame := by cases k <;> rfl
@[simp] theorem Warp.updPath_frame (w : Warp) (k : Bool) (f : Path → Path) : (w.updPath k f).frame = w.frame := by cases k <;> rfl
@[simp] theorem Warp.setPath_ended (w : Warp) (k : Bool) (p : Option Path) : (w.setPath k p).ended = w.ended := by cases k <;> rfl
@[simp] theorem Warp.updPath_ended (w : Warp) (k : Bool) (f : Path → Path) : (w.updPath k f).ended = w.ended := by cases k <;> rfl

end Sys2Proof.Machine
end

