-- ==== Sys2Proof/Laws/Warp.lean ====
section
/-! SUPPORT. Looking a warp up after an update, and what the shared operations of an instruction that only touches
its warp can do: `Moves` is that relation, and each operation has one lemma. -/

namespace Sys2Proof.Machine

/-! ### Lookup -/

theorem findBy_map {α β : Type} [DecidableEq β] (key : α → β) (k : β) (g : α → α) (l : List α)
    (h : ∀ x, key (g x) = key x) : findBy key k (l.map g) = (findBy key k l).map g := by
  induction l with
  | nil => rfl
  | cons x r ih =>
    simp only [List.map_cons, findBy, h]
    by_cases hx : key x = k <;> simp [hx, ih]

theorem findBy_key {α β : Type} [DecidableEq β] {key : α → β} {k : β} {l : List α} {x : α}
    (h : findBy key k l = some x) : key x = k := by
  induction l with
  | nil => cases h
  | cons y r ih =>
    simp only [findBy] at h
    by_cases hy : key y = k
    · simp only [hy, if_true, Option.some.injEq] at h; exact h ▸ hy
    · simp only [hy, if_false] at h; exact ih h

theorem State.warp?_ref {s : State} {r : WarpRef} {w : Warp} (h : s.warp? r = some w) : w.ref = r := findBy_key h

theorem findBy_map_at {α β : Type} [DecidableEq β] (key : α → β) (k r : β) (g : α → α) (l : List α)
    (h : ∀ x, key (g x) = key x) :
    findBy key k (l.map fun x => if key x = r then g x else x)
      = if k = r then (findBy key k l).map g else findBy key k l := by
  induction l with
  | nil => simp [findBy]
  | cons x xs ih =>
    by_cases hx : key x = r
    · by_cases hk : k = r
      · subst hk; simp [findBy, hx, h]
      · have h1 : r ≠ k := Ne.symm hk
        have h2 : key (g x) ≠ k := by rw [h, hx]; exact h1
        simp only [List.map_cons, hx, if_true, findBy, h1, h2, hk, if_false, ih]
    · by_cases hk : key x = k
      · have : k ≠ r := fun e => hx (hk.trans e)
        simp [findBy, hk, this]
      · simp only [List.map_cons, hx, if_false, findBy, hk, ih]

theorem State.warp?_updWarp (s : State) (r q : WarpRef) (f : Warp → Warp) (h : ∀ w, (f w).ref = w.ref) :
    (s.updWarp r f).warp? q = if q = r then (s.warp? q).map f else s.warp? q :=
  findBy_map_at Warp.ref q r f s.x.warps h

theorem setBy_eq {α β : Type} [DecidableEq β] (key : α → β) (x : α) (l : List α) :
    setBy key x l = l.map fun y => if key y = key x then x else y := rfl

theorem findBy_setBy {α β : Type} [DecidableEq β] (key : α → β) (k : β) (x : α) (l : List α) :
    findBy key k (setBy key x l) = if k = key x then (findBy key k l).map fun _ => x else findBy key k l := by
  induction l with
  | nil => simp [setBy, findBy]
  | cons y r ih =>
    simp only [setBy_eq] at ih ⊢
    by_cases hy : key y = key x
    · by_cases hk : k = key x
      · simp [findBy, hy, hk]
      · have h1 : key x ≠ k := fun e => hk e.symm
        simp only [List.map_cons, hy, if_true, findBy, h1, if_false, ih]
    · by_cases hk : key y = k
      · have : k ≠ key x := fun e => hy (hk.trans e)
        simp [findBy, hk, this]
      · simp only [List.map_cons, hy, if_false, findBy, hk, ih]

theorem State.warp?_setWarp (s : State) (w : Warp) (q : WarpRef) :
    (s.setWarp w).warp? q = if q = w.ref then (s.warp? q).map fun _ => w else s.warp? q :=
  findBy_setBy Warp.ref q w s.x.warps

/-! ### Slots -/

@[simp] theorem Warp.path?_setPath (w : Warp) (k : Bool) (p : Option Path) : (w.setPath k p).path? k = p := by
  cases k <;> rfl

@[simp] theorem Warp.path?_setPath_not (w : Warp) (k : Bool) (p : Option Path) : (w.setPath k p).path? (!k) = w.path? (!k) := by
  cases k <;> rfl

@[simp] theorem Warp.setPath_setPath (w : Warp) (k : Bool) (p q : Option Path) : (w.setPath k p).setPath k q = w.setPath k q := by
  cases k <;> rfl

theorem Warp.updPath_some {w : Warp} {k : Bool} {p : Path} (h : w.path? k = some p) (f : Path → Path) :
    w.updPath k f = w.setPath k (some (f p)) := by simp [Warp.updPath, h]

theorem Warp.setPath_self {w : Warp} {k : Bool} {p : Path} (h : w.path? k = some p) : w.setPath k (some p) = w := by
  cases k <;> simp_all [Warp.setPath, Warp.path?] <;> cases w <;> simp_all

/-! ### The issuing path -/

theorem State.ctxAt?_some {s : State} {r : WarpRef} {k : Bool} {c : Ctx} (h : s.ctxAt? r k = some c) :
    c.s = s ∧ c.ref = r ∧ c.slot = k ∧ s.warp? r = some c.w ∧ s.block? r.launch r.block = some c.b ∧
      s.launch? r.launch = some c.l ∧ c.w.path? k = some c.p := by
  unfold State.ctxAt? at h
  split at h
  · rename_i w b l hw hb hl
    split at h
    · rename_i p hp
      cases h
      exact ⟨rfl, rfl, rfl, hw, hb, hl, hp⟩
    · cases h
  · cases h

theorem State.ctx?_some {s : State} {c : Ctx} (h : s.ctx? = some c) : s.ctxAt? c.ref c.slot = some c := by
  unfold State.ctx? at h
  split at h
  · obtain ⟨-, h1, h2, -⟩ := State.ctxAt?_some h
    rw [h1, h2]; exact h
  · cases h

/-- What is known of the path that issues. -/
structure Ctx.At (c : Ctx) (s : State) : Prop where
  state : c.s = s
  warp : s.warp? c.ref = some c.w
  block : s.block? c.ref.launch c.ref.block = some c.b
  launch : s.launch? c.ref.launch = some c.l
  path : c.w.path? c.slot = some c.p

theorem State.ctx?_at {s : State} {c : Ctx} (h : s.ctx? = some c) : c.At s := by
  have h2 := State.ctx?_some h
  obtain ⟨h3, h4, h5, h6, h7, h8, h9⟩ := State.ctxAt?_some h2
  exact ⟨h3, h6, h7, h8, h9⟩

/-! ### Only a warp moves -/

theorem OnlyWarp.refl (s : State) (r : WarpRef) : OnlyWarp s s r := ⟨rfl, rfl, fun _ _ => rfl, fun _ => rfl⟩

theorem OnlyWarp.trans {s t u : State} {r : WarpRef} (h : OnlyWarp s t r) (k : OnlyWarp t u r) : OnlyWarp s u r where
  rest := by rw [k.rest, h.rest]
  refs := k.refs.trans h.refs
  others q hq := (k.others q hq).trans (h.others q hq)
  dies d := (k.dies d).trans (h.dies d)

/-- From s to t the warp r goes from w to w', and nothing else moves but contact sheets. -/
structure Moves (s t : State) (r : WarpRef) (w w' : Warp) : Prop where
  only : OnlyWarp s t r
  before : s.warp? r = some w
  after : t.warp? r = some w'
  place : w'.onLoupe? = w.onLoupe?
  quiet : w.onLoupe? = none → t.x.dies = s.x.dies

theorem Moves.refl {s : State} {r : WarpRef} {w : Warp} (h : s.warp? r = some w) : Moves s s r w w :=
  ⟨OnlyWarp.refl s r, h, h, rfl, fun _ => rfl⟩

theorem Moves.trans {s t u : State} {r : WarpRef} {w w' w'' : Warp} (h : Moves s t r w w') (k : Moves t u r w' w'') :
    Moves s u r w w'' :=
  ⟨h.only.trans k.only, h.before, k.after, k.place.trans h.place,
    fun q => (k.quiet (h.place.trans q)).trans (h.quiet q)⟩

theorem map_ref_updWarp (ws : List Warp) (r : WarpRef) (f : Warp → Warp) (h : ∀ w, (f w).ref = w.ref) :
    (ws.map fun w => if w.ref = r then f w else w).map Warp.ref = ws.map Warp.ref := by
  simp only [List.map_map]
  refine List.map_congr_left fun w _ => ?_
  by_cases hw : w.ref = r <;> simp [hw, h]

/-- Changing a warp. -/
theorem Moves.updWarp {s : State} {r : WarpRef} {w : Warp} (h : s.warp? r = some w) (f : Warp → Warp)
    (hf : ∀ x, (f x).ref = x.ref) (hp : (f w).onLoupe? = w.onLoupe?) : Moves s (s.updWarp r f) r w (f w) where
  only := ⟨rfl, map_ref_updWarp _ _ _ hf, fun q hq => by rw [State.warp?_updWarp _ _ _ _ hf]; simp [hq], fun _ => rfl⟩
  before := h
  after := by rw [State.warp?_updWarp _ _ _ _ hf]; simp [h]
  place := hp
  quiet _ := rfl

/-- Replacing a warp. -/
theorem Moves.setWarp {s : State} {r : WarpRef} {w w' : Warp} (h : s.warp? r = some w) (hr : w'.ref = r)
    (hp : w'.onLoupe? = w.onLoupe?) : Moves s (s.setWarp w') r w w' where
  only := by
    refine ⟨rfl, ?_, fun q hq => ?_, fun _ => rfl⟩
    · show (setBy Warp.ref w' s.x.warps).map Warp.ref = _
      simp only [setBy_eq, List.map_map]
      refine List.map_congr_left fun x _ => ?_
      by_cases hx : x.ref = w'.ref <;> simp [hx]
    · rw [State.warp?_setWarp]; simp [hr, hq]
  before := h
  after := by rw [State.warp?_setWarp]; simp [hr, h]
  place := hp
  quiet _ := rfl

/-- Changing a path. -/
theorem Moves.updPath {s : State} {r : WarpRef} {w : Warp} {k : Bool} {p : Path} (h : s.warp? r = some w)
    (hp : w.path? k = some p) (f : Path → Path) : Moves s (s.updPath r k f) r w (w.setPath k (some (f p))) := by
  have := Moves.updWarp h (fun x => x.updPath k f) (fun x => by simp) (by simp [Warp.onLoupe?])
  rwa [Warp.updPath_some hp] at this

/-- A fresh free value. -/
theorem Moves.bump {s : State} {r : WarpRef} {w : Warp} (h : s.warp? r = some w) : Moves s s.bump r w w :=
  ⟨⟨rfl, rfl, fun _ _ => rfl, fun _ => rfl⟩, h, h, rfl, fun _ => rfl⟩

/-- A warp whose last contact-sheet record has another clock. -/
def Warp.clocked (w : Warp) (clk : Option DWord) : Warp := { w with loupe := { w.loupe with lastClk := clk } }

@[simp] theorem Warp.clocked_path? (w : Warp) (clk : Option DWord) (k : Bool) : (w.clocked clk).path? k = w.path? k := by
  cases k <;> rfl
@[simp] theorem Warp.clocked_onLoupe? (w : Warp) (clk : Option DWord) : (w.clocked clk).onLoupe? = w.onLoupe? := rfl
@[simp] theorem Warp.clocked_ref (w : Warp) (clk : Option DWord) : (w.clocked clk).ref = w.ref := rfl
@[simp] theorem Warp.clocked_clocked (w : Warp) (a b : Option DWord) : (w.clocked a).clocked b = w.clocked b := rfl
theorem Warp.clocked_self (w : Warp) : w.clocked w.loupe.lastClk = w := rfl

/-- A warp on a loupe core changes the contact sheet or the film strip of a die. -/
theorem Moves.updSheet {s : State} {r : WarpRef} {w : Warp} (h : s.warp? r = some w) (d : Nat) (f : LoupeCluster → LoupeCluster)
    (hf : ∀ x, (f x).offSheet = x.offSheet) (hl : w.onLoupe? ≠ none) : Moves s (s.updLoupe d f) r w w where
  only := by
    refine ⟨rfl, rfl, fun _ _ => rfl, fun e => ?_⟩
    by_cases he : e = d
    · subst he
      simp only [State.die, State.updLoupe, State.updDie, tget_tput_same, Die.offSheet, Option.getD_some, hf]
    · simp [State.die, State.updLoupe, State.updDie, tget_tput_ne _ _ _ _ he]
  before := h
  after := h
  place := rfl
  quiet q := absurd q hl

end Sys2Proof.Machine
end

