-- ==== Sys2Proof/Laws/Ops.lean ====
section
/-! SUPPORT. One lemma for each shared operation of the instruction meanings, saying all that it can do. -/

namespace Sys2Proof.Machine

/-! ### Records -/

/-- A contact-sheet record changes the clock of the warp's last one, on a loupe core only. -/
theorem Moves.sheet {s : State} {r : WarpRef} {w : Warp} (h : s.warp? r = some w) (mask pc : Word) (dclk : Option Nat)
    (dest flags ty : Nat) :
    ∃ clk, Moves s (s.sheet r mask pc dclk dest flags ty) r w (w.clocked clk) ∧ (w.onLoupe? = none → clk = w.loupe.lastClk) := by
  unfold State.sheet
  simp only [h]
  cases hl : w.onLoupe? with
  | none => exact ⟨w.loupe.lastClk, Moves.refl h, fun _ => rfl⟩
  | some x =>
    refine ⟨some (BitVec.ofNat 64 (s.loupeClk (s.dieOf r))), ?_, fun e => by cases e⟩
    have h1 := Moves.updSheet h (s.dieOf r) (fun y => y.append (sheetRecord mask pc (dclk.getD
      (dclkOf s.free (s.loupeClk (s.dieOf r)) w.loupe.lastClk)) dest flags ty (slotByte x.1 x.2) w.loupe.tseq))
      (fun _ => rfl) (by simp [hl])
    exact h1.trans (Moves.updWarp h1.after (fun w => w.clocked (some (BitVec.ofNat 64 (s.loupeClk (s.dieOf r)))))
      (fun _ => rfl) rfl)

/-- Registers just written are recorded in the film strip, on a loupe core only. -/
theorem Moves.filmed {s : State} {r : WarpRef} {w : Warp} (h : s.warp? r = some w) (ks : List (Nat × Word)) :
    Moves s (s.filmed r ks) r w w := by
  simp only [State.filmed, h, State.film]
  cases hl : w.onLoupe? with
  | none => exact Moves.refl h
  | some x =>
    simp only
    split
    · exact Moves.refl h
    · refine Moves.updSheet h _ _ (fun y => ?_) (by simp [hl])
      split <;> rfl

theorem Moves.hazards {s : State} {r : WarpRef} {w : Warp} (h : s.warp? r = some w) (active pc : Word) (path : Bool)
    (flags : Nat) (xs : List Nat) (us : List Uncovered) :
    ∃ clk, Moves s (s.hazards r active pc path flags xs us) r w (w.clocked clk) ∧
      (w.onLoupe? = none → clk = w.loupe.lastClk) := by
  induction xs generalizing s w with
  | nil => exact ⟨w.loupe.lastClk, Moves.refl h, fun _ => rfl⟩
  | cons x xs ih =>
    unfold State.hazards
    split
    · rename_i u _
      obtain ⟨c1, h1, e1⟩ := Moves.sheet h active pc (some (u.pc.toNat % 2 ^ 16)) (destCode x) (flags + 32 * b2n path) 1
      obtain ⟨c2, h2, e2⟩ := ih h1.after
      exact ⟨c2, h1.trans h2, fun q => (e2 q).trans (e1 q)⟩
    · exact ih h

/-- HAZARD records of an issue (20 R308). -/
theorem Moves.traceHazards (c : Ctx) {s : State} {w : Warp} (h : s.warp? c.ref = some w) (active : LaneMask)
    (reads dests : List Nat) :
    ∃ clk, Moves s (c.traceHazards s active reads dests) c.ref w (w.clocked clk) ∧
      (w.onLoupe? = none → clk = w.loupe.lastClk) := by
  unfold Ctx.traceHazards
  split_ifs
  · exact ⟨w.loupe.lastClk, Moves.refl h, fun _ => rfl⟩
  · obtain ⟨c1, h1, e1⟩ := Moves.hazards h active c.p.pc (c.w.pathBit c.slot) 1 reads.eraseDups c.p.uncovered
    obtain ⟨c2, h2, e2⟩ := Moves.hazards h1.after active c.p.pc (c.w.pathBit c.slot) 0x81 dests.eraseDups c.p.uncovered
    exact ⟨c2, h1.trans h2, fun q => (e2 q).trans (e1 q)⟩

theorem OnlyWarp.launch? {s t : State} {r : WarpRef} (h : OnlyWarp s t r) (k : Nat) : t.launch? k = s.launch? k := by
  rw [h.rest]; rfl

theorem OnlyWarp.block? {s t : State} {r : WarpRef} (h : OnlyWarp s t r) (l k : Nat) : t.block? l k = s.block? l k := by
  rw [h.rest]; rfl

/-! ### Retiring -/

/-- A warp retires an instruction. -/
theorem Moves.retireWarp {s : State} {r : WarpRef} {w : Warp} {l : Launch} (h : s.warp? r = some w)
    (hl : s.launch? r.launch = some l) (active pc : Word) (dest : Option Nat) (flags : Nat) (path : Bool) :
    ∃ clk, Moves s (s.retireWarp r active pc dest flags path) r w ((w.retire l).clocked clk) ∧
      (w.onLoupe? = none → clk = w.loupe.lastClk) := by
  unfold State.retireWarp
  simp only [h, hl]
  have h1 : Moves s (s.setWarp (w.retire l)) r w (w.retire l) := Moves.setWarp h (State.warp?_ref h : w.ref = r) rfl
  obtain ⟨c2, h2, e2⟩ := Moves.sheet h1.after active pc none ((dest.map destCode).getD 255) (flags + 32 * b2n path) 0
  exact ⟨c2, h1.trans h2, e2⟩

@[simp] theorem Warp.retire_setPath (w : Warp) (l : Launch) (k : Bool) (p : Option Path) :
    (w.setPath k p).retire l = (w.retire l).setPath k p := by
  cases k <;> rfl

@[simp] theorem Warp.clocked_setPath (w : Warp) (clk : Option DWord) (k : Bool) (p : Option Path) :
    (w.setPath k p).clocked clk = (w.clocked clk).setPath k p := by
  cases k <;> rfl

@[simp] theorem Warp.retire_clocked (w : Warp) (l : Launch) (clk : Option DWord) :
    (w.clocked clk).retire l = (w.retire l).clocked clk := rfl

@[simp] theorem Warp.setPath_path? (w : Warp) (l : Launch) (k : Bool) : (w.retire l).path? k = w.path? k := by
  cases k <;> rfl

@[simp] theorem Warp.onLoupe?_setPath (w : Warp) (k : Bool) (p : Option Path) : (w.setPath k p).onLoupe? = w.onLoupe? := by
  cases k <;> rfl

@[simp] theorem Warp.onLoupe?_retire (w : Warp) (l : Launch) : (w.retire l).onLoupe? = w.onLoupe? := rfl

/-- An instruction of a path retires and the path goes on at npc. -/
theorem Moves.retireTo {s : State} {r : WarpRef} {slot : Bool} {w : Warp} {p : Path} {l : Launch}
    (h : s.warp? r = some w) (hp : w.path? slot = some p) (hl : s.launch? r.launch = some l) (active pc : Word)
    (dest : Option Nat) (flags : Nat) (npc : Word) :
    ∃ clk, Moves s (s.retireTo r slot active pc dest flags npc) r w
        (((w.retire l).clocked clk).setPath slot (some (p.goOn (p.back.getD npc)))) ∧
      (w.onLoupe? = none → clk = w.loupe.lastClk) := by
  unfold State.retireTo
  simp only [h, hp]
  have h1 := Moves.updPath h hp fun p => p.goOn (p.back.getD npc)
  obtain ⟨c2, h2, e2⟩ := Moves.retireWarp h1.after (l := l) (by rw [h1.only.launch?]; exact hl) active pc dest
    (flags + 2 * b2n p.drawn.isSome) (w.pathBit slot)
  refine ⟨c2, ?_, fun q => ?_⟩
  · have := h1.trans h2
    simpa using this
  · simpa using e2 (by simpa using q)

/-! ### The marker -/

/-- A path after its instruction: the writes added, the marker applied. -/
theorem Path.mark_goOn (p : Path) (m : Bool) (npc : Word) (ws : List (WTarget × Word)) (u : List Uncovered) :
    ∃ u', (({ p with writes := p.writes ++ ws.map fun x => ⟨x.1, x.2, p.pc, nextNo p.writes⟩, uncovered := u } : Path).goOn
      (p.back.getD npc)).mark m = p.after npc m ws u' := by
  cases m with
  | false => exact ⟨u, by simp [Path.mark, Path.after, Path.goOn]⟩
  | true =>
    refine ⟨[], ?_⟩
    by_cases hw : p.writes = [] <;> by_cases hs : ws = [] <;> by_cases hp : p.pending = [] <;>
      simp [Path.mark, Path.after, Path.goOn, hw, hs, hp]

theorem Path.outstanding_eq (p : Path) (ws : List (WTarget × Word)) :
    ∃ u, p.outstanding p.pc ws =
      { p with writes := p.writes ++ ws.map fun x => ⟨x.1, x.2, p.pc, nextNo p.writes⟩, uncovered := u } :=
  ⟨_, rfl⟩

/-! ### Completion -/

/-- A retirement, the marker and a fresh free value complete the instruction; w and p are warp and path with its
immediate effects. -/
theorem Ctx.done_of_retire {c : Ctx} {s : State} {w0 w : Warp} {p : Path} {u0 : List Uncovered} (m : Bool)
    (ws : List (WTarget × Word)) (hs : Moves c.s s c.ref c.w w0)
    (clk0 : Option DWord) (hw0 : w0 = (w.clocked clk0).setPath c.slot
      (some { p with writes := p.writes ++ ws.map fun x => ⟨x.1, x.2, p.pc, nextNo p.writes⟩, uncovered := u0 }))
    (hclk : c.w.onLoupe? = none → clk0 = c.w.loupe.lastClk)
    (hl : c.s.launch? c.ref.launch = some c.l) (active pc : Word) (dest : Option Nat) (flags : Nat) (npc : Word) :
    c.Done ((s.retireTo c.ref c.slot active pc dest flags npc).updPath c.ref c.slot fun p => p.mark m).bump
      w p npc m ws := by
  subst hw0
  obtain ⟨c1, h1, e1⟩ := Moves.retireTo (slot := c.slot) hs.after (Warp.path?_setPath _ _ _)
    (by rw [hs.only.launch?]; exact hl) active pc dest flags npc
  have h2 := hs.trans h1
  have h3 := h2.trans (Moves.updPath (k := c.slot) h2.after (Warp.path?_setPath _ _ _) fun p => p.mark m)
  have h4 := h3.trans (Moves.bump h3.after)
  obtain ⟨u', hu⟩ := Path.mark_goOn p m npc ws u0
  refine ⟨h4.only, ⟨c1, u', ?_, fun q => ?_⟩, h4.quiet⟩
  · rw [h4.after]
    simp only [hu, Ctx.after]
    simp
    rfl
  · have q' := (hs.place.trans q)
    exact (e1 q').trans (by simpa [Warp.clocked] using hclk q)

/-- What the issue of an instruction knows after its immediate effects: they have made w and p of warp and path. -/
structure Ctx.Now (c : Ctx) (s : State) (w : Warp) (p : Path) : Prop where
  moves : Moves c.s s c.ref c.w w
  path : w.path? c.slot = some p
  pc : p.pc = c.p.pc
  clk : w.loupe.lastClk = c.w.loupe.lastClk
  launch : c.s.launch? c.ref.launch = some c.l

theorem Ctx.At.now {c : Ctx} {s : State} (h : c.At s) : c.Now s c.w c.p where
  moves := by rw [h.state]; exact Moves.refl h.warp
  path := h.path
  pc := rfl
  clk := rfl
  launch := by rw [h.state]; exact h.launch

/-- An immediate effect on the warp. -/
theorem Ctx.Now.updWarp {c : Ctx} {s : State} {w : Warp} {p : Path} (h : c.Now s w p) (f : Warp → Warp)
    (hf : ∀ x, (f x).ref = x.ref) (hp : (f w).onLoupe? = w.onLoupe?) (hq : (f w).path? c.slot = some p)
    (hk : (f w).loupe.lastClk = w.loupe.lastClk) : c.Now (s.updWarp c.ref f) (f w) p where
  moves := h.moves.trans (Moves.updWarp h.moves.after f hf hp)
  path := hq
  pc := h.pc
  clk := hk.trans h.clk
  launch := h.launch

/-- An immediate effect on the path. -/
theorem Ctx.Now.updPath {c : Ctx} {s : State} {w : Warp} {p : Path} (h : c.Now s w p) (f : Path → Path)
    (hf : (f p).pc = p.pc) : c.Now (s.updPath c.ref c.slot f) (w.setPath c.slot (some (f p))) (f p) where
  moves := h.moves.trans (Moves.updPath h.moves.after h.path f)
  path := by simp
  pc := hf.trans h.pc
  clk := by simpa using h.clk
  launch := h.launch

/-- An instruction completes, its register writes outstanding: all that `complete` does. -/
theorem Ctx.complete_done {c : Ctx} {s : State} {w : Warp} {p : Path} (h : c.Now s w p) (sh : Shape) (active : LaneMask)
    (ws : List (WTarget × Word)) (npc : Word) : c.Done (c.complete s sh active ws npc) w p npc sh.m ws := by
  unfold Ctx.complete
  obtain ⟨c1, h1, e1⟩ := Moves.traceHazards c h.moves.after active sh.reads (ws.filterMap fun x => x.1.reg?)
  have h2 := h.moves.trans h1
  have hp1 : (w.clocked c1).path? c.slot = some p := by simpa using h.path
  obtain ⟨u, hu⟩ := Path.outstanding_eq p ws
  have h3 := h2.trans (Moves.updPath h2.after hp1 fun p => p.outstanding c.p.pc ws)
  rw [← h.pc] at h3
  simp only [hu] at h3
  rw [← h.pc]
  exact Ctx.done_of_retire sh.m ws h3 c1 rfl (fun q => (e1 (by simpa using h.moves.place.trans q)).trans h.clk) h.launch ..

/-- No lane of a list reads what holds an uncorrectable error. -/
theorem Ctx.softWhere_none {c : Ctx} {src : Nat → List (Nat × Nat)} {ls : List Nat}
    (h : ∀ l ∈ ls, ∀ e ∈ src l, c.softAt e = false) : c.softWhere src ls = 0 := by
  induction ls with
  | nil => rfl
  | cons l r ih =>
    have h1 : (src l).any c.softAt = false := by
      simp only [List.any_eq_false, Bool.not_eq_true]; exact h l (List.mem_cons_self ..)
    simp only [Ctx.softWhere, h1, Bool.false_eq_true, if_false]
    exact ih fun x hx => h x (List.mem_cons_of_mem _ hx)

/-- No register holds an uncorrectable error, and no INJECT is armed. -/
theorem Ctx.softAt_none {c : Ctx} (hi : c.w.inject = none) (hs : c.w.soft = []) (e : Nat × Nat) : c.softAt e = false := by
  simp [Ctx.softAt, hi, hs]

theorem Ctx.softLanes_none {c : Ctx} (hi : c.w.inject = none) (hs : c.w.soft = []) (reads : List Nat) (q : LaneMask) :
    c.softLanes reads q = 0 := Ctx.softWhere_none fun _ _ e _ => Ctx.softAt_none hi hs e

/-- The s-registers among those read are sound. -/
theorem Ctx.softScalar_sound {c : Ctx} (h : c.SoundS) (reads : List Nat) : c.softScalar reads = false := by
  simp only [Ctx.softScalar, List.any_eq_false, Bool.and_eq_true, decide_eq_true_eq, not_and, Bool.not_eq_true]
  exact fun n _ hn => h n hn

theorem Ctx.soundS_none {c : Ctx} (hi : c.w.inject = none) (hs : c.w.soft = []) : c.SoundS :=
  fun n _ => Ctx.softAt_none hi hs (n, 0)

theorem Ctx.sound_eq {c : Ctx} (h : c.SoundS) (sh : Shape) (k : State) : c.sound sh k = k := by
  simp [Ctx.sound, Ctx.softScalar_sound h]

theorem Ctx.guarded_eq {c : Ctx} (h : c.SoundS) (sh : Shape) (k : State) : c.guarded sh k = k := by
  simp [Ctx.guarded, Ctx.softScalar_sound h]

/-- A control instruction completes, its state changes made. -/
theorem Ctx.controlDone_done {c : Ctx} {s : State} {w : Warp} {p : Path} (h : c.Now s w p) (hs : c.SoundS) (sh : Shape)
    (dest : Option Nat) (npc : Word) : c.Done (c.controlDone s sh dest npc) w p npc sh.m [] := by
  unfold Ctx.controlDone
  rw [Ctx.sound_eq hs]
  obtain ⟨c1, h1, e1⟩ := Moves.traceHazards c h.moves.after c.active sh.reads dest.toList
  have h2 := h.moves.trans h1
  refine Ctx.done_of_retire (u0 := p.uncovered) sh.m [] h2 c1 ?_ (fun q => (e1 (h.moves.place.trans q)).trans h.clk)
    h.launch ..
  have hp : (w.clocked c1).path? c.slot = some p := by simpa using h.path
  simpa using (Warp.setPath_self hp).symm

@[simp] theorem Warp.commitAll_s (w : Warp) (d : Nat) (v : Word) :
    w.commitAll [(WTarget.s d, v)] =
      { w with sregs := put0 w.sregs d v, soft := w.soft.filter fun e => decide (e ≠ (256 + d, 0)) } := rfl

/-- A scalar-unit instruction completes: its register is written at once. -/
theorem Ctx.scalarDone_done {c : Ctx} {s : State} (h : c.At s) (hs : c.SoundS) (sh : Shape) (d : Field) (v npc : Word) :
    c.Scalar (c.scalarDone sh [(d.toNat, v)] npc) npc sh.m d v := by
  unfold Ctx.scalarDone Ctx.Scalar
  rw [Ctx.sound_eq hs]
  have hn := h.now
  obtain ⟨c1, h1, e1⟩ := Moves.traceHazards c hn.moves.before c.active sh.reads [256 + d.toNat]
  have h2 := h1.trans (Moves.updWarp h1.after (fun w => w.commitAll [(WTarget.s d.toNat, v)]) (fun _ => rfl) rfl)
  have h3 := h2.trans (Moves.filmed h2.after [(256 + d.toNat, c.p.pc)])
  refine Ctx.done_of_retire (u0 := c.p.uncovered) sh.m [] h3 c1 ?_ e1 hn.launch ..
  have hp : (({ c.w with
      sregs := put0 c.w.sregs d.toNat v, soft := c.w.soft.filter fun e => decide (e ≠ (256 + d.toNat, 0)) } : Warp).clocked
      c1).path? c.slot = some c.p := h.path
  have := (Warp.setPath_self hp).symm
  simp only [List.map_nil, List.append_nil]
  exact this

/-! ### The forms of an instruction's meaning -/

theorem withCtx_next {s : State} {c : Ctx} (h : s.ctx? = some c) (f : Ctx → State) : withCtx s f = .next (f c) := by
  simp [withCtx, h]

theorem scalarOp_done {s : State} {c : Ctx} (h : s.ctx? = some c) (hs : c.SoundS) (sh : Shape) (d : Field) (f : Ctx → Word) :
    ∃ t, scalarOp s sh d f = .next t ∧ c.Scalar t (c.next sh.len) sh.m d (f c) :=
  ⟨_, withCtx_next h _, Ctx.scalarDone_done (State.ctx?_at h) hs sh d (f c) _⟩

/-- An instruction that passes the checks of 03 R50 and 06 R88 runs its meaning. -/
theorem issueOp_next {s : State} {c : Ctx} (h : s.ctx? = some c) (sh : Shape) (typeOk : Ctx → Bool) (f : Ctx → State)
    (hb : sh.inBounds c.l.record.regs = true) (ht : typeOk c = true) : issueOp s sh typeOk f = .next (f c) := by
  simp [issueOp, withCtx, h, hb, ht]

/-- Lanes of which none faults, each of one word and status bits. -/
theorem overLanes_ok (d : Nat) (val : Nat → Word) (st : Nat → Nat) (ls : List Nat) :
    overLanes d (fun l => .ok [val l] (st l)) ls
      = ⟨ls.flatMap fun l => (.v d l, val l) :: if st l = 0 then [] else [(.stSet l, BitVec.ofNat 32 (st l))], []⟩ := by
  induction ls with
  | nil => rfl
  | cons l r ih => simp [overLanes, LaneRes.out, laneWrites, ih]

theorem overLanes_congr (d : Nat) {f g : Nat → LaneRes} {ls : List Nat} (h : ∀ l ∈ ls, f l = g l) :
    overLanes d f ls = overLanes d g ls := by
  induction ls with
  | nil => rfl
  | cons l r ih =>
    simp only [overLanes, h l (List.mem_cons_self ..), ih fun x hx => h x (List.mem_cons_of_mem _ hx)]

@[simp] theorem withSoft_zero (f : Nat → LaneRes) (l : Nat) : withSoft 0 f l = f l := by simp [withSoft]

/-- A lane instruction none of whose Active lanes faults: each writes its word and sets its status bits. -/
theorem laneOpWith_done {s : State} {c : Ctx} (h : s.ctx? = some c) (sh : Shape) (extra : Ctx → List Nat)
    (typeOk : Ctx → Bool) (d : Nat) (f : Ctx → Nat → LaneRes) (val : Nat → Word) (st : Nat → Nat)
    (hb : sh.inBounds c.l.record.regs = true) (ht : typeOk c = true) (hi : c.w.inject = none) (hs : c.w.soft = [])
    (hf : ∀ l ∈ lanesOf c.active, f c l = .ok [val l] (st l)) :
    ∃ t, laneOpWith s sh extra typeOk d f = .next t ∧ c.Writes t (c.next sh.len) sh.m (laneSetSt c.active d val st) := by
  refine ⟨_, issueOp_next h sh typeOk _ hb ht, ?_⟩
  simp only [Ctx.softLanes_none hi hs, Ctx.disarm, if_true, Ctx.guarded_eq (Ctx.soundS_none hi hs)]
  rw [overLanes_congr d (g := fun l => .ok [val l] (st l)) (fun l hl => by rw [withSoft_zero]; exact hf l hl), overLanes_ok]
  have hn := (State.ctx?_at h).now
  rw [← (State.ctx?_at h).state] at hn
  exact Ctx.complete_done hn { sh with reads := sh.reads ++ extra c ++ c.guardReads } c.active
    (laneSetSt c.active d val st) (c.next sh.len)

theorem laneSetSt_zero (q : LaneMask) (d : Nat) (val : Nat → Word) : laneSetSt q d val (fun _ => 0) = laneSet q d val := by
  simp only [laneSetSt, laneListSt, laneSet]
  induction lanesOf q <;> simp_all

/-- A lane instruction that writes one word per lane and never faults. -/
theorem laneWord_done {s : State} {c : Ctx} (h : s.ctx? = some c) (sh : Shape) (typeOk : Ctx → Bool) (d : Field)
    (f : Ctx → Nat → Word) (hb : sh.inBounds c.l.record.regs = true) (ht : typeOk c = true) (hi : c.w.inject = none)
    (hs : c.w.soft = []) :
    ∃ t, laneWord s sh typeOk d f = .next t ∧ c.Writes t (c.next sh.len) sh.m (laneSet c.active d.toNat (f c)) := by
  have := laneOpWith_done h sh (fun _ => []) typeOk d.toNat (fun c l => .ok [f c l] 0) (f c) (fun _ => 0) hb ht hi
    hs fun _ _ => rfl
  rwa [laneSetSt_zero] at this

end Sys2Proof.Machine
end

