-- ==== Sys2Proof/Laws/PerInstr.lean ====
section
/-! SUPPORT. A law of the encoder, instruction by instruction: bit L of the first word tells whether a literal word follows
(03 R41, R42). -/

namespace Sys2Proof.Laws

/-- 03 R41, R42: the words of an encoding are none (an event), one with L = 0, or two with L = 1. -/
def lengthMarked : List Word → Bool
  | [] => true
  | [w] => !fieldL w
  | [w, _] => fieldL w
  | _ => false

theorem getLsbD_append_ofBool (n : Nat) (x : BitVec n) (l : Bool) : (x ++ BitVec.ofBool l).getLsbD 0 = l := by
  rw [BitVec.getLsbD_append]; cases l <;> simp

theorem fieldL_wordR (m : Bool) (op : BitVec 9) (d a b : Field) (l : Bool) : fieldL (wordR m op d a b l) = l :=
  getLsbD_append_ofBool _ _ l

theorem lengthMarked_encB (m : Bool) (op : BitVec 9) (d a : Field) (b : Src) : lengthMarked (encB m op d a b) = true := by
  cases b <;> simp [encB, lengthMarked, fieldL_wordR]

theorem lengthMarked_encN (m : Bool) (op : BitVec 9) (d a : Field) : lengthMarked (encN m op d a) = true := by
  simp [encN, lengthMarked, fieldL_wordR]

theorem lengthMarked_encL (m : Bool) (op : BitVec 9) (d a : Field) (w : Word) : lengthMarked (encL m op d a w) = true := by
  simp [encL, lengthMarked, fieldL_wordR]

/-- The statement of the family: the encoding of the instruction marks its own length. -/
def WordCount.Statement (i : Instr) : Prop := lengthMarked (encode i) = true

theorem WordCount.sadd : ∀ m d a b, WordCount.Statement (.sadd m d a b) := fun _ _ _ _ => lengthMarked_encB _ _ _ _ _
theorem WordCount.ssub : ∀ m d a b, WordCount.Statement (.ssub m d a b) := fun _ _ _ _ => lengthMarked_encB _ _ _ _ _
theorem WordCount.smul : ∀ m d a b, WordCount.Statement (.smul m d a b) := fun _ _ _ _ => lengthMarked_encB _ _ _ _ _
theorem WordCount.smulh : ∀ m d a b, WordCount.Statement (.smulh m d a b) := fun _ _ _ _ => lengthMarked_encB _ _ _ _ _
theorem WordCount.smulhn : ∀ m d a b, WordCount.Statement (.smulhn m d a b) := fun _ _ _ _ => lengthMarked_encB _ _ _ _ _
theorem WordCount.sdiv : ∀ m d a b, WordCount.Statement (.sdiv m d a b) := fun _ _ _ _ => lengthMarked_encB _ _ _ _ _
theorem WordCount.sdivn : ∀ m d a b, WordCount.Statement (.sdivn m d a b) := fun _ _ _ _ => lengthMarked_encB _ _ _ _ _
theorem WordCount.srem : ∀ m d a b, WordCount.Statement (.srem m d a b) := fun _ _ _ _ => lengthMarked_encB _ _ _ _ _
theorem WordCount.sremn : ∀ m d a b, WordCount.Statement (.sremn m d a b) := fun _ _ _ _ => lengthMarked_encB _ _ _ _ _
theorem WordCount.sand : ∀ m d a b, WordCount.Statement (.sand m d a b) := fun _ _ _ _ => lengthMarked_encB _ _ _ _ _
theorem WordCount.sor : ∀ m d a b, WordCount.Statement (.sor m d a b) := fun _ _ _ _ => lengthMarked_encB _ _ _ _ _
theorem WordCount.sxor : ∀ m d a b, WordCount.Statement (.sxor m d a b) := fun _ _ _ _ => lengthMarked_encB _ _ _ _ _
theorem WordCount.sandn : ∀ m d a b, WordCount.Statement (.sandn m d a b) := fun _ _ _ _ => lengthMarked_encB _ _ _ _ _
theorem WordCount.sshl : ∀ m d a b, WordCount.Statement (.sshl m d a b) := fun _ _ _ _ => lengthMarked_encB _ _ _ _ _
theorem WordCount.sshr : ∀ m d a b, WordCount.Statement (.sshr m d a b) := fun _ _ _ _ => lengthMarked_encB _ _ _ _ _
theorem WordCount.ssra : ∀ m d a b, WordCount.Statement (.ssra m d a b) := fun _ _ _ _ => lengthMarked_encB _ _ _ _ _
theorem WordCount.smin : ∀ m d a b, WordCount.Statement (.smin m d a b) := fun _ _ _ _ => lengthMarked_encB _ _ _ _ _
theorem WordCount.smax : ∀ m d a b, WordCount.Statement (.smax m d a b) := fun _ _ _ _ => lengthMarked_encB _ _ _ _ _
theorem WordCount.sminn : ∀ m d a b, WordCount.Statement (.sminn m d a b) := fun _ _ _ _ => lengthMarked_encB _ _ _ _ _
theorem WordCount.smaxn : ∀ m d a b, WordCount.Statement (.smaxn m d a b) := fun _ _ _ _ => lengthMarked_encB _ _ _ _ _
theorem WordCount.spopc : ∀ m d a, WordCount.Statement (.spopc m d a) := fun _ _ _ => lengthMarked_encN _ _ _ _
theorem WordCount.sclz : ∀ m d a, WordCount.Statement (.sclz m d a) := fun _ _ _ => lengthMarked_encN _ _ _ _
theorem WordCount.sbrev : ∀ m d a, WordCount.Statement (.sbrev m d a) := fun _ _ _ => lengthMarked_encN _ _ _ _
theorem WordCount.sbfx : ∀ m d a b, WordCount.Statement (.sbfx m d a b) := fun _ _ _ _ => lengthMarked_encB _ _ _ _ _
theorem WordCount.sbfi : ∀ m d a b, WordCount.Statement (.sbfi m d a b) := fun _ _ _ _ => lengthMarked_encB _ _ _ _ _
theorem WordCount.sceq : ∀ m d a b, WordCount.Statement (.sceq m d a b) := fun _ _ _ _ => lengthMarked_encB _ _ _ _ _
theorem WordCount.scne : ∀ m d a b, WordCount.Statement (.scne m d a b) := fun _ _ _ _ => lengthMarked_encB _ _ _ _ _
theorem WordCount.sclt : ∀ m d a b, WordCount.Statement (.sclt m d a b) := fun _ _ _ _ => lengthMarked_encB _ _ _ _ _
theorem WordCount.scle : ∀ m d a b, WordCount.Statement (.scle m d a b) := fun _ _ _ _ => lengthMarked_encB _ _ _ _ _
theorem WordCount.scltn : ∀ m d a b, WordCount.Statement (.scltn m d a b) := fun _ _ _ _ => lengthMarked_encB _ _ _ _ _
theorem WordCount.sclen : ∀ m d a b, WordCount.Statement (.sclen m d a b) := fun _ _ _ _ => lengthMarked_encB _ _ _ _ _
theorem WordCount.nop : ∀ m, WordCount.Statement (.nop m) := fun _ => lengthMarked_encN _ _ _ _
theorem WordCount.bra : ∀ m lit, WordCount.Statement (.bra m lit) := fun _ _ => lengthMarked_encL _ _ _ _ _
theorem WordCount.bz : ∀ m a lit, WordCount.Statement (.bz m a lit) := fun _ _ _ => lengthMarked_encL _ _ _ _ _
theorem WordCount.bnz : ∀ m a lit, WordCount.Statement (.bnz m a lit) := fun _ _ _ => lengthMarked_encL _ _ _ _ _
theorem WordCount.brd : ∀ m d a lit, WordCount.Statement (.brd m d a lit) := fun _ _ _ _ => lengthMarked_encL _ _ _ _ _
theorem WordCount.join : ∀ m a, WordCount.Statement (.join m a) := fun _ _ => lengthMarked_encN _ _ _ _
theorem WordCount.call : ∀ m d lit, WordCount.Statement (.call m d lit) := fun _ _ _ => lengthMarked_encL _ _ _ _ _
theorem WordCount.ret : ∀ m a, WordCount.Statement (.ret m a) := fun _ _ => lengthMarked_encN _ _ _ _
theorem WordCount.brx : ∀ m a, WordCount.Statement (.brx m a) := fun _ _ => lengthMarked_encN _ _ _ _
theorem WordCount.loop : ∀ m d lit, WordCount.Statement (.loop m d lit) := fun _ _ _ => lengthMarked_encL _ _ _ _ _
theorem WordCount.exit : ∀ m, WordCount.Statement (.exit m) := fun _ => lengthMarked_encN _ _ _ _
theorem WordCount.setmode : ∀ m b, WordCount.Statement (.setmode m b) := fun _ _ => lengthMarked_encB _ _ _ _ _
theorem WordCount.getmode : ∀ m d, WordCount.Statement (.getmode m d) := fun _ _ => lengthMarked_encN _ _ _ _
theorem WordCount.setix : ∀ m b, WordCount.Statement (.setix m b) := fun _ _ => lengthMarked_encB _ _ _ _ _
theorem WordCount.waitf : ∀ m d a lit, WordCount.Statement (.waitf m d a lit) := fun _ _ _ _ => lengthMarked_encL _ _ _ _ _
theorem WordCount.yield : ∀ m, WordCount.Statement (.yield m) := fun _ => lengthMarked_encN _ _ _ _
theorem WordCount.smov : ∀ m d b, WordCount.Statement (.smov m d b) := fun _ _ _ => lengthMarked_encB _ _ _ _ _
theorem WordCount.ssel : ∀ m d a b, WordCount.Statement (.ssel m d a b) := fun _ _ _ _ => lengthMarked_encB _ _ _ _ _
theorem WordCount.sffs : ∀ m d a, WordCount.Statement (.sffs m d a) := fun _ _ _ => lengthMarked_encN _ _ _ _
theorem WordCount.vadd : ∀ m d a b, WordCount.Statement (.vadd m d a b) := fun _ _ _ _ => lengthMarked_encB _ _ _ _ _
theorem WordCount.vsub : ∀ m d a b, WordCount.Statement (.vsub m d a b) := fun _ _ _ _ => lengthMarked_encB _ _ _ _ _
theorem WordCount.vmul : ∀ m d a b, WordCount.Statement (.vmul m d a b) := fun _ _ _ _ => lengthMarked_encB _ _ _ _ _
theorem WordCount.vmulh : ∀ m d a b, WordCount.Statement (.vmulh m d a b) := fun _ _ _ _ => lengthMarked_encB _ _ _ _ _
theorem WordCount.vmulhn : ∀ m d a b, WordCount.Statement (.vmulhn m d a b) := fun _ _ _ _ => lengthMarked_encB _ _ _ _ _
theorem WordCount.vmad : ∀ m d a b, WordCount.Statement (.vmad m d a b) := fun _ _ _ _ => lengthMarked_encB _ _ _ _ _
theorem WordCount.vdiv : ∀ m d a b, WordCount.Statement (.vdiv m d a b) := fun _ _ _ _ => lengthMarked_encB _ _ _ _ _
theorem WordCount.vdivn : ∀ m d a b, WordCount.Statement (.vdivn m d a b) := fun _ _ _ _ => lengthMarked_encB _ _ _ _ _
theorem WordCount.vrem : ∀ m d a b, WordCount.Statement (.vrem m d a b) := fun _ _ _ _ => lengthMarked_encB _ _ _ _ _
theorem WordCount.vremn : ∀ m d a b, WordCount.Statement (.vremn m d a b) := fun _ _ _ _ => lengthMarked_encB _ _ _ _ _
theorem WordCount.vand : ∀ m d a b, WordCount.Statement (.vand m d a b) := fun _ _ _ _ => lengthMarked_encB _ _ _ _ _
theorem WordCount.vor : ∀ m d a b, WordCount.Statement (.vor m d a b) := fun _ _ _ _ => lengthMarked_encB _ _ _ _ _
theorem WordCount.vxor : ∀ m d a b, WordCount.Statement (.vxor m d a b) := fun _ _ _ _ => lengthMarked_encB _ _ _ _ _
theorem WordCount.vandn : ∀ m d a b, WordCount.Statement (.vandn m d a b) := fun _ _ _ _ => lengthMarked_encB _ _ _ _ _
theorem WordCount.vshl : ∀ m d a b, WordCount.Statement (.vshl m d a b) := fun _ _ _ _ => lengthMarked_encB _ _ _ _ _
theorem WordCount.vshr : ∀ m d a b, WordCount.Statement (.vshr m d a b) := fun _ _ _ _ => lengthMarked_encB _ _ _ _ _
theorem WordCount.vsra : ∀ m d a b, WordCount.Statement (.vsra m d a b) := fun _ _ _ _ => lengthMarked_encB _ _ _ _ _
theorem WordCount.vmin : ∀ m d a b, WordCount.Statement (.vmin m d a b) := fun _ _ _ _ => lengthMarked_encB _ _ _ _ _
theorem WordCount.vmax : ∀ m d a b, WordCount.Statement (.vmax m d a b) := fun _ _ _ _ => lengthMarked_encB _ _ _ _ _
theorem WordCount.vminn : ∀ m d a b, WordCount.Statement (.vminn m d a b) := fun _ _ _ _ => lengthMarked_encB _ _ _ _ _
theorem WordCount.vmaxn : ∀ m d a b, WordCount.Statement (.vmaxn m d a b) := fun _ _ _ _ => lengthMarked_encB _ _ _ _ _
theorem WordCount.vabs : ∀ m d a, WordCount.Statement (.vabs m d a) := fun _ _ _ => lengthMarked_encN _ _ _ _
theorem WordCount.vneg : ∀ m d a, WordCount.Statement (.vneg m d a) := fun _ _ _ => lengthMarked_encN _ _ _ _
theorem WordCount.vpopc : ∀ m d a, WordCount.Statement (.vpopc m d a) := fun _ _ _ => lengthMarked_encN _ _ _ _
theorem WordCount.vclz : ∀ m d a, WordCount.Statement (.vclz m d a) := fun _ _ _ => lengthMarked_encN _ _ _ _
theorem WordCount.vbrev : ∀ m d a, WordCount.Statement (.vbrev m d a) := fun _ _ _ => lengthMarked_encN _ _ _ _
theorem WordCount.vbfx : ∀ m d a b, WordCount.Statement (.vbfx m d a b) := fun _ _ _ _ => lengthMarked_encB _ _ _ _ _
theorem WordCount.vbfi : ∀ m d a b, WordCount.Statement (.vbfi m d a b) := fun _ _ _ _ => lengthMarked_encB _ _ _ _ _
theorem WordCount.vmov : ∀ m d b, WordCount.Statement (.vmov m d b) := fun _ _ _ => lengthMarked_encB _ _ _ _ _
theorem WordCount.vsplat : ∀ m d a, WordCount.Statement (.vsplat m d a) := fun _ _ _ => lengthMarked_encN _ _ _ _
theorem WordCount.vget : ∀ m d a, WordCount.Statement (.vget m d a) := fun _ _ _ => lengthMarked_encN _ _ _ _
theorem WordCount.vceq : ∀ m d a b, WordCount.Statement (.vceq m d a b) := fun _ _ _ _ => lengthMarked_encB _ _ _ _ _
theorem WordCount.vcne : ∀ m d a b, WordCount.Statement (.vcne m d a b) := fun _ _ _ _ => lengthMarked_encB _ _ _ _ _
theorem WordCount.vclt : ∀ m d a b, WordCount.Statement (.vclt m d a b) := fun _ _ _ _ => lengthMarked_encB _ _ _ _ _
theorem WordCount.vcle : ∀ m d a b, WordCount.Statement (.vcle m d a b) := fun _ _ _ _ => lengthMarked_encB _ _ _ _ _
theorem WordCount.vgetst : ∀ m d, WordCount.Statement (.vgetst m d) := fun _ _ => lengthMarked_encN _ _ _ _
theorem WordCount.vclrst : ∀ m b, WordCount.Statement (.vclrst m b) := fun _ _ => lengthMarked_encB _ _ _ _ _
theorem WordCount.vfadd : ∀ m d a b, WordCount.Statement (.vfadd m d a b) := fun _ _ _ _ => lengthMarked_encB _ _ _ _ _
theorem WordCount.vfsub : ∀ m d a b, WordCount.Statement (.vfsub m d a b) := fun _ _ _ _ => lengthMarked_encB _ _ _ _ _
theorem WordCount.vfmul : ∀ m d a b, WordCount.Statement (.vfmul m d a b) := fun _ _ _ _ => lengthMarked_encB _ _ _ _ _
theorem WordCount.vfma : ∀ m d a b, WordCount.Statement (.vfma m d a b) := fun _ _ _ _ => lengthMarked_encB _ _ _ _ _
theorem WordCount.vfms : ∀ m d a b, WordCount.Statement (.vfms m d a b) := fun _ _ _ _ => lengthMarked_encB _ _ _ _ _
theorem WordCount.vfnma : ∀ m d a b, WordCount.Statement (.vfnma m d a b) := fun _ _ _ _ => lengthMarked_encB _ _ _ _ _
theorem WordCount.vfmin : ∀ m d a b, WordCount.Statement (.vfmin m d a b) := fun _ _ _ _ => lengthMarked_encB _ _ _ _ _
theorem WordCount.vfmax : ∀ m d a b, WordCount.Statement (.vfmax m d a b) := fun _ _ _ _ => lengthMarked_encB _ _ _ _ _
theorem WordCount.vfabs : ∀ m d a, WordCount.Statement (.vfabs m d a) := fun _ _ _ => lengthMarked_encN _ _ _ _
theorem WordCount.vfneg : ∀ m d a, WordCount.Statement (.vfneg m d a) := fun _ _ _ => lengthMarked_encN _ _ _ _
theorem WordCount.vfcpsgn : ∀ m d a b, WordCount.Statement (.vfcpsgn m d a b) := fun _ _ _ _ => lengthMarked_encB _ _ _ _ _
theorem WordCount.vfceq : ∀ m d a b, WordCount.Statement (.vfceq m d a b) := fun _ _ _ _ => lengthMarked_encB _ _ _ _ _
theorem WordCount.vfclt : ∀ m d a b, WordCount.Statement (.vfclt m d a b) := fun _ _ _ _ => lengthMarked_encB _ _ _ _ _
theorem WordCount.vfcle : ∀ m d a b, WordCount.Statement (.vfcle m d a b) := fun _ _ _ _ => lengthMarked_encB _ _ _ _ _
theorem WordCount.vfcun : ∀ m d a b, WordCount.Statement (.vfcun m d a b) := fun _ _ _ _ => lengthMarked_encB _ _ _ _ _
theorem WordCount.vfclass : ∀ m d a, WordCount.Statement (.vfclass m d a) := fun _ _ _ => lengthMarked_encN _ _ _ _
theorem WordCount.vfdiv : ∀ m d a b, WordCount.Statement (.vfdiv m d a b) := fun _ _ _ _ => lengthMarked_encB _ _ _ _ _
theorem WordCount.vfsqrt : ∀ m d a, WordCount.Statement (.vfsqrt m d a) := fun _ _ _ => lengthMarked_encN _ _ _ _
theorem WordCount.vfrint : ∀ m d a, WordCount.Statement (.vfrint m d a) := fun _ _ _ => lengthMarked_encN _ _ _ _
theorem WordCount.vfrcp : ∀ m d a, WordCount.Statement (.vfrcp m d a) := fun _ _ _ => lengthMarked_encN _ _ _ _
theorem WordCount.vfrsq : ∀ m d a, WordCount.Statement (.vfrsq m d a) := fun _ _ _ => lengthMarked_encN _ _ _ _
theorem WordCount.vfexp2 : ∀ m d a, WordCount.Statement (.vfexp2 m d a) := fun _ _ _ => lengthMarked_encN _ _ _ _
theorem WordCount.vflog2 : ∀ m d a, WordCount.Statement (.vflog2 m d a) := fun _ _ _ => lengthMarked_encN _ _ _ _
theorem WordCount.vfsinpi : ∀ m d a, WordCount.Statement (.vfsinpi m d a) := fun _ _ _ => lengthMarked_encN _ _ _ _
theorem WordCount.vfcospi : ∀ m d a, WordCount.Statement (.vfcospi m d a) := fun _ _ _ => lengthMarked_encN _ _ _ _
theorem WordCount.vftanh : ∀ m d a, WordCount.Statement (.vftanh m d a) := fun _ _ _ => lengthMarked_encN _ _ _ _
theorem WordCount.vdot4 : ∀ m d a b, WordCount.Statement (.vdot4 m d a b) := fun _ _ _ _ => lengthMarked_encB _ _ _ _ _
theorem WordCount.vdot4m : ∀ m d a b, WordCount.Statement (.vdot4m m d a b) := fun _ _ _ _ => lengthMarked_encB _ _ _ _ _
theorem WordCount.vdot8 : ∀ m d a b, WordCount.Statement (.vdot8 m d a b) := fun _ _ _ _ => lengthMarked_encB _ _ _ _ _
theorem WordCount.vfdot4 : ∀ m d a b, WordCount.Statement (.vfdot4 m d a b) := fun _ _ _ _ => lengthMarked_encB _ _ _ _ _
theorem WordCount.vfdot8 : ∀ m d a b, WordCount.Statement (.vfdot8 m d a b) := fun _ _ _ _ => lengthMarked_encB _ _ _ _ _
theorem WordCount.vunp5 : ∀ m d a lit, WordCount.Statement (.vunp5 m d a lit) := fun _ _ _ _ => lengthMarked_encL _ _ _ _ _
theorem WordCount.vcvtw : ∀ m d a lit, WordCount.Statement (.vcvtw m d a lit) := fun _ _ _ _ => lengthMarked_encL _ _ _ _ _
theorem WordCount.vcvtn : ∀ m d a lit, WordCount.Statement (.vcvtn m d a lit) := fun _ _ _ _ => lengthMarked_encL _ _ _ _ _
theorem WordCount.vcvtfi : ∀ m d a lit, WordCount.Statement (.vcvtfi m d a lit) := fun _ _ _ _ => lengthMarked_encL _ _ _ _ _
theorem WordCount.vcvtif : ∀ m d a lit, WordCount.Statement (.vcvtif m d a lit) := fun _ _ _ _ => lengthMarked_encL _ _ _ _ _
theorem WordCount.vshup : ∀ m d a b, WordCount.Statement (.vshup m d a b) := fun _ _ _ _ => lengthMarked_encB _ _ _ _ _
theorem WordCount.vshdn : ∀ m d a b, WordCount.Statement (.vshdn m d a b) := fun _ _ _ _ => lengthMarked_encB _ _ _ _ _
theorem WordCount.vshxor : ∀ m d a b, WordCount.Statement (.vshxor m d a b) := fun _ _ _ _ => lengthMarked_encB _ _ _ _ _
theorem WordCount.vshidx : ∀ m d a b, WordCount.Statement (.vshidx m d a b) := fun _ _ _ _ => lengthMarked_encB _ _ _ _ _
theorem WordCount.vqswap : ∀ m d a b, WordCount.Statement (.vqswap m d a b) := fun _ _ _ _ => lengthMarked_encB _ _ _ _ _
theorem WordCount.vred : ∀ m d a lit, WordCount.Statement (.vred m d a lit) := fun _ _ _ _ => lengthMarked_encL _ _ _ _ _
theorem WordCount.vscan : ∀ m d a lit, WordCount.Statement (.vscan m d a lit) := fun _ _ _ _ => lengthMarked_encL _ _ _ _ _
theorem WordCount.vreadl : ∀ m d a b, WordCount.Statement (.vreadl m d a b) := fun _ _ _ _ => lengthMarked_encB _ _ _ _ _
theorem WordCount.vwritel : ∀ m d a b, WordCount.Statement (.vwritel m d a b) := fun _ _ _ _ => lengthMarked_encB _ _ _ _ _
theorem WordCount.vvote : ∀ m d a lit, WordCount.Statement (.vvote m d a lit) := fun _ _ _ _ => lengthMarked_encL _ _ _ _ _
theorem WordCount.vmatch : ∀ m d a, WordCount.Statement (.vmatch m d a) := fun _ _ _ => lengthMarked_encN _ _ _ _
theorem WordCount.vmovx : ∀ m d a, WordCount.Statement (.vmovx m d a) := fun _ _ _ => lengthMarked_encN _ _ _ _
theorem WordCount.vmovxw : ∀ m d a, WordCount.Statement (.vmovxw m d a) := fun _ _ _ => lengthMarked_encN _ _ _ _
theorem WordCount.bar : ∀ m d, WordCount.Statement (.bar m d) := fun _ _ => lengthMarked_encN _ _ _ _
theorem WordCount.bara : ∀ m d, WordCount.Statement (.bara m d) := fun _ _ => lengthMarked_encN _ _ _ _
theorem WordCount.barw : ∀ m d, WordCount.Statement (.barw m d) := fun _ _ => lengthMarked_encN _ _ _ _
theorem WordCount.barc : ∀ m, WordCount.Statement (.barc m) := fun _ => lengthMarked_encN _ _ _ _
theorem WordCount.barp : ∀ m, WordCount.Statement (.barp m) := fun _ => lengthMarked_encN _ _ _ _
theorem WordCount.ld8 : ∀ m d a b, WordCount.Statement (.ld8 m d a b) := fun _ _ _ _ => lengthMarked_encB _ _ _ _ _
theorem WordCount.ld8s : ∀ m d a b, WordCount.Statement (.ld8s m d a b) := fun _ _ _ _ => lengthMarked_encB _ _ _ _ _
theorem WordCount.ld16 : ∀ m d a b, WordCount.Statement (.ld16 m d a b) := fun _ _ _ _ => lengthMarked_encB _ _ _ _ _
theorem WordCount.ld16s : ∀ m d a b, WordCount.Statement (.ld16s m d a b) := fun _ _ _ _ => lengthMarked_encB _ _ _ _ _
theorem WordCount.ld32 : ∀ m d a b, WordCount.Statement (.ld32 m d a b) := fun _ _ _ _ => lengthMarked_encB _ _ _ _ _
theorem WordCount.ld64 : ∀ m d a b, WordCount.Statement (.ld64 m d a b) := fun _ _ _ _ => lengthMarked_encB _ _ _ _ _
theorem WordCount.ld128 : ∀ m d a b, WordCount.Statement (.ld128 m d a b) := fun _ _ _ _ => lengthMarked_encB _ _ _ _ _
theorem WordCount.st8 : ∀ m d a b, WordCount.Statement (.st8 m d a b) := fun _ _ _ _ => lengthMarked_encB _ _ _ _ _
theorem WordCount.st16 : ∀ m d a b, WordCount.Statement (.st16 m d a b) := fun _ _ _ _ => lengthMarked_encB _ _ _ _ _
theorem WordCount.st32 : ∀ m d a b, WordCount.Statement (.st32 m d a b) := fun _ _ _ _ => lengthMarked_encB _ _ _ _ _
theorem WordCount.st64 : ∀ m d a b, WordCount.Statement (.st64 m d a b) := fun _ _ _ _ => lengthMarked_encB _ _ _ _ _
theorem WordCount.st128 : ∀ m d a b, WordCount.Statement (.st128 m d a b) := fun _ _ _ _ => lengthMarked_encB _ _ _ _ _
theorem WordCount.sld32 : ∀ m d a b, WordCount.Statement (.sld32 m d a b) := fun _ _ _ _ => lengthMarked_encB _ _ _ _ _
theorem WordCount.sld64 : ∀ m d a b, WordCount.Statement (.sld64 m d a b) := fun _ _ _ _ => lengthMarked_encB _ _ _ _ _
theorem WordCount.sst32 : ∀ m d a b, WordCount.Statement (.sst32 m d a b) := fun _ _ _ _ => lengthMarked_encB _ _ _ _ _
theorem WordCount.sst64 : ∀ m d a b, WordCount.Statement (.sst64 m d a b) := fun _ _ _ _ => lengthMarked_encB _ _ _ _ _
theorem WordCount.vspill : ∀ m a, WordCount.Statement (.vspill m a) := fun _ _ => lengthMarked_encN _ _ _ _
theorem WordCount.vfill : ∀ m d, WordCount.Statement (.vfill m d) := fun _ _ => lengthMarked_encN _ _ _ _
theorem WordCount.ldacq32 : ∀ m d a b, WordCount.Statement (.ldacq32 m d a b) := fun _ _ _ _ => lengthMarked_encB _ _ _ _ _
theorem WordCount.strel32 : ∀ m d a b, WordCount.Statement (.strel32 m d a b) := fun _ _ _ _ => lengthMarked_encB _ _ _ _ _
theorem WordCount.aadd : ∀ m d a b, WordCount.Statement (.aadd m d a b) := fun _ _ _ _ => lengthMarked_encB _ _ _ _ _
theorem WordCount.aand : ∀ m d a b, WordCount.Statement (.aand m d a b) := fun _ _ _ _ => lengthMarked_encB _ _ _ _ _
theorem WordCount.aor : ∀ m d a b, WordCount.Statement (.aor m d a b) := fun _ _ _ _ => lengthMarked_encB _ _ _ _ _
theorem WordCount.axor : ∀ m d a b, WordCount.Statement (.axor m d a b) := fun _ _ _ _ => lengthMarked_encB _ _ _ _ _
theorem WordCount.amin : ∀ m d a b, WordCount.Statement (.amin m d a b) := fun _ _ _ _ => lengthMarked_encB _ _ _ _ _
theorem WordCount.amax : ∀ m d a b, WordCount.Statement (.amax m d a b) := fun _ _ _ _ => lengthMarked_encB _ _ _ _ _
theorem WordCount.aminn : ∀ m d a b, WordCount.Statement (.aminn m d a b) := fun _ _ _ _ => lengthMarked_encB _ _ _ _ _
theorem WordCount.amaxn : ∀ m d a b, WordCount.Statement (.amaxn m d a b) := fun _ _ _ _ => lengthMarked_encB _ _ _ _ _
theorem WordCount.aexch : ∀ m d a b, WordCount.Statement (.aexch m d a b) := fun _ _ _ _ => lengthMarked_encB _ _ _ _ _
theorem WordCount.acas : ∀ m d a b, WordCount.Statement (.acas m d a b) := fun _ _ _ _ => lengthMarked_encB _ _ _ _ _
theorem WordCount.afadd : ∀ m d a b, WordCount.Statement (.afadd m d a b) := fun _ _ _ _ => lengthMarked_encB _ _ _ _ _
theorem WordCount.afmin : ∀ m d a b, WordCount.Statement (.afmin m d a b) := fun _ _ _ _ => lengthMarked_encB _ _ _ _ _
theorem WordCount.afmax : ∀ m d a b, WordCount.Statement (.afmax m d a b) := fun _ _ _ _ => lengthMarked_encB _ _ _ _ _
theorem WordCount.redadd : ∀ m a b, WordCount.Statement (.redadd m a b) := fun _ _ _ => lengthMarked_encB _ _ _ _ _
theorem WordCount.redand : ∀ m a b, WordCount.Statement (.redand m a b) := fun _ _ _ => lengthMarked_encB _ _ _ _ _
theorem WordCount.redor : ∀ m a b, WordCount.Statement (.redor m a b) := fun _ _ _ => lengthMarked_encB _ _ _ _ _
theorem WordCount.redxor : ∀ m a b, WordCount.Statement (.redxor m a b) := fun _ _ _ => lengthMarked_encB _ _ _ _ _
theorem WordCount.redmin : ∀ m a b, WordCount.Statement (.redmin m a b) := fun _ _ _ => lengthMarked_encB _ _ _ _ _
theorem WordCount.redmax : ∀ m a b, WordCount.Statement (.redmax m a b) := fun _ _ _ => lengthMarked_encB _ _ _ _ _
theorem WordCount.redfadd : ∀ m a b, WordCount.Statement (.redfadd m a b) := fun _ _ _ => lengthMarked_encB _ _ _ _ _
theorem WordCount.fence : ∀ m, WordCount.Statement (.fence m) := fun _ => lengthMarked_encN _ _ _ _
theorem WordCount.publish : ∀ m b, WordCount.Statement (.publish m b) := fun _ _ => lengthMarked_encB _ _ _ _ _
theorem WordCount.ecw : ∀ m d a, WordCount.Statement (.ecw m d a) := fun _ _ _ => lengthMarked_encN _ _ _ _
theorem WordCount.ego : ∀ m d, WordCount.Statement (.ego m d) := fun _ _ => lengthMarked_encN _ _ _ _
theorem WordCount.bclose : ∀ m d, WordCount.Statement (.bclose m d) := fun _ _ => lengthMarked_encN _ _ _ _
theorem WordCount.waitb : ∀ m b, WordCount.Statement (.waitb m b) := fun _ _ => lengthMarked_encB _ _ _ _ _
theorem WordCount.bpoll : ∀ m d b, WordCount.Statement (.bpoll m d b) := fun _ _ _ => lengthMarked_encB _ _ _ _ _
theorem WordCount.mloadb : ∀ m d a, WordCount.Statement (.mloadb m d a) := fun _ _ _ => lengthMarked_encN _ _ _ _
theorem WordCount.mma : ∀ m acc adesc fslot shape fvec, WordCount.Statement (.mma m acc adesc fslot shape fvec) := fun _ _ _ _ _ _ => congrArg not (getLsbD_append_ofBool _ _ false)
theorem WordCount.mdrain : ∀ m d a b, WordCount.Statement (.mdrain m d a b) := fun _ _ _ _ => lengthMarked_encB _ _ _ _ _
theorem WordCount.mzero : ∀ m d, WordCount.Statement (.mzero m d) := fun _ _ => lengthMarked_encN _ _ _ _
theorem WordCount.spinit : ∀ m a, WordCount.Statement (.spinit m a) := fun _ _ => lengthMarked_encN _ _ _ _
theorem WordCount.unite : ∀ m d a b, WordCount.Statement (.unite m d a b) := fun _ _ _ _ => lengthMarked_encB _ _ _ _ _
theorem WordCount.find : ∀ m d a, WordCount.Statement (.find m d a) := fun _ _ _ => lengthMarked_encN _ _ _ _
theorem WordCount.csize : ∀ m d a, WordCount.Statement (.csize m d a) := fun _ _ _ => lengthMarked_encN _ _ _ _
theorem WordCount.relab : ∀ m a, WordCount.Statement (.relab m a) := fun _ _ => lengthMarked_encN _ _ _ _
theorem WordCount.snap : ∀ m d, WordCount.Statement (.snap m d) := fun _ _ => lengthMarked_encN _ _ _ _
theorem WordCount.undo : ∀ m b, WordCount.Statement (.undo m b) := fun _ _ => lengthMarked_encB _ _ _ _ _
theorem WordCount.trap : ∀ m b, WordCount.Statement (.trap m b) := fun _ _ => lengthMarked_encB _ _ _ _ _
theorem WordCount.resume : ∀ m d a, WordCount.Statement (.resume m d a) := fun _ _ _ => lengthMarked_encN _ _ _ _
theorem WordCount.loupe : ∀ m, WordCount.Statement (.loupe m) := fun _ => lengthMarked_encN _ _ _ _
theorem WordCount.prgn : ∀ m d, WordCount.Statement (.prgn m d) := fun _ _ => lengthMarked_encN _ _ _ _
theorem WordCount.prgx : ∀ m, WordCount.Statement (.prgx m) := fun _ => lengthMarked_encN _ _ _ _
theorem WordCount.sget : ∀ m d a, WordCount.Statement (.sget m d a) := fun _ _ _ => lengthMarked_encN _ _ _ _
theorem WordCount.sset : ∀ m d b, WordCount.Statement (.sset m d b) := fun _ _ _ => lengthMarked_encB _ _ _ _ _
theorem WordCount.dbgbrk : ∀ m, WordCount.Statement (.dbgbrk m) := fun _ => lengthMarked_encN _ _ _ _
theorem WordCount.selftest : ∀ m d b, WordCount.Statement (.selftest m d b) := fun _ _ _ => lengthMarked_encB _ _ _ _ _
theorem WordCount.framend : ∀ m, WordCount.Statement (.framend m) := fun _ => lengthMarked_encN _ _ _ _
theorem WordCount.writeLanding : ∀ w slot k, WordCount.Statement (.writeLanding w slot k) := fun _ _ _ => rfl
theorem WordCount.pathStarvation : ∀ w slot, WordCount.Statement (.pathStarvation w slot) := fun _ _ => rfl
theorem WordCount.fenceComplete : ∀ w slot, WordCount.Statement (.fenceComplete w slot) := fun _ _ => rfl
theorem WordCount.waitfWake : ∀ w slot, WordCount.Statement (.waitfWake w slot) := fun _ _ => rfl
theorem WordCount.waitfTimeout : ∀ w slot, WordCount.Statement (.waitfTimeout w slot) := fun _ _ => rfl
theorem WordCount.yieldExpiry : ∀ w slot, WordCount.Statement (.yieldExpiry w slot) := fun _ _ => rfl
theorem WordCount.publishComplete : ∀ w slot, WordCount.Statement (.publishComplete w slot) := fun _ _ => rfl
theorem WordCount.frameCommit : ∀ launch block, WordCount.Statement (.frameCommit launch block) := fun _ _ => rfl
theorem WordCount.batchCompletion : ∀ w, WordCount.Statement (.batchCompletion w) := fun _ => rfl
theorem WordCount.copyEngineCompletion : ∀ op, WordCount.Statement (.copyEngineCompletion op) := fun _ => rfl
theorem WordCount.mainMemoryAtomicCompletion : ∀ op, WordCount.Statement (.mainMemoryAtomicCompletion op) := fun _ => rfl
theorem WordCount.stationaryLoadCompletion : ∀ op, WordCount.Statement (.stationaryLoadCompletion op) := fun _ => rfl
theorem WordCount.mrtGrant : ∀ die site, WordCount.Statement (.mrtGrant die site) := fun _ _ => rfl
theorem WordCount.passCompletion : ∀ die site pass, WordCount.Statement (.passCompletion die site pass) := fun _ _ _ => rfl
theorem WordCount.filterEntryRead : ∀ op, WordCount.Statement (.filterEntryRead op) := fun _ => rfl
theorem WordCount.filterSliceArrival : ∀ op row k, WordCount.Statement (.filterSliceArrival op row k) := fun _ _ _ => rfl
theorem WordCount.stripOperationCompletion : ∀ op, WordCount.Statement (.stripOperationCompletion op) := fun _ => rfl
theorem WordCount.bankPeriodicCheck : ∀ die site wrong, WordCount.Statement (.bankPeriodicCheck die site wrong) := fun _ _ _ => rfl
theorem WordCount.spliceApply : ∀ req, WordCount.Statement (.spliceApply req) := fun _ => rfl
theorem WordCount.spinitInitCompletion : ∀ op, WordCount.Statement (.spinitInitCompletion op) := fun _ => rfl
theorem WordCount.relabCompletion : ∀ op, WordCount.Statement (.relabCompletion op) := fun _ => rfl
theorem WordCount.collectiveStepCompletion : ∀ op, WordCount.Statement (.collectiveStepCompletion op) := fun _ => rfl
theorem WordCount.segmentArrival : ∀ seg, WordCount.Statement (.segmentArrival seg) := fun _ => rfl
theorem WordCount.segmentDiscard : ∀ k, WordCount.Statement (.segmentDiscard k) := fun _ => rfl
theorem WordCount.collectiveTimeout : ∀ op, WordCount.Statement (.collectiveTimeout op) := fun _ => rfl
theorem WordCount.flitArrival : ∀ port flit, WordCount.Statement (.flitArrival port flit) := fun _ _ => rfl
theorem WordCount.diePortMessage : ∀ msg, WordCount.Statement (.diePortMessage msg) := fun _ => rfl
theorem WordCount.transferComplete : ∀ w, WordCount.Statement (.transferComplete w) := fun _ => rfl
theorem WordCount.stallWatchdog : ∀ w, WordCount.Statement (.stallWatchdog w) := fun _ => rfl
theorem WordCount.predicateStart : ∀ die, WordCount.Statement (.predicateStart die) := fun _ => rfl
theorem WordCount.predicateReturn : ∀ die a0 stores, WordCount.Statement (.predicateReturn die a0 stores) := fun _ _ _ => rfl
theorem WordCount.predicateOverrun : ∀ die stores, WordCount.Statement (.predicateOverrun die stores) := fun _ _ => rfl
theorem WordCount.logDoorbell : ∀ die stores, WordCount.Statement (.logDoorbell die stores) := fun _ _ => rfl
theorem WordCount.preemption : ∀ launch unit rate, WordCount.Statement (.preemption launch unit rate) := fun _ _ _ => rfl
theorem WordCount.drainLimitExpiry : ∀ launch block, WordCount.Statement (.drainLimitExpiry launch block) := fun _ _ => rfl
theorem WordCount.saveComplete : ∀ launch unit, WordCount.Statement (.saveComplete launch unit) := fun _ _ => rfl
theorem WordCount.restore : ∀ launch unit sites, WordCount.Statement (.restore launch unit sites) := fun _ _ _ => rfl
theorem WordCount.negativeComplete : ∀ launch, WordCount.Statement (.negativeComplete launch) := fun _ => rfl
theorem WordCount.fatalDieError : ∀ die resetOk, WordCount.Statement (.fatalDieError die resetOk) := fun _ _ => rfl
theorem WordCount.dieRecoveryComplete : ∀ die, WordCount.Statement (.dieRecoveryComplete die) := fun _ => rfl
theorem WordCount.worldLatch : ∀ die world, WordCount.Statement (.worldLatch die world) := fun _ _ => rfl
theorem WordCount.sessionEstablish : ∀ req, WordCount.Statement (.sessionEstablish req) := fun _ => rfl
theorem WordCount.heartbeat : ∀ iface seq, WordCount.Statement (.heartbeat iface seq) := fun _ _ => rfl
theorem WordCount.heartbeatDeadline : ∀ iface, WordCount.Statement (.heartbeatDeadline iface) := fun _ => rfl
theorem WordCount.grainWindowBoundary : WordCount.Statement .grainWindowBoundary := rfl
theorem WordCount.energyBudgetUpdate : ∀ core budget, WordCount.Statement (.energyBudgetUpdate core budget) := fun _ _ => rfl
theorem WordCount.priorityAging : ∀ iface q, WordCount.Statement (.priorityAging iface q) := fun _ _ => rfl
theorem WordCount.launchQueueExit : WordCount.Statement .launchQueueExit := rfl
theorem WordCount.dependenceResolution : ∀ launch, WordCount.Statement (.dependenceResolution launch) := fun _ => rfl
theorem WordCount.launchDispatch : ∀ launch, WordCount.Statement (.launchDispatch launch) := fun _ => rfl
theorem WordCount.blockPlacement : ∀ launch cluster sites, WordCount.Statement (.blockPlacement launch cluster sites) := fun _ _ _ => rfl
theorem WordCount.blockRelease : ∀ launch block, WordCount.Statement (.blockRelease launch block) := fun _ _ => rfl
theorem WordCount.doorbell : ∀ iface q v, WordCount.Statement (.doorbell iface q v) := fun _ _ _ => rfl
theorem WordCount.queueDescriptorWrite : ∀ iface q v, WordCount.Statement (.queueDescriptorWrite iface q v) := fun _ _ _ => rfl
theorem WordCount.interfaceGrantWrite : ∀ iface v, WordCount.Statement (.interfaceGrantWrite iface v) := fun _ _ => rfl
theorem WordCount.islandRegisterWrite : ∀ iface island v, WordCount.Statement (.islandRegisterWrite iface island v) := fun _ _ _ => rfl
theorem WordCount.marginGo : ∀ iface v, WordCount.Statement (.marginGo iface v) := fun _ _ => rfl
theorem WordCount.marginDone : ∀ fail errs, WordCount.Statement (.marginDone fail errs) := fun _ _ => rfl
theorem WordCount.registerWrite : ∀ iface offset v, WordCount.Statement (.registerWrite iface offset v) := fun _ _ _ => rfl
theorem WordCount.copy : ∀ iface q, WordCount.Statement (.copy iface q) := fun _ _ => rfl
theorem WordCount.signal : ∀ iface q, WordCount.Statement (.signal iface q) := fun _ _ => rfl
theorem WordCount.wait : ∀ iface q, WordCount.Statement (.wait iface q) := fun _ _ => rfl
theorem WordCount.waitSatisfied : ∀ iface q, WordCount.Statement (.waitSatisfied iface q) := fun _ _ => rfl
theorem WordCount.waitCommandTimeout : ∀ iface q, WordCount.Statement (.waitCommandTimeout iface q) := fun _ _ => rfl
theorem WordCount.puback : ∀ iface q, WordCount.Statement (.puback iface q) := fun _ _ => rfl
theorem WordCount.summary : ∀ iface q n, WordCount.Statement (.summary iface q n) := fun _ _ _ => rfl
theorem WordCount.inval : ∀ iface q, WordCount.Statement (.inval iface q) := fun _ _ => rfl
theorem WordCount.invalidationComplete : ∀ iface q, WordCount.Statement (.invalidationComplete iface q) := fun _ _ => rfl
theorem WordCount.window : ∀ iface q, WordCount.Statement (.window iface q) := fun _ _ => rfl
theorem WordCount.group : ∀ iface q, WordCount.Statement (.group iface q) := fun _ _ => rfl
theorem WordCount.counters : ∀ iface q, WordCount.Statement (.counters iface q) := fun _ _ => rfl
theorem WordCount.wpset : ∀ iface q, WordCount.Statement (.wpset iface q) := fun _ _ => rfl
theorem WordCount.progset : ∀ iface q, WordCount.Statement (.progset iface q) := fun _ _ => rfl
theorem WordCount.drload : ∀ iface q, WordCount.Statement (.drload iface q) := fun _ _ => rfl
theorem WordCount.ctlset : ∀ iface q, WordCount.Statement (.ctlset iface q) := fun _ _ => rfl
theorem WordCount.transfer : ∀ iface q, WordCount.Statement (.transfer iface q) := fun _ _ => rfl
theorem WordCount.release : ∀ iface q, WordCount.Statement (.release iface q) := fun _ _ => rfl
theorem WordCount.pause : ∀ iface q, WordCount.Statement (.pause iface q) := fun _ _ => rfl
theorem WordCount.debugResume : ∀ iface q, WordCount.Statement (.debugResume iface q) := fun _ _ => rfl
theorem WordCount.armbrk : ∀ iface q, WordCount.Statement (.armbrk iface q) := fun _ _ => rfl
theorem WordCount.csread : ∀ iface q, WordCount.Statement (.csread iface q) := fun _ _ => rfl
theorem WordCount.fsread : ∀ iface q, WordCount.Statement (.fsread iface q) := fun _ _ => rfl
theorem WordCount.fsname : ∀ iface q, WordCount.Statement (.fsname iface q) := fun _ _ => rfl
theorem WordCount.commandCompletion : ∀ iface q, WordCount.Statement (.commandCompletion iface q) := fun _ _ => rfl
theorem WordCount.selftestDone : ∀ w slot r, WordCount.Statement (.selftestDone w slot r) := fun _ _ _ => rfl
theorem WordCount.measurements : ∀ iface nonce, WordCount.Statement (.measurements iface nonce) := fun _ _ => rfl
theorem WordCount.firmwareUpdate : ∀ image, WordCount.Statement (.firmwareUpdate image) := fun _ => rfl
theorem WordCount.powerOn : ∀ env, WordCount.Statement (.powerOn env) := fun _ => rfl
theorem WordCount.packageReset : ∀ env, WordCount.Statement (.packageReset env) := fun _ => rfl
theorem WordCount.modulePowerRemoval : WordCount.Statement .modulePowerRemoval := rfl
theorem WordCount.predicateException : ∀ die stores, WordCount.Statement (.predicateException die stores) := fun _ _ => rfl
theorem WordCount.virtualInterfaceEnable : ∀ iface on, WordCount.Statement (.virtualInterfaceEnable iface on) := fun _ _ => rfl
theorem WordCount.publicationWindowRead : ∀ iface window addr, WordCount.Statement (.publicationWindowRead iface window addr) := fun _ _ _ => rfl

end Sys2Proof.Laws
end

