-- ==== Sys2Proof/Tests/Slice0.lean ====
section
/-! SUPPORT. Tests of the model: words of the spec's own examples, its worked results, one ill-formed term for each
check of WellFormed, and for every obligation a state and operands that meet its hypotheses. -/

namespace Sys2Proof.Tests

set_option Elab.async false

open Sys2Proof Sys2Proof.Machine

/-! ### Helpers -/

/-- The one warp of the small states. -/
def home : WarpRef := ⟨0, 0, 0⟩

/-- A launch of one warp whose path issues at PC 0. -/
def base : State := { State.reset.loadProbe [] with agenda := [], issuer := some ⟨home, false⟩ }

/-- With other warp, path or launch-record fields. -/
def onWarp (f : Warp → Warp) (s : State) : State := s.updWarp home f
def onPath (f : Path → Path) (s : State) : State := s.updPath home false f
def onRecord (f : LaunchRecord → LaunchRecord) (s : State) : State := s.updLaunch 0 fun l => { l with record := f l.record }

/-- With MODE, or with one lane only. -/
def mode (m : Word) (s : State) : State := onPath (fun p => { p with mode := m }) s
def lane0 (s : State) : State := onWarp (fun w => { w with exited := 0xFFFFFFFE }) (onPath (fun p => { p with lanes := 1 }) s)

/-- With a register's value. -/
def sreg (n : Nat) (v : Word) (s : State) : State := onWarp (fun w => { w with sregs := put0 w.sregs n v }) s
def vreg (n lane : Nat) (v : Word) (s : State) : State := onWarp (fun w => { w with vregs := put0 w.vregs (32 * n + lane) v }) s

/-- A property of the issuing path's surroundings. -/
def holds (s : State) (f : Ctx → Bool) : Bool := s.ctx?.any f

/-- A property of the state after an instruction. -/
def after (i : Instr) (s : State) (f : State → Bool) : Bool :=
  match exec i s with
  | .next t => f t
  | _ => false

/-- The word that an instruction leaves outstanding for a target. -/
def wrote (i : Instr) (s : State) (t : WTarget) : Option Word :=
  match exec i s with
  | .next u => (u.path? home false).bind fun p => (p.writes.find? fun x => decide (x.target = t)).map PendingWrite.value
  | _ => none

/-- The scalar register and the PC after an instruction. -/
def scalar (i : Instr) (s : State) (n : Nat) : Option Word :=
  match exec i s with
  | .next u => (u.warp? home).map fun w => get0 w.sregs n
  | _ => none
def pcOf (i : Instr) (s : State) : Option Word :=
  match exec i s with
  | .next u => (u.path? home false).map Path.pc
  | _ => none

/-- The instruction answers a next state here. -/
def runs (i : Instr) (s : State) : Bool := after i s fun _ => true

/-- An instruction refuses to happen. -/
def idle (i : Instr) (s : State) : Bool :=
  match exec i s with
  | .fault _ => true
  | _ => false

/-! ### WellFormed: one ill-formed term for each check -/

theorem test_wf_scalar_register : Instr.wf (.sadd false 64 0 (.reg 0)) = false := by decide
theorem test_wf_scalar_source : Instr.wf (.sadd false 0 64 (.reg 0)) = false := by decide
theorem test_wf_scalar_b : Instr.wf (.sadd false 0 0 (.reg 64)) = false := by decide
theorem test_wf_scalar_pair : Instr.wf (.waitf false 0 3 0) = false := by decide
theorem test_wf_scalar_four : Instr.wf (.spinit false 2) = false := by decide
theorem test_wf_vector_pair : Instr.wf (.ld64 false 3 0 (.reg 0)) = false := by decide
theorem test_wf_vector_four : Instr.wf (.ld128 false 6 2 (.lit 0)) = false := by decide
theorem test_wf_constant : Instr.wf (.waitf false 6 0 0) = false := by decide
theorem test_wf_mask_register : Instr.wf (.vceq false 64 0 (.reg 0)) = false := by decide
theorem test_wf_target : Instr.wf (.bra false 2) = false := by decide
theorem test_wf_code : Instr.wf (.vunp5 false 2 0 4) = false := by decide
theorem test_wf_offset : Instr.wf (.vshup false 0 0 (.lit 0x80000008)) = false := by decide
theorem test_wf_descriptor : Instr.wf (.mma false 0 5 0 0 0) = false := by decide
theorem test_wf_good : Instr.wf (.ld128 false 124 2 (.lit 0)) = true := by decide

/-! ### Decoding: words from the spec's encodings -/

/-- Words of 02, 03, 06, 08 and 11, each family of the map once. -/
theorem test_decode_scalar : decode (bytesOf 0x01820206) = .instr (.sdiv false 4 2 (.reg 3)) 4 := by decide
theorem test_decode_control : decode (bytesOf 0x0A418001 ++ bytesOf 0xFFFFFFFC) = .instr (.loop false 3 0xFFFFFFFC) 8 := by decide
theorem test_decode_branch : decode (bytesOf 0x09050101 ++ bytesOf 8) = .instr (.brd false 10 1 8) 8 := by decide
theorem test_decode_join : decode (bytesOf 0x09400A00) = .instr (.join false 10) 4 := by decide
theorem test_decode_vector : decode (bytesOf 0x90018101 ++ bytesOf 0x64) = .instr (.vadd true 3 1 (.lit 0x64)) 8 := by decide
theorem test_decode_identity : decode (bytesOf 0x98800000) = .instr (.vget true 0 0) 4 := by decide
theorem test_decode_float : decode (bytesOf 0x20C18104) = .instr (.vfma false 3 1 (.reg 2)) 4 := by decide
theorem test_decode_packed : decode (bytesOf 0x30048206) = .instr (.vdot4 false 9 2 (.reg 3)) 4 := by decide
theorem test_decode_trits : decode (bytesOf 0x31440201 ++ bytesOf 3) = .instr (.vunp5 false 8 2 3) 8 := by decide
theorem test_decode_convert : decode (bytesOf 0x31C28401 ++ bytesOf 0x29) = .instr (.vcvtn false 5 4 0x29) 8 := by decide
theorem test_decode_shuffle : decode (bytesOf 0x38420301 ++ bytesOf 0x80000001) = .instr (.vshdn false 4 3 (.lit 0x80000001)) 8 := by decide
theorem test_decode_quad : decode (bytesOf 0x39028501 ++ bytesOf 0xB1) = .instr (.vqswap false 5 5 (.lit 0xB1)) 8 := by decide
theorem test_decode_reduce : decode (bytesOf 0xB9408001 ++ bytesOf 0) = .instr (.vred true 1 0 0) 8 := by decide
theorem test_decode_load : decode (bytesOf 0x41BE0201 ++ bytesOf 0) = .instr (.ld128 false 124 2 (.lit 0)) 8 := by decide
theorem test_decode_spill : decode (bytesOf 0x45000700) = .instr (.vspill false 7) 4 := by decide
theorem test_decode_fill : decode (bytesOf 0x45438000) = .instr (.vfill false 7) 4 := by decide
/-- ACAS v2, v4, v3 from its row (OP 0x129, D 2, A 4, B 3). -/
theorem test_decode_atomic : decode (bytesOf 0x4A410406) = .instr (.acas false 2 4 (.reg 3)) 4 := by decide
theorem test_decode_matrix : decode (bytesOf 0x5188428C) = .instr (.mma false 2 4 1 1 6) 4 := by decide
theorem test_decode_matrix_marked : decode (bytesOf 0xD18842FE) = .instr (.mma true 2 4 1 1 63) 4 := by decide
/-- UNITE v1, v2, v3 from its row (OP 0x161). -/
theorem test_decode_splice : decode (bytesOf 0x58408206) = .instr (.unite false 1 2 (.reg 3)) 4 := by decide
theorem test_decode_system : decode (bytesOf 0x61A08006) = .instr (.sset false 65 (.reg 3)) 4 := by decide
theorem test_reserved_group : decode (bytesOf 0x41830201 ++ bytesOf 0) = .reservedField 8 := by decide
theorem test_reserved_descriptor : decode (bytesOf 0x5188528C) = .reservedField 4 := by decide
theorem test_illegal_zero : decode (bytesOf 0) = .illegalOpcode 4 := by decide
theorem test_illegal_ones : decode (bytesOf 0xFFFFFFFF) = .illegalOpcode 4 := by decide
theorem test_worked_branch : decode (bytesOf 0x08C00301 ++ bytesOf 0xFFFFFFF8) = .instr (.bnz false 3 0xFFFFFFF8) 8 := by decide

/-! ### Results: numbers of the spec, or computed by hand from its rules -/

/-- R91: 5 - 7 wraps; R92: -7 / 2 truncates to -3, remainder -1. -/
theorem test_ssub_wraps : scalar (.ssub false 1 2 (.lit 7)) (sreg 2 5 base) 1 = some 0xFFFFFFFE := by decide
theorem test_sdiv_truncates : scalar (.sdiv false 1 2 (.lit 2)) (sreg 2 0xFFFFFFF9 base) 1 = some 0xFFFFFFFD := by decide
theorem test_srem_sign : scalar (.srem false 1 2 (.lit 2)) (sreg 2 0xFFFFFFF9 base) 1 = some 0xFFFFFFFF := by decide
theorem test_sdiv_zero : scalar (.sdiv false 1 2 (.lit 0)) (sreg 2 9 base) 1 = some 0xFFFFFFFF := by decide
/-- R93: a count of 32 empties, bits above bit 7 of the count are ignored. -/
theorem test_ssra_full : scalar (.ssra false 1 2 (.lit 32)) (sreg 2 0x80000000 base) 1 = some 0xFFFFFFFF := by decide
theorem test_sshl_count : scalar (.sshl false 1 2 (.lit 0x101)) (sreg 2 3 base) 1 = some 6 := by decide
/-- R94: position 28, width 8 is cut to 4. -/
theorem test_sbfx_cut : scalar (.sbfx false 1 2 (.lit 0x81C)) (sreg 2 0xABCDEF01 base) 1 = some 0xA := by decide
theorem test_ssel : scalar (.ssel false 1 2 (.lit 0xFF)) (sreg 1 0xF0F0 (sreg 2 0xF base)) 1 = some 0xF0FF := by decide
/-- R98: a LOOP entered with 1 falls through, with 0 wraps and branches. -/
theorem test_loop_last : pcOf (.loop false 3 0x40) (sreg 3 1 base) = some 8 := by decide
theorem test_loop_wraps : pcOf (.loop false 3 0x40) base = some 0x40 := by decide
/-- R97: CALL links PC + 8. -/
theorem test_call_link : scalar (.call false 5 0x20) base 5 = some 8 := by decide
/-- The division table after R108: lanes 0 and 4. -/
theorem test_vdiv_overflow : wrote (.vdiv false 1 2 (.lit 0xFFFFFFFF)) (lane0 (vreg 2 0 0x80000000 base)) (.stSet 0) = some 0x20 := by
  decide
theorem test_vrem_sign : wrote (.vrem false 1 2 (.lit 3)) (lane0 (vreg 2 0 0x80000000 base)) (.v 1 0) = some 0xFFFFFFFE := by decide
/-- Elements do not carry into each other: S8, 0xFF + 1 in byte 0. -/
theorem test_vadd_elements : wrote (.vadd false 1 2 (.lit 1)) (lane0 (mode 0x20000 (vreg 2 0 0x01FF base))) (.v 1 0) = some 0x100 := by
  decide
/-- R116's cases. -/
theorem test_vfadd_tie : wrote (.vfadd false 1 2 (.lit 0x4C00)) (lane0 (mode 0x38000 (vreg 2 0 0x7BFF base))) (.v 1 0) = some 0x7C00 := by
  decide
theorem test_vfma_fused : wrote (.vfma false 1 2 (.lit 0x3F800800)) (lane0 (mode 0x30000 (vreg 2 0 0x3F800800 (vreg 1 0 0xBF800000 base))))
    (.v 1 0) = some 0x3A000400 := by decide
theorem test_vfdiv_zero : wrote (.vfdiv false 1 2 (.lit 0)) (lane0 (mode 0x30000 (vreg 2 0 0x3F800000 base))) (.stSet 0) = some 8 := by
  decide
theorem test_vfsqrt_negative : wrote (.vfsqrt false 1 2) (lane0 (mode 0x30000 (vreg 2 0 0xBF800000 base))) (.v 1 0) = some 0x7FC00000 := by
  decide
theorem test_vfmin_nan : wrote (.vfmin false 1 2 (.lit 0x40400000)) (lane0 (mode 0x30000 (vreg 2 0 0x7FC00000 base))) (.v 1 0)
    = some 0x40400000 := by decide
/-- After R117: 100 + 10 - 20 + 0 + 40. -/
theorem test_vdot4 : wrote (.vdot4 false 1 2 (.lit 0x281E140A)) (lane0 (mode 0x20000 (vreg 2 0 0x0100FF01 (vreg 1 0 100 base)))) (.v 1 0)
    = some 130 := by decide
/-- After R119: byte 0xA7, and byte 0xF8, which is no ternary code. -/
theorem test_vunp5 : wrote (.vunp5 false 8 2 0) (lane0 (vreg 2 0 0xA7 base)) (.v 8 0) = some 0xFFFF0001 := by decide
theorem test_vunp5_invalid : wrote (.vunp5 false 8 2 3) (lane0 (vreg 2 0 0xF8000000 base)) (.stSet 0) = some 0x10 := by decide
/-- After R121: 300.0 to E4M3 in byte 2. -/
theorem test_vcvtn : wrote (.vcvtn false 5 4 0x29) (lane0 (mode 0x30000 (vreg 4 0 0x43960000 (vreg 5 0 0x11223344 base)))) (.v 5 0)
    = some 0x11793344 := by decide
/-- R82: 500.0 saturates to 448 under SAT, 5.0 to E2M1 ties away under RNA. -/
theorem test_round_saturates : (roundTo 9 0 true (.fin false 500 0 false)).1 = 0x7E := by decide
theorem test_round_away : (roundTo 13 4 false (.fin false 5 0 false)).1 = 7 := by decide
/-- R148: lane 3 of a VSHDN by 16 reads lane 19. -/
theorem test_vshdn : wrote (.vshdn false 4 3 (.lit 0x80000001)) (vreg 3 19 77 base) (.v 4 3) = some 77 := by decide +kernel
/-- R149: VQSWAP 0xB1 exchanges lanes 0 and 1. -/
theorem test_vqswap : wrote (.vqswap false 5 5 (.lit 0xB1)) (vreg 5 1 9 base) (.v 5 0) = some 9 := by decide +kernel
/-- R150: the sum over the lanes, and a scan up to lane 1. -/
theorem test_vred : wrote (.vred false 1 0 0) (vreg 0 0 5 (vreg 0 31 6 base)) (.v 1 7) = some 11 := by decide +kernel
theorem test_vscan : wrote (.vscan false 1 0 0) (vreg 0 0 5 (vreg 0 31 6 base)) (.v 1 1) = some 5 := by decide +kernel
/-- 19 R286: the record and entries of the worked lane fault. -/
theorem test_record_bytes : RecordHead.bytes ⟨0x204, 0x40, 3, 1, false, .lane, .misaligned⟩
      [⟨2, .misaligned, 4, 0x102⟩, ⟨9, .outOfRange, 4, 0x1200⟩]
    = leBytes 8 0x0000000003080208 ++ leBytes 8 0x0000020400000040 ++ leBytes 8 0x0000010200040802 ++ leBytes 8 0x0000120000040909 := by
  decide +kernel
/-- 28 R387: CRC-16/CCITT-FALSE, whose check value over the digits 1 to 9 is 0x29B1. -/
theorem test_crc : crc16 [0x31, 0x32, 0x33, 0x34, 0x35, 0x36, 0x37, 0x38, 0x39] = 0x29B1 := by decide +kernel

/-! ### Witnesses: instructions of a path -/

/-- The registers lie in the allotment, none has a soft error, and no splice operation owes the warp a result. -/
def ready (c : Ctx) (regs : List Nat) : Bool :=
  (regs.all fun n => decide (n < c.l.record.regs)) && c.w.inject.isNone && c.w.soft.isEmpty && !c.s.splicing c.ref

/-- With a second live path, a pending entry, a group. -/
def twoPaths (s : State) : State :=
  onWarp (fun w => { w with p1 := some (Path.start 0x40 0xFFFF0000) }) (onPath (fun p => { p with lanes := 0xFFFF }) s)
def pending (s : State) : State := onPath (fun p => { p with lanes := 0xFFFF, stack := [⟨0x40, 0xFFFF0000, 0, 0, none⟩] }) s

theorem witness_ScalarIntegerResults : holds base (fun c => !modeTrapDiv c.p.mode) = true ∧
    holds (mode 0x800000 (sreg 2 1 base)) (fun c => modeTrapDiv c.p.mode && decide (c.sr 2 = 1)) = true := by decide +kernel
theorem witness_VectorArithmeticResults_integer : holds (mode 0x70000 base) (fun c => intTypes c && ready c [127, 0, 1]) = true := by
  decide +kernel
theorem witness_VectorArithmeticResults_division : holds base (fun c => intTypes c && ready c [1, 2, 3] && !modeTrapDiv c.p.mode) = true ∧
    holds (mode 0x800000 base) (fun c => intTypes c && modeTrapDiv c.p.mode &&
      (lanesOf c.active).all fun l => decide (elemAt (c.vb (.lit 1) l).toNat 32 0 ≠ 0)) = true := by decide +kernel
theorem witness_VectorUnaryWordCompareResults_unary : holds (mode 0x20000 base) (fun c => intTypes c && ready c [1, 2]) = true := by decide +kernel
theorem witness_VectorUnaryWordCompareResults_word : holds (mode 0x78000 base) (fun c => ready c [1, 2, 3] && ready c [0]) = true := by decide +kernel
theorem witness_VectorUnaryWordCompareResults_compare : holds base (fun c => intTypes c && ready c [0, 1]) = true := by decide +kernel
theorem witness_FloatArithmeticResults : holds (mode 0x8030000 base) (fun c => fpTypes c && ready c [1, 2, 3] &&
      modeTrapNv c.p.mode && !modeTrapDiv c.p.mode && (lanesOf c.active).all fun l =>
        decide ((addF 0 (elemVal 6 (c.v 2 l).toNat) (elemVal 6 (c.v 3 l).toNat)).2 = 0)) = true := by decide +kernel
theorem witness_FloatResultsAreRoundedReals : isFpType 8 = true ∧ (floatFmt 8).isSome = true := by decide +kernel
/-- 1 < 2; 3 is an integer, 1/2 a power of two, 5/2 an integer and a half. -/
theorem witness_FloatResultsAreRoundedReals_values : ratOf false 1 0 < ratOf false 1 1 ∧ ratOf true 0 0 = ratOf false 0 0 ∧
    ratOf false 3 0 = ((3 : ℤ) : ℚ) ∧ ratOf false 1 (-1) = (2 : ℚ) ^ (-1 : ℤ) ∧ ratOf false 5 (-1) = ((2 : ℤ) : ℚ) + 1 / 2 := by
  norm_num [ratOf]
theorem witness_FloatSignAndCompareResults : holds (mode 0x40000 base) (fun c => fpTypes c && ready c [1, 2, 3] &&
    !modeTrapNv c.p.mode) = true := by decide +kernel
/-- ETYPE S8, N8, S4, E4M3, E2M3 and E2M1 in turn. -/
theorem witness_PackedResults : ([(4, 0x20000), (5, 0x28000), (14, 0x70000), (9, 0x48000), (12, 0x60000), (13, 0x68000)].all
    fun x => holds (mode (BitVec.ofNat 32 x.2) base) fun c => decide (c.etype = x.1) && ready c [8, 9, 2] && !modeTrapNv c.p.mode) = true := by
  decide +kernel
/-- F32 to E4M3 part 3 (VCVTN), E2M1 to F32 part 7 (VCVTW), F16 to S8, S4 to BF16. -/
theorem witness_ConversionResults : ([(6, 9, 3), (13, 6, 7), (7, 4, 1), (14, 8, 3)].all fun x =>
    holds (mode (BitVec.ofNat 32 (x.1 * 2 ^ 15)) base) fun c => decide (c.etype = x.1) && ready c [1, 2] && !modeTrapNv c.p.mode &&
      decide (x.2.2 < max (elemWidth x.1) (elemWidth x.2.1) / min (elemWidth x.1) (elemWidth x.2.1))) = true := by decide +kernel
theorem witness_ControlResults : holds (sreg 3 0x40 base) (fun c => decide (c.sr 3 &&& 3 = 0)) = true ∧
    (0x5270000 / 2 ^ 19 % 8 ≤ 4 ∧ 0x5270000 / 2 ^ 24 % 8 ≤ 5 ∧ 0x5270000 < 2 ^ 28) := by decide +kernel
/-- No lane taken, all taken, some taken with the other slot free, some taken with a path in it. -/
theorem witness_DivergentBranchResults : holds base (fun c => ready c [1] && decide (maskWhere c.landed.active
      (fun l => decide (c.landed.v 1 l ≠ 0)) = 0)) = true ∧
    holds (lane0 (vreg 1 0 5 base)) (fun c => decide (c.landed.p.lanes &&& ~~~(maskWhere c.landed.active
      (fun l => decide (c.landed.v 1 l ≠ 0))) = 0)) = true ∧
    holds (vreg 1 0 5 base) (fun c => (c.landed.w.path? (!c.slot)).isNone && decide (maskWhere c.landed.active
      (fun l => decide (c.landed.v 1 l ≠ 0)) = 1)) = true ∧
    holds (twoPaths (vreg 1 0 5 base)) (fun c => (c.landed.w.path? (!c.slot)).isSome && decide (maskWhere c.landed.active
      (fun l => decide (c.landed.v 1 l ≠ 0)) = 1 ∧ c.landed.p.stack.length < 16)) = true ∧
    holds (onPath (fun p => { p with back := some 0x40 }) base) (fun c => ready c [1] && c.p.back.isSome) = true := by decide +kernel
theorem witness_JoinAndExitResults_join : holds (sreg 10 0xFFFFFFFF base) (fun c =>
    decide (c.landed.sr 10 &&& ~~~c.landed.w.exited &&& ~~~c.landed.p.lanes = 0) && !c.s.splicing c.ref) = true := by decide +kernel
theorem witness_JoinAndExitResults_exit : holds base (fun c => !c.w.ended && !c.s.splicing c.ref &&
      decide (c.w.exited ||| c.p.lanes = BitVec.allOnes 32)) = true ∧
    holds (twoPaths base) (fun c => !c.w.ended && decide (c.w.groups = [] ∧ c.p.stack = []) && (c.w.path? (!c.slot)).any fun o =>
      decide (o.lanes &&& c.p.lanes = 0 ∧ o.lanes &&& ~~~c.w.exited ≠ 0 ∧ o.stack = [])) = true := by decide +kernel
/-- Both ways a warp-wide operation executes, and the moves through ix at the last register. -/
theorem witness_CrossLaneResults : holds base (fun c => c.p.carry.isNone && ready c [1, 2, 3] &&
      decide (c.landed.memberSet &&& ~~~c.landed.w.exited &&& ~~~c.landed.p.lanes = 0 ∧
        c.landed.active &&& ~~~c.landed.memberSet = 0)) = true ∧
    holds (onPath (fun p => { p with carry := some (0xFF, 0xF) }) base) (fun c => c.p.carry.isSome) = true ∧
    holds (onPath (fun p => { p with ix := 254 }) base) (fun c => ready c [1] && decide (c.p.ix.toNat + 1 < c.l.record.regs)) = true := by
  decide +kernel
theorem witness_ReductionResults : holds (mode 0x20000 base) (fun c => intTypes c && treeTypes c && ready c [1, 2] &&
    decide (c.landed.memberSet &&& ~~~c.landed.w.exited &&& ~~~c.landed.p.lanes = 0)) = true := by decide +kernel
/-- A block of one warp completes each barrier; of two warps the first arrival waits. -/
theorem witness_BarrierResults : holds base (fun c => decide (c.p.lanes = ~~~c.w.exited) && !c.w.allExited && !c.w.ended &&
      !c.l.record.tripod && (c.s.barrier c.l c.ref (.block 15)).arrived.isEmpty &&
      ((c.s.members c.l c.ref (.block 15)).all fun w => decide (w.ref = c.ref)) && !c.s.awaitsRestart c.l c.ref (.block 15) &&
      (c.s.cluster? 0 0).isSome && ((c.s.barrier c.l c.ref (.block 15)).recordedOf c.ref).isNone) = true ∧
    holds { base with x := { base.x with warps := base.x.warps ++ [Warp.fresh ⟨0, 0, 1⟩ 0 1 0] } } (fun c =>
      (c.s.members c.l c.ref (.block 0)).any fun w => decide (w.ref = ⟨0, 0, 1⟩)) = true ∧
    holds (onRecord (fun r => { r with cores := true }) base) (fun c => c.l.record.cores && decide (c.l.record.resil = 0) &&
      (c.l.replayOn c.b.die).isNone) = true := by decide +kernel
/-- After a BARA that did not complete the generation BARW waits for it. -/
theorem witness_BarrierResults_waits : after (.bara false 0) { base with x := { base.x with warps := base.x.warps ++ [Warp.fresh ⟨0, 0, 1⟩ 0 1 0] } }
    (fun t => holds t (fun c => decide (c.p.lanes = ~~~c.w.exited) && !c.w.allExited && !c.w.ended && !c.l.record.tripod &&
      decide ((c.s.barrier c.l c.ref (.block 0)).recordedOf c.ref = some 0 ∧ (c.s.barrier c.l c.ref (.block 0)).gen ≤ 0)) &&
      match exec (.barw false 0) t with | .next _ => true | _ => false) = true := by decide +kernel
/-- Addresses of every lane at the last words of BSM, and a scalar access. -/
theorem witness_LoadResults : holds (lane0 (vreg 1 0 0xFFF0 base)) (fun c => ready c [4, 5, 6, 7, 1] && c.w.onLoupe?.isNone &&
      ([1, 2, 4, 8, 16].all fun n => (c.check .load (c.v 1 0 + c.sb (.lit 0)) n).toOption.isSome) &&
      !c.s.softAt (.bsm 0 0) 0xFFF0 16 && !c.s.softAt (.bsm 0 0) 8 8) = true ∧
    holds base (fun c => (c.check .load (c.sr 3 + c.sb (.lit 8)) 8).toOption.isSome && !c.l.record.tripod) = true := by decide +kernel
theorem witness_StoreResults : holds (lane0 (vreg 1 0 0xFFF0 base)) (fun c => ready c [4, 5, 6, 7, 1] && !c.l.record.tripod &&
      ([1, 2, 4, 8, 16].all fun n => (c.check .store (c.v 1 0 + c.sb (.lit 0)) n).toOption.isSome) &&
      (c.s.block? 0 0).any fun b => b.bsm.wf) = true ∧
    holds base (fun c => (c.check .store (c.sr 3 + c.sb (.lit 8)) 8).toOption.isSome) = true := by decide +kernel
/-- Integer and floating-point forms, in BSM and in the scratchpad. -/
theorem witness_AtomicResults : holds (lane0 (vreg 1 0 0xFFFC base)) (fun c => ready c [2, 1, 3] && !c.l.record.tripod &&
      (c.check .atomic (c.v 1 0) 4).toOption.isSome && (c.check .red (c.v 1 0) 4).toOption.isSome && decide (c.etype = 0)) = true ∧
    holds (lane0 (mode 0x30000 (vreg 1 0 0x20000000 base))) (fun c => fpTypes c && (c.check .atomic (c.v 1 0) 4).toOption.isSome &&
      (c.s.span? 0 0).any fun k => k.spad.wf) = true ∧
    holds (lane0 (mode 0x8000 base)) (fun c => decide (c.etype = 1)) = true := by decide +kernel
/-- Each outcome of the check in turn: no place, misaligned, tripod, free. -/
theorem witness_AccessChecksAndLaneFaults_order : holds base (fun c => (localPlace c.l 0 0x10000 4).isNone && (localPlace c.l 0 0xFFFE 2).isSome &&
      (localPlace c.l 0 2 4).isSome && decide (2 % 4 ≠ 0) && !c.s.rangeLocked c.l c.ref .load (.bsm 0 0) 0 4) = true ∧
    holds (onRecord (fun r => { r with tripod := true, cluster := 2 }) base) (fun c =>
      c.l.record.tripod && decide ((localPlace c.l 0 0x11000000 4) = some (.bsm 0 1, 0))) = true := by decide +kernel

/-! ### Witnesses: encodings, stepping, faults -/

theorem witness_EncodedInstructionsDecode : Instr.wf (.vshup true 127 0 (.lit 0x80000007)) = true ∧
    encode (.vshup true 127 0 (.lit 0x80000007)) ≠ [] := by decide +kernel
theorem witness_DecodedWordsReencode : decode (bytesOf 0x01820206 ++ bytesOf 0 ++ []) = .instr (.sdiv false 4 2 (.reg 3)) 4 := by
  decide +kernel
/-- The bytes of an image that the path issues from. -/
def imaged (bs : List Byte) : State := { (State.reset.loadProbe bs) with agenda := [], issuer := none }
theorem witness_FetchFaults_unassigned : assignedOp 0x033 = false ∧ assignedOp 0x19F = false ∧
    ((imaged (bytesOf 0xFFFFFFFF)).issuing ⟨home, false⟩ []).ctx?.any (fun c =>
      decide ((((imaged (bytesOf 0xFFFFFFFF)).imageOf c.l).drop c.p.pc.toNat).take 8 = bytesOf 0xFFFFFFFF)) = true := by decide +kernel
/-- An image of no byte, and one that ends before the literal of its word. -/
theorem witness_FetchFaults_beyond :
    ((imaged []).issuing ⟨home, false⟩ []).ctx?.any (fun c => decide (((imaged []).imageOf c.l).length ≤ c.p.pc.toNat)) = true ∧
    ((imaged (bytesOf 0x08C00301)).issuing ⟨home, false⟩ []).ctx?.any (fun c =>
      decide (((imaged (bytesOf 0x08C00301)).imageOf c.l).drop c.p.pc.toNat = bytesOf 0x08C00301)) = true ∧
    assignedOp (fieldOp 0x08C00301).toNat = true ∧ fieldL 0x08C00301 = true := by decide +kernel
/-- The first step after reset fetches and runs a NOP; an event; a listed issue of a path that may not issue. -/
theorem witness_StepRunsTheDecodedInstruction :
    (let s := State.reset.withFetchWord 32 0x08000000
     let s0 := (({ s with agenda := [] } : State).pass 0).windowed
     s.agenda = [⟨0, .issue ⟨home, false⟩ []⟩] ∧ s0.mayIssue ⟨home, false⟩ [] = true ∧
     ((s0.issuing ⟨home, false⟩ []).ctx?.any fun c => decide (decode (((s0.imageOf c.l).drop c.p.pc.toNat).take 8)
        = .instr (.nop false) 4)) = true) ∧
    ((({ base with agenda := [] } : State).pass 0).windowed).mayIssue ⟨⟨9, 0, 0⟩, false⟩ [] = false := by decide +kernel
theorem test_first_step_is_next : (match step (State.reset.withFetchWord 32 0x08000000) with | .next _ => true | _ => false) = true := by
  decide +kernel
theorem witness_RegisterBoundsFault : holds (onRecord (fun r => { r with regs := 8 }) base) (fun c =>
    (directVregs (.ld64 false 6 0 (.reg 0))).all (fun n => decide (n < c.l.record.regs)) &&
    (directVregs (.ld64 false 8 0 (.reg 0))).any fun n => decide (c.l.record.regs ≤ n)) = true := by decide +kernel
theorem witness_TypeFaultsPrecedeTheGuard : holds (mode 0x30000 base) (fun c => !acceptsType c.etype (.vadd false 1 2 (.reg 3)) &&
    (directVregs (.vadd false 1 2 (.reg 3))).all fun n => decide (n < c.l.record.regs)) = true := by decide +kernel
/-- VCVTW and VCVTN from F32 to S8, E4M3 to F32 part 4 (VCVTW), F32 to E4M3 part 4 (VCVTN), VCVTFI from S8, VCVTIF from F32. -/
theorem witness_TypeFaultsPrecedeTheGuard_conversions : ([(6, 4), (9, 0x46), (6, 0x49), (4, 4)].all fun x =>
    holds (mode (BitVec.ofNat 32 (x.1 * 2 ^ 15)) base) fun c => decide (c.etype = x.1) && ready c [1, 2]) = true ∧
    ([(9, 6, 4), (6, 9, 4)].all fun x : Nat × Nat × Nat => decide (max (elemWidth x.1) (elemWidth x.2.1) / min (elemWidth x.1) (elemWidth x.2.1)
      ≤ x.2.2)) = true := by decide +kernel
/-- One lane divides by zero; one lane's access fails and the others' pass. -/
theorem witness_AccessChecksAndLaneFaults_faults : holds (mode 0x800000 (vreg 3 1 7 base)) (fun c => intTypes c && modeTrapDiv c.p.mode &&
      ready c [1, 2, 3] && decide (elemAt (c.v 3 0).toNat 32 0 = 0 ∧ elemAt (c.v 3 1).toNat 32 0 = 7)) = true ∧
    holds (vreg 1 3 0x10000 base) (fun c => ready c [4, 5, 6, 7, 1] && c.w.onLoupe?.isNone && !c.l.record.tripod &&
      (c.check .load (c.v 1 3) 16).toOption.isNone && (c.check .store (c.v 1 3) 16).toOption.isNone &&
      (c.check .load (c.v 1 0) 16).toOption.isSome && (c.check .store (c.v 1 0) 16).toOption.isSome) = true := by decide +kernel
/-- A soft word of BSM, and a soft scalar register. -/
def softBlock (s : State) : State := { s with x := { s.x with blocks := s.x.blocks.map fun b => { b with soft := [0] } } }
def softScalar (n : Nat) (s : State) : State := onWarp (fun w => { w with soft := [(256 + n, 0)] }) s
theorem witness_AccessChecksAndLaneFaults_soft : holds (softBlock base) (fun c => ready c [4, 5, 6, 7, 1] && c.w.onLoupe?.isNone &&
      (c.check .load (c.v 1 0) 16).toOption.isSome && c.s.softAt (.bsm 0 0) 0 16 && decide (c.p.lanes &&& c.onlyMask ≠ 0)) = true ∧
    holds (softScalar 1 base) (fun c => c.softAt (sRd 1, 0) && decide (c.p.lanes &&& c.onlyMask ≠ 0)) = true ∧
    runs (.sld32 false 2 1 (.lit 0)) (softBlock base) = true ∧ runs (.sadd false 2 1 (.lit 0)) (softScalar 1 base) = true := by decide +kernel
/-- A buffer that takes the writes, and one that is full. -/
theorem witness_TripodWritesAreBuffered : holds (onRecord (fun r => { r with tripod := true }) base) (fun c => c.l.record.tripod &&
      ready c [4, 5, 6, 7, 1] && decide (c.w.frame.used + 32 * 24 ≤ 8192) && (c.check .store (c.v 1 0) 16).toOption.isSome) = true ∧
    holds (onWarp (fun w => { w with frame := { w.frame with used := 8192 } }) (onRecord (fun r => { r with tripod := true }) base))
      (fun c => decide (8192 < c.w.frame.used + 32 * 16)) = true := by decide +kernel
/-- A warp outside and inside a continuation, under each policy, with and without a loupe cluster. -/
theorem witness_FaultDelivery : ((base.landBoth home).ctxAt? home false).any (fun c => c.w.frozen.isNone &&
      decide (c.l.record.policy = 0) && (base.loupeSite? c.b.die).isSome && base.debugAllowed c.l) = true ∧
    ([1, 2, 3].all fun n => (((onRecord (fun r => { r with policy := n }) base).landBoth home).ctxAt? home false).any fun c =>
      decide (c.l.record.policy = n)) = true ∧
    ((base.updCtl fun c => { c with map := { c.map with dies := [] } }).loupeSite? 0).isNone = true ∧
    ([true, false].all fun k => (({ base with x := { base.x with blocks := base.x.blocks.map fun b => { b with stopped := k } } } : State).landBoth
      home |>.ctxAt? home false).any fun c => c.b.stopped == k) = true := by decide +kernel
/-- A frozen warp of one path over lanes 0 to 3, with and without lanes to re-execute. -/
def frozen (m : LaneMask) : State :=
  onWarp (fun w => { w with frozen := some ⟨some (Path.start 0x40 0xF), none, [], false, 0x40, 0x48, m, 0xF⟩ })
    (onRecord (fun r => { r with policy := 2 }) base)
theorem witness_ResumeReturns : holds (frozen 3) (fun c => c.w.frozen.isSome && modeLegal 0 &&
      decide ((0xF : LaneMask) &&& ~~~c.w.exited ≠ 0 ∧ (3 : LaneMask) &&& ~~~(c.landed.sr 5) &&& ~~~c.w.exited ≠ 0)) = true ∧
    holds (frozen 0) (fun c => c.w.frozen.isSome) = true ∧ modeLegal 0x06000000 = false ∧
    holds (onWarp (fun w => { w with frozen := w.frozen.map fun f => { f with groups :=
      [⟨.barrier 0x80, [⟨0xF0, 0xF0, 0, 0, 0⟩], none, 0⟩] } }) (frozen 3)) (fun c => c.w.frozen.any (fun f => !f.groups.isEmpty) && ready c []) = true := by
  decide +kernel
theorem witness_WorldsReadUnderTheirOwnKeys : State.reset.isDram 0 = true ∧
    ({ State.reset with memKeys := [(0, 1)] } : State).unitKey 0 ≠ State.reset.keyOf 0 ∧
    ({ State.reset with memKeys := [(0, 1)] } : State).mem.wf = true ∧ ([0].Pairwise (· < ·)) := by decide +kernel
/-- A first arrival at a JOIN and at a warp-wide operation while another path lives, and one over a pending entry. -/
theorem witness_GroupArrivals : holds (mode 0x4A00 (twoPaths (sreg 10 0xFFFFFFFF base))) (fun c => !c.w.ended && decide (c.landed.w.groups = []) &&
      (c.landed.w.path? (!c.slot)).isSome && c.p.carry.isNone &&
      decide (c.landed.sr 10 &&& ~~~c.landed.w.exited &&& ~~~c.landed.p.lanes ≠ 0 ∧
        c.landed.memberSet &&& ~~~c.landed.w.exited &&& ~~~c.landed.p.lanes ≠ 0 ∧
        c.landed.active &&& ~~~c.landed.memberSet = 0 ∧ c.landed.p.lanes ≠ 0)) = true ∧
    holds (pending base) (fun c => decide (c.landed.p.stack ≠ [])) = true := by decide +kernel

/-! ### Witnesses: invariants -/

/-- A small state that meets every invariant, and whose step answers a next state (`test_first_step_is_next`). -/
theorem witness_MainMemoryStaysCanonical : (State.reset.withFetchWord 32 0x08000000).mem.wf = true := by decide +kernel
theorem witness_LocalMemoriesStayCanonical : (State.reset.withFetchWord 32 0x08000000).LocalOk where
  bsm := by decide +kernel
  spad := by decide +kernel
  sram := by decide +kernel
  saves := by intro z h; cases h
  negatives := by intro d h; cases h
theorem witness_OperationNumbersStayFresh : (State.reset.withFetchWord 32 0x08000000).OpsOld where
  ops := by decide +kernel
  saves := by intro z h; cases h
  negatives := by intro d h; cases h
theorem witness_ModeStaysLegal : (State.reset.withFetchWord 32 0x08000000).ModeOk where
  warps := by
    intro w h
    rw [show (State.reset.withFetchWord 32 0x08000000).x.warps = [Warp.fresh ⟨0, 0, 0⟩ 0 0 0] from rfl, List.mem_singleton] at h
    subst h
    refine ⟨?_, ?_, ?_, ?_⟩
    · intro p hp
      have : p = Path.start 0 (BitVec.allOnes 32) := by simpa [Warp.fresh] using hp.symm
      subst this
      exact ⟨by decide, by intro e he; cases he⟩
    · intro p hp; cases hp
    · intro g hg; cases hg
    · intro f hf; cases hf
  saves := by intro z h; cases h
  negatives := by intro d h; cases h

/-! ### Witnesses: waits, system, engine instructions -/

/-- A push, a full stack (SPILL 0), a pop, an empty stack. -/
theorem witness_SpillStackResults : holds base (fun c => ready c [7] && decide (c.w.spill.length < c.l.record.spill ∧ c.w.spill = [])) = true ∧
    holds (onRecord (fun r => { r with spill := 0 }) base) (fun c => decide (c.l.record.spill ≤ c.w.spill.length)) = true ∧
    holds (onWarp (fun w => { w with spill := [[1, 2]] }) base) (fun c => decide (c.w.spill = [[1, 2]])) = true ∧
    holds (onWarp (fun w => { w with spill := [[1, 2]], spillSoft := [(0, 1)] }) base) (fun c => !c.s.splicing c.ref &&
      decide ((lanesOf c.active).filter (fun l => decide ((0, l) ∈ c.w.spillSoft)) = [1])) = true ∧
    runs (.vspill false 7) base = true ∧ runs (.vfill true 7) base = true := by decide +kernel

/-- An interface with window 3 of world 0, and with it of world 1. -/
def windowed (w : Nat) (s : State) : State :=
  s.updIface 0 fun f => { f with enabled := true, windows := [(3, ⟨0, 64, 0x1000, false, w, [], 0, 0⟩)] }
/-- A tripod launch; a frame end that has been served; a WAITF on word 0 of BSM that holds and one that does not. -/
theorem witness_FenceAndWaitResults :
    (let tri := onRecord (fun r => { r with tripod := true }) base
     holds tri (fun c => c.l.record.tripod && !c.p.frameServed) = true ∧
     holds (onPath (fun p => { p with frameServed := true }) tri) (fun c => c.p.frameServed) = true ∧
     runs (.waitf false 0 2 5) tri = true ∧ runs (.publish false (.lit 3)) tri = true) ∧
    holds base (fun c => !c.l.record.tripod && c.p.waitOn.isNone && c.w.onLoupe?.isNone &&
      (c.check .load (c.sr 2) 4).toOption.isSome && !c.s.softAt (.bsm 0 0) 0 4 &&
      decide (c.s.loadWord c.l c.ref (.bsm 0 0) 0 = c.sr 3)) = true ∧
    holds (sreg 3 1 base) (fun c => decide (c.s.loadWord c.l c.ref (.bsm 0 0) 0 ≠ c.sr 3 ∧
      (c.s.time - c.p.waitStart.getD c.s.time).toNat < 1)) = true ∧
    runs (.waitf false 0 2 1) (sreg 3 1 base) = true ∧ runs (.waitf false 0 2 0) (sreg 3 1 base) = true ∧
    holds (softBlock base) (fun c => (c.check .load (c.sr 2) 4).toOption.isSome && c.s.softAt (.bsm 0 0) 0 4 &&
      decide (c.p.lanes &&& c.onlyMask ≠ 0)) = true ∧
    holds (windowed 0 base) (fun c => (tget (c.s.iface c.l.iface).windows 3).any fun x => decide (x.world = c.l.record.world)) = true ∧
    holds (windowed 1 base) (fun c => (tget (c.s.iface c.l.iface).windows 3).any fun x => decide (x.world ≠ c.l.record.world)) = true ∧
    holds base (fun c => (tget (c.s.iface c.l.iface).windows 3).isNone) = true := by decide +kernel

/-- TRAP hits and misses; a stack of profile sets that is empty, has one set, is over. -/
theorem witness_SystemResults : holds base (fun c => decide (c.active &&& 0 = 0 ∧ c.active &&& 1 ≠ 0 ∧ c.w.profOver = 0 ∧ c.w.prof = [])) = true ∧
    holds (onWarp (fun w => { w with prof := [ProfSet.start 1 0] }) base) (fun c => (profRetire c.w.prof).length == 1) = true ∧
    holds (onWarp (fun w => { w with profOver := 1 }) base) (fun c => decide (0 < c.w.profOver)) = true ∧
    holds (onRecord (fun r => { r with tripod := true }) base) (fun c => c.l.record.tripod) = true ∧
    ((List.range 19).all fun n => runs (.sget false 1 (BitVec.ofNat 7 n)) base) = true := by decide +kernel

/-- The launch with other fields. -/
def onLaunch (f : Launch → Launch) (s : State) : State := s.updLaunch 0 f
/-- Unprivileged and privileged; the bounds 2 and 64 of EBUDGET; INJECT on v255 is refused where 8 registers are allotted. -/
theorem witness_PrivilegedResults : holds (onLaunch (fun l => { l with privileged := false }) base) (fun c => !c.l.privileged) = true ∧
    holds (sreg 3 64 base) (fun c => c.l.privileged && !c.l.record.tripod && !c.s.splicing c.ref && decide ((c.sr 3).toNat ≤ 64)) = true ∧
    ([0, 2, 64, 1, 65].all fun n => runs (.sset false 64 (.lit (BitVec.ofNat 32 n))) base) = true ∧
    holds (onRecord (fun r => { r with regs := 8 }) base) (fun c => !decide (7 + 1 < c.l.record.regs) && decide (7 < c.l.record.regs)) = true ∧
    ([0x80000007, 0x00000007, 0x80000080].all fun n => runs (.sset false 65 (.lit (BitVec.ofNat 32 n))) base) = true ∧
    ([1, 4, 0x104, 5, 0].all fun n => runs (.selftest false 4 (.lit (BitVec.ofNat 32 n))) base) = true ∧
    runs (.selftest false 4 (.lit 1)) (onRecord (fun r => { r with tripod := true }) base) = true := by decide +kernel

/-- The warp in slot 0 of loupe core 0 of its die. -/
def onLoupe (s : State) : State := onWarp (fun w => { w with loupe := { w.loupe with place := .loupe 0 0 } }) s
/-- With 32 more warps in every slot of the loupe cluster. -/
def slotsFull (s : State) : State :=
  { s with x := { s.x with
    blocks := s.x.blocks ++ [{ Block.fresh 0 1 ⟨0, 0, [1]⟩ 0 [] 0 with core := 1 }]
    warps := s.x.warps ++ (List.range 32).map fun k =>
      { Warp.fresh ⟨0, 1, k⟩ 0 0 0 with loupe := ⟨.loupe (k / 8) (k % 8), .none, none, 0, 0, 0, none, 0⟩ } } }
def armed (s : State) : State := onLaunch (fun l => { l with dbgArmed := true }) s
/-- The launch in a protected world without a session. -/
def worldly (s : State) : State := onRecord (fun r => { r with world := 1 }) s
/-- Every case: a slot free and none, armed and not, on a loupe core, in a world that no session opens. -/
theorem witness_DebugInstructionResults : holds base (fun c => c.w.onLoupe?.isNone && (c.s.loupeSite? c.b.die).isSome && c.w.frozen.isNone &&
      c.s.debugAllowed c.l && !c.s.splicing c.ref && decide (c.s.slotFor c.ref = some (0, 0) ∧ c.w.loupe.place = .home) && !c.l.dbgArmed) = true ∧
    holds (armed (slotsFull base)) (fun c => (c.s.slotFor c.ref).isNone && c.l.dbgArmed && !c.s.splicing c.ref && c.s.debugAllowed c.l &&
      decide (c.w.loupe.place = .home)) = true ∧
    holds (onLoupe (armed base)) (fun c => c.l.dbgArmed && c.w.onLoupe?.isSome && c.s.debugAllowed c.l) = true ∧
    holds (onLoupe (armed (worldly base))) (fun c => c.w.onLoupe?.isSome && !c.s.debugAllowed c.l) = true ∧
    holds (armed (worldly base)) (fun c => c.w.onLoupe?.isNone && !c.s.debugAllowed c.l) = true ∧
    ([base, slotsFull base, worldly base].all fun s => runs (.loupe false) s && runs (.dbgbrk false) (armed s) && runs (.dbgbrk false) s) = true ∧
    runs (.dbgbrk false) (onLoupe (armed base)) = true ∧ runs (.resume false 0 2) base = true := by decide +kernel

/-- Staging words of a copy of 16 bytes from BSM 0 to BSM 0x100. -/
def copyWords : Staging := ⟨0x0001000000010001, 0, 0x100, 0⟩
def staged (w : Staging) (s : State) : State := onWarp (fun x => { x with staging := w }) s
/-- A forest of 4 elements with a log of 4 entries, in the scratchpad. -/
def smallForest : Forest := ⟨0x20000000, true, 4, 0x20000100, 4⟩
def forested (s : State) : State := onWarp (fun w => { w with forest := some smallForest }) s
/-- An operation of the warp. -/
def opOf (n : Nat) (k : Work) (zs : List Lock) : EngineOp where
  id := n
  ref := home
  closeNo := 1
  pc := 0
  mask := 0xFFFFFFFF
  work := k
  locks := zs
  stage := .held
  posted := true
  finished := false
  err := none
  pendingWrites := []
  view := []
  mmu := ⟨0, 0⟩
  ftbase := 0
  lcore := none
def withOps (os : List EngineOp) (s : State) : State := { s with x := { s.x with ops := os }, nextOp := 100 }
/-- A group of two devices. -/
def grouped (s : State) : State := s.updIface 0 fun f => { f with enabled := true, groups := [(0, ⟨2, 0, 10, [(0, 0), (1, 1)]⟩)] }
/-- Step 0 of a HALVE over 2 elements of F32. -/
def stepWords : Staging := ⟨0x0000000200660001, 0x1000, 0, 7⟩
/-- 64 pending commands; each sub-op accepted and refused; a RELAB of element 0; WAITB of a closed batch and of one ahead. -/
theorem witness_BatchInstructionResults :
    holds (withOps ((List.range 64).map fun n => opOf n (.copy copyWords) []) base) (fun c =>
      decide (64 ≤ (c.s.x.ops.filter fun o => decide (o.ref = c.ref) && !o.finished && o.work.isCommand).length)) = true ∧
    holds (staged copyWords base) (fun c => match c.copyCheck c.w.staging with
      | .ok zs => c.s.rltRoom c.b.coreKey zs.length && decide (zs.length = 2)
      | .error _ => false) = true ∧
    holds base (fun c => match c.copyCheck c.w.staging with | .ok _ => false | .error e => decide (e.1 = .badCommand)) = true ∧
    holds (staged ⟨0x0000000100000000, 0x200, 0, 0⟩ (forested base)) (fun c => match c.relabCheck c.w.staging with
      | .ok x => decide (x.2.length = 2)
      | .error _ => false) = true ∧
    holds base (fun c => match c.relabCheck c.w.staging with | .ok _ => false | .error _ => true) = true ∧
    holds (staged stepWords (grouped base)) (fun c => (c.s.ownChain c.ref c.l.iface 0 7).isNone && !c.stepBad c.w.staging none &&
      !c.l.record.tripod && !c.s.splicing c.ref && c.s.rltRoom c.b.coreKey 0 &&
      decide ((tget (c.s.die c.b.die).discard 8).getD 0 = 0)) = true ∧
    holds base (fun c => !c.w.closeFull && decide (c.w.doneCloses = 0 ∧ c.w.closes = 0 ∧ (1 + 65536 - 0) % 65536 = 1)) = true ∧
    holds (onWarp (fun w => { w with closes := 1 }) base) (fun c => decide (c.w.doneCloses < c.w.closes)) = true ∧
    ([0, 1, 2].all fun n => runs (.ego false n) base) = true ∧ runs (.waitb false (.lit 1)) base = true := by decide +kernel

/-- A format slot of S8 by S8 into S32, in a launch of one strip; an MMA of rows 0 to 7 and one of no row. -/
def matrixBase : State := onRecord (fun r => { r with slots := [0x144] }) base
/-- The engine of the warp with slot 0 filled. -/
def filled (s : State) : State := s.updEngine 0 0 fun e => { e with
  slots := [(0, ⟨0, 4, false, [], false, false, home, 1, 0, []⟩)], banks := [(0, (0, none))] }
theorem witness_MatrixInstructionResults :
    holds matrixBase (fun c => (match c.mloadCheck 0 0 with | .ok zs => decide (zs.length = 1) | .error _ => false) &&
      (match c.drainCheck 0 0x100 0 with | .ok zs => decide (zs.length = 1) | .error _ => false) &&
      c.s.rltRoom c.b.coreKey 1 && decide (c.l.record.accn = 1) && ready c [] && decide (c.s.x.ops = [])) = true ∧
    holds base (fun c => (match c.mloadCheck 0 0 with | .ok _ => false | .error _ => true) &&
      (match c.drainCheck 1 0 0 with | .ok _ => false | .error _ => true)) = true ∧
    ([0x000000FF, 0].all fun q => holds (onPath (fun p => { p with only := some q }) (filled matrixBase)) fun c =>
      decide (c.active = q) && (match c.mmaCheck ⟨0, 0, 0, 0, 0, c.active, (lanesOf c.active).map fun l => (l, 0), none, false, [], [], 0⟩ 63 with
        | .ok qs => decide (qs.length = if q = 0 then 0 else 1) && c.s.rltRoom c.b.coreKey qs.length
        | .error _ => false)) = true ∧
    holds matrixBase (fun c => match c.mmaCheck ⟨0, 0, 0, 0, 0, c.active, [], none, false, [], [], 0⟩ 63 with
      | .ok _ => false | .error e => decide (e.1 = .slotInvalid)) = true := by decide +kernel

/-- A descriptor in s4 to s7 with and without INIT, and one with COUNT 0. -/
def descriptor (n : Word) (s : State) : State := sreg 4 0x20000000 (sreg 5 n (sreg 6 0x20000100 (sreg 7 4 s)))
theorem witness_SpliceInstructionResults : holds (forested base) (fun c => ready c [1, 2, 3]) = true ∧
    ([0x80000004, 0xC0000004].all fun n => holds (descriptor n base) fun c =>
      (c.spinitCheck (c.sr 4) (c.sr 5) (c.sr 6) (c.sr 7)).toOption.isSome && c.s.rltRoom c.b.coreKey 2) = true ∧
    holds (descriptor 0 base) (fun c => match c.spinitCheck (c.sr 4) (c.sr 5) (c.sr 6) (c.sr 7) with
      | .ok _ => false | .error e => decide (e.1 = .badCommand)) = true ∧
    ([.unite false 1 2 (.reg 3), .find false 1 2, .csize false 1 2, .snap false 1, .undo false (.lit 0), .spinit false 4].all fun i =>
      runs i (forested base)) = true := by decide +kernel
/-- The warp with a splice operation on its way, its other path live or not. -/
def owed (s : State) : State :=
  { s with x := { s.x with splices := [⟨9, home, false, 0, false, 4, 0xFFFFFFFF, 0, some smallForest, none, .snap 9⟩] } }
theorem witness_SpliceInstructionResults_waits : holds (owed (onRecord (fun r => { r with cores := true }) (twoPaths base))) (fun c =>
      c.s.splicing c.ref && c.p.carry.isNone && c.l.record.cores && decide (c.p.lanes ≠ ~~~c.w.exited) &&
      ([.unite false 1 2 (.reg 3), .find false 1 2, .csize false 1 2, .vqswap false 1 2 (.lit 0), .brd false 1 2 0, .vshup false 1 2 (.lit 1),
        .vmatch false 1 2, .vvote false 1 2 0, .vred false 1 2 0, .vscan false 1 2 0].all fun i =>
          (directVregs i).all (fun n => decide (n < c.l.record.regs)) && acceptsType c.etype i)) = true ∧
    ([.join false 2, .exit false, .snap false 1, .bar false 0, .vred false 1 2 0].all fun i => runs i (owed (twoPaths base))) = true := by
  decide +kernel

/-! ### Witnesses: events -/

/-- A path parked so, and an outstanding write of each kind. -/
def parked (k : Park) (s : State) : State := onPath (fun p => { p with park := k }) s
def outstanding (s : State) : State :=
  onPath (fun p => { p with park := .marker, writes := [⟨.v 1 31, 5, 0, 0⟩, ⟨.s 63, 6, 0, 1⟩, ⟨.stSet 0, 32, 0, 2⟩, ⟨.stClr 31, 63, 0, 3⟩] }) s
theorem witness_WriteLandingAndStarvation :
    ((outstanding base).path? home false).any (fun p => decide (p.writes.length = 4 ∧ p.park = .marker)) = true ∧
    ((outstanding base).warp? home).any (fun w => !w.heldAt) = true ∧
    ([0, 1, 2, 3].all fun k => runs (.writeLanding home false k) (outstanding base)) = true ∧
    idle (.writeLanding home false 4) (outstanding base) = true ∧
    ((onPath (fun p => { p with starve := 64 }) base).path? home false).any (fun p => decide (64 ≤ p.starve) && !p.starved) = true ∧
    runs (.pathStarvation home false) (onPath (fun p => { p with starve := 64 }) base) = true := by decide +kernel

/-- The image of one WAITF on s2, EQ, limit 5; a path parked in it that has seen 7, or whose time is over. -/
def waiting (v : Word) (t : DWord) : State :=
  { onPath (fun p => { p with park := .waitf 0 0, waitOn := some (0, v), waitStart := some 0 })
      { State.reset.loadProbe ((encode (.waitf false 0 2 5)).flatMap bytesOf) with agenda := [], issuer := some ⟨home, false⟩ } with time := t }
/-- The word has been written since. -/
def woken (s : State) : State := { s with x := { s.x with blocks := s.x.blocks.map fun b => { b with woken := [(home, false, 1)] } } }
/-- An acknowledging window whose host has acknowledged k images. -/
def acking (k : Nat) (s : State) : State :=
  s.updIface 0 fun f => { f with enabled := true, windows := [(3, ⟨0, 64, 0x1000, true, 0, [], 0, k⟩)] }
theorem witness_WaitEvents : ((parked .fence base).ctxAt? home false).any (fun c => decide (c.p.park = .fence)) = true ∧
    ((parked (.yield 0) base).ctxAt? home false).any (fun c => decide (c.p.park = .yield 0 ∧ (0 : DWord).toNat ≤ c.s.schedClk c.w)) = true ∧
    ((woken (waiting 1 0)).ctxAt? home false).any (fun c => decide (localPlace c.l 0 0 4 = some (.bsm 0 0, 0)) && !c.l.record.tripod &&
      decide (0 < c.s.wokenAt (.bsm 0 0) home false)) = true ∧
    ([0, 1].all fun v => ((waiting v 5).ctxAt? home false).any fun c => c.s.warpRuns c.w && c.w.onLoupe?.isNone && (c.check .load 0 4).toOption.isSome && !c.s.softAt (.bsm 0 0) 0 4 &&
      (match c.s.decodeAt c.l c.p.pc with
        | .instr (.waitf _ d _ lim) _ => decide (d = 0) && decide (lim.toNat ≤ (c.s.time - c.p.waitStart.getD c.s.time).toNat)
        | _ => false)) = true ∧
    ((parked (.publish 3) (windowed 0 base)).ctxAt? home false).any (fun c =>
      (tget (c.s.iface c.l.iface).windows 3).any (fun x => !x.ack) && !c.s.recovering && decide (c.b.die < 8 ∧ (c.s.die c.b.die).discard = [])) = true ∧
    runs (.publishComplete home false) (parked (.publish 3) (acking 1 base)) = true ∧
    idle (.publishComplete home false) (parked (.publish 3) (acking 0 base)) = true ∧
    runs (.publishComplete home false) (parked (.publish 3) base) = true ∧
    ((parked (.selftest 4 0x104 0) base).ctxAt? home false).isSome = true ∧
    runs (.fenceComplete home false) (parked .fence base) = true ∧ runs (.yieldExpiry home false) (parked (.yield 0) base) = true ∧
    runs (.waitfWake home false) (woken (waiting 1 0)) = true ∧ idle (.waitfWake home false) (waiting 1 0) = true ∧ runs (.waitfTimeout home false) (waiting 1 5) = true ∧
    runs (.publishComplete home false) (parked (.publish 3) (windowed 0 base)) = true ∧
    runs (.selftestDone home false ⟨false, 1, 2⟩) (parked (.selftest 4 0x104 0) base) = true := by decide +kernel

/-- A tripod warp that has ended its frame with a store in its buffer. -/
def frameDone : State :=
  onWarp (fun w => { w with frame := { w.frame with ended := true, buf := [.store (.bsm 0 0) 4 [1, 2, 3, 4], .red (.bsm 0 0) 8 .add 0 5] } })
    (onRecord (fun r => { r with tripod := true }) base)
theorem witness_CommitAndBatchEvents : frameDone.commitNo 0 0 = some 0 ∧ (frameDone.launch? 0).any (fun l => l.record.tripod) = true ∧
    (frameDone.x.warps.all fun w => decide (w.frame.applyOps = []) && w.frame.splice.isNone && w.frame.ended && !w.ended) = true ∧
    ((frameDone.placeMem (.bsm 0 0)).any Memory.wf) = true ∧ runs (.frameCommit 0 0) frameDone = true ∧
    ((onWarp (fun w => { w with closes := 1 }) base).warp? home).any (fun w => !w.ended && decide (w.doneCloses < w.closes)) = true ∧
    base.x.ops = [] ∧ runs (.batchCompletion home) (onWarp (fun w => { w with closes := 1 }) base) = true := by decide +kernel

/-- The two ranges of `copyWords`, and the states in which one operation is pending. -/
def copyLocks : List Lock := [⟨0, .bsm 0 0, 0, 16, false, 0⟩, ⟨0x100, .bsm 0 0, 0x100, 16, true, 0⟩]
def copying : State := withOps [opOf 5 (.copy copyWords) copyLocks] base
def atomicOp : State := withOps [opOf 5 (.copy ⟨0x0001000000008105, 0, 0x1000, 0⟩) []] base
def loading : State := withOps [opOf 5 (.mload 0 0) [⟨0, .bsm 0 0, 0, 16384, false, 0⟩]] (filled matrixBase)
def zeroing : State := withOps [opOf 5 (.mzero 0) []] matrixBase
def draining : State := withOps [opOf 5 (.mdrain 0 0 0 false) [⟨0, .bsm 0 0, 0, 16384, true, 0⟩]]
  (matrixBase.updEngine 0 0 fun e => { e with strips := [(0, ⟨[], [], none, []⟩)] })
theorem witness_EngineCompletionEvents :
    ([copying, atomicOp, loading, zeroing, draining].all fun s => (s.opCtx? 5).any fun c => s.mayPerform c.l c.o) = true ∧
    (copyWords.kind = 1 ∧ copyWords.scale = false ∧ copyWords.expand = false ∧ copyWords.sealed = false ∧ copyWords.rows = 1 ∧
      overlaps 0 copyWords.srcExtent 0x100 copyWords.dstExtent = false) ∧ (copying.placeMem (.bsm 0 0)).any Memory.wf = true ∧
    (⟨0x0001000000008105, 0, 0x1000, 0⟩ : Staging).kind = 5 ∧
    ([zeroing, draining].all fun s => !s.stripReplay (s.engine 0 0) 0 && decide ((s.engine 0 0).soft = [])) = true ∧
    (loading.opCtx? 5).any (fun c => !loading.slotsInPass c.b.die c.b.site (c.o.work.slots c.l.record) &&
      decide (slotB (c.l.record.fslot 0) = 4) && !slotRed (c.l.record.fslot 0) && !c.l.record.tripod &&
      decide (tget (loading.engine c.b.die c.b.site).banks 0 = some (0, none))) = true ∧
    (draining.opCtx? 5).any (fun c => !c.l.record.red && slotLegal (c.l.record.fslot 0) &&
      decide (drainRow (c.l.record.fslot 0) ≤ drainPitch (c.l.record.fslot 0) 0) &&
      (tget (draining.engine c.b.die c.b.site).strips (c.b.stripBase + 0)).isSome) = true ∧
    runs (.copyEngineCompletion 5) copying = true ∧ runs (.mainMemoryAtomicCompletion 5) atomicOp = true ∧
    runs (.stripOperationCompletion 5) zeroing = true ∧
    runs (.bankPeriodicCheck 0 0 1) { base with time := 2100000 } = true ∧ idle (.bankPeriodicCheck 0 0 1) base = true := by decide +kernel

/-- An MMA of rows 0 to 7 by slot 0 into strip 0, before its latches, waiting, and in a pass. -/
def job (ls : Option (List Latch)) (there : Bool := true) : MmaJob := ⟨0, 0, 0, 0, 0, 0xFF, [(0, 3)], ls, there, [], [0], 0⟩
def multiplying (ls : Option (List Latch)) (there : Bool := true) : State := withOps [opOf 5 (.mma (job ls there)) []] (filled matrixBase)
def quarter : Quarter := ⟨5, 0, 0xFF, 0, 0⟩
def granted : State := (multiplying (some [])).updEngine 0 0 fun e => { e with mrt := [quarter] }
def passing : State := (multiplying (some [])).updEngine 0 0 fun e => { e with passes := [⟨7, [quarter]⟩] }
def missing : State := (multiplying (some [])).updEngine 0 0 fun e =>
  { e with replays := [⟨5, 0, ⟨0, 3, 1, 0, 0, 0, false, none⟩, [(0, 0, 0)], []⟩] }
theorem witness_MatrixPassEvents :
    (((arbiterOrder 0 (granted.engine 0 0).mrt).filterMap granted.request?).find?
      (fun r => granted.rowsReady (granted.engine 0 0) r [] && granted.banksReady (granted.engine 0 0) r)).any (fun g =>
        (g.c.o.work.slots g.c.l.record).all fun n => !(granted.engine 0 0).slotFails (g.c.l.record.fslot g.j.fslot) n) = true ∧
    ((passing.engine 0 0).passes.find? (fun p => decide (p.id = 7))).any (fun p => decide (p.quarters = [quarter])) = true ∧
    (passing.request? quarter).any (fun r => decide (r.c.b.die = 0 ∧ r.c.b.site = 0 ∧ r.j.latches = some [] ∧ 0 < descNs r.j.desc) &&
      decide (lanesOf quarter.rows ≠ []) && !passing.passHeld (passing.engine 0 0) 7 [quarter] && !(passing.engine 0 0).softFor r) = true ∧
    ((multiplying none false).opCtx? 5).any (fun c => decide (c.o.work = .mma (job none false)) && (multiplying none false).mayLatch c) = true ∧
    ((multiplying (some []) false).opCtx? 5).any (fun c => decide (c.o.work = .mma (job (some []) false))) = true ∧
    runs (.filterEntryRead 5) (multiplying (some []) false) = true ∧ runs (.passCompletion 0 0 7) passing = true ∧
    ((missing.engine 0 0).replays.find? (fun r => decide (r.op = 5) && decide (r.row = 0))).any (fun r => decide (r.missing[0]? = some (0, 0, 0))) = true ∧
    runs (.mrtGrant 0 0) granted = true ∧ runs (.filterEntryRead 5) (multiplying none false) = true ∧
    runs (.filterSliceArrival 5 0 0) missing = true := by decide +kernel

/-- A forest whose element 2 has parent 1, and a request of the warp. -/
def splicing (k : SpliceWork) : State :=
  let s := forested base
  { s with nextOp := 100, x := { s.x with
    spans := s.x.spans.map fun z => { z with spad := [(4, 1), (8, 1), (12, 2), (16, 1), (24, 3), (28, 1)] }
    splices := [⟨9, home, false, 0, false, 4, 0xFFFFFFFF, 0, some smallForest, none, k⟩] } }
def ready' (k : SpliceWork) : Bool :=
  let s := splicing k
  (findBy SpliceReq.id 9 s.x.splices).any fun q => (s.ctxAt? q.ref q.slot).any fun c => c.w.forest.any fun f =>
    (f.at? c.l q.ref.block).any fun x => !s.foreignForest x && !s.spliceWaits q && !c.l.record.tripod && !s.logOpen x && !s.logSpoilt x &&
      ((List.range 4).all fun i => !s.spoilt x i) && decide (q.forest = some f ∧ q.id ∉ c.p.pending) && !c.w.heldAt &&
      decide (f.count = 4 ∧ f.logCap ≠ 0 ∧ s.x.splices = [q] ∧ q.work = k ∧ q.soft = 0) &&
      (s.placeMem x.rec'.1).any Memory.wf && (s.placeMem x.log.1).any Memory.wf &&
      decide (overlaps x.rec'.2 x.f.recBytes x.log.2 x.f.logBytes = false) &&
      decide (s.parent x 0 = 0 ∧ s.parent x 1 = 1 ∧ s.parent x 2 = 1 ∧ s.parent x 3 = 3)
/-- The walk from element 2 goes over 2 to the root 1. -/
theorem witness_FindReturnsRoots : ready' (.find 5 [(0, 2), (1, 0)]) = true ∧
    runs (.spliceApply 9) (splicing (.find 5 [(0, 2), (1, 0)])) = true := by decide +kernel
/-- An INIT and a RELAB of elements 0 to 3 into BSM. -/
def initing : State := withOps [opOf 5 (.spinit smallForest)
  [⟨0x20000000, .spad 0 0, 0, 32, true, 0⟩, ⟨0x20000100, .spad 0 0, 0x100, 80, true, 0⟩]] (forested base)
def relWords : Staging := ⟨0x0000000400000000, 0x200, 0, 0⟩
def relabing : State := { splicing (.snap 0) with x := { (splicing (.snap 0)).x with splices := [], ops :=
  [opOf 5 (.relab smallForest relWords) [⟨0x200, .bsm 0 0, 0x200, 16, true, 0⟩, ⟨0x20000000, .spad 0 0, 0, 32, false, 0⟩]] } }
theorem witness_SpliceEngineEvents :
    ([.unite 5 [(0, 2, 1)], .unite 5 [(0, 2, 3)], .csize 5 [(31, 3)], .snap 9, .undo 0xFFFFFFFF].all fun k =>
      ready' k && runs (.spliceApply 9) (splicing k)) = true ∧
    ([initing, relabing].all fun s => (s.opCtx? 5).any fun c => s.mayPerform c.l c.o && (smallForest.at? c.l 0).any fun x =>
      decide (x.rec' = (.spad 0 0, 0) ∧ x.log = (.spad 0 0, 0x100)) && !s.forestWaits c.l c.o x) = true ∧
    relWords.relN = 4 ∧ relWords.relFirst = 0 ∧ (relabing.placeMem (.bsm 0 0)).any Memory.wf = true ∧
    runs (.spinitInitCompletion 5) initing = true ∧ runs (.relabCompletion 5) relabing = true := by decide +kernel

/-- A HALVE of two devices at rank 0 whose step 0 has begun with the words 1.0 and 2.0, its partner's data there. -/
def segmentOf : Segment := ⟨0, 0, 7, 1, 1, 2, 6, 6, 0, [0x3F800000]⟩
def chainOf' : Chain := ⟨3, 0, 0, 7, home, 1, 6, 6, 2, 1, 0, false, true, true, [0x3F800000, 0x40000000], none, 0, [], []⟩
def halving (h : List HeldSegment) (t : DWord) : State :=
  let s := withOps [opOf 5 (.step 3 stepWords) []] (grouped base)
  { s with time := t, ctl := { s.ctl with chains := [chainOf'], held := h } }
def relayed (id : DWord) : State := (grouped base).updIface 0 fun f => { f with groups := [(0, ⟨2, 0, 10, [(0, 5), (1, id)]⟩)] }
theorem witness_CollectiveAndPortEvents :
    ((halving [⟨segmentOf, 0⟩] 0).stepCtx? 5).any (fun x => x.c.begun && decide (x.w.stStep = x.c.doneSteps ∧ x.c.kind = 1) &&
      ((halving [⟨segmentOf, 0⟩] 0).heldFrom x.c (halvePartner x.g x.w.stStep)).any (fun h => x.matchesSeg h.seg &&
        decide (h.clk.toNat < x.c.since.toNat + x.g.timeoutUs * 2100)) && !x.w.stLast) = true ∧
    (let seg : Segment := { segmentOf with data := [] }
     let s : State := { grouped base with ctl := { (grouped base).ctl with held := [⟨seg, 0⟩] } }
     (grouped base).ctl.chains = [] ∧ s.purgeHeld.ctl.held = [⟨seg, 0⟩] ∧ sameStep seg seg = true ∧
       runs (.segmentArrival seg) s = true ∧ runs (.segmentArrival seg) (grouped base) = true) ∧
    ((halving [] 21000).stepCtx? 5).any (fun x => ((halving [] 21000).stepResult x).isNone &&
      decide (x.g.timeoutUs * 2100 ≤ ((halving [] 21000).time - x.c.since).toNat)) = true ∧
    ((grouped base).groupOf 0 0).isSome = true ∧ (grouped base).segmentUsed segmentOf = false ∧ (grouped base).x.ops = [] ∧
    (let s : State := { grouped base with time := 21000, ctl := { (grouped base).ctl with held := [⟨segmentOf, 0⟩] } }
     (s.groupOf 0 0).any (fun g => decide (g.timeoutUs * 2100 ≤ (s.time - 0).toNat)) = true ∧ runs (.segmentDiscard 0) s = true) ∧
    (relayed 6).portUp 0 = true ∧ (relayed 6).portUp 1 = true ∧ (relayed 6).serial = 0 ∧
    ((relayed 6).groupOf 0 0).any (fun g => decide (g.routes.find? (fun r => decide (r.2 = 6)) = some (1, 6))) = true ∧
    ([⟨false, 0, 0, 6, none⟩, ⟨true, 0, 0, 6, none⟩, ⟨true, 0, 1, 6, none⟩].all fun f => runs (.flitArrival 0 f) (relayed 6)) = true ∧
    ([⟨0, 1, 0, none, gddrStride + 64, [1, 2], false⟩, ⟨0, 1, 2, none, gddrStride, [], false⟩, ⟨0, 8, 0, none, lpddrBase, [], false⟩,
      ⟨1, 0, 0, some 5, gddrStride, [], true⟩, ⟨0, 1, 2, some 5, gddrStride, [], false⟩].all fun m =>
        (halving [] 0).messageOk m && runs (.diePortMessage m) (halving [] 0)) = true ∧
    ((halving [] 0).op? 5).any (fun o => ((halving [] 0).launch? o.ref.launch).isSome && !o.finished) = true ∧
    base.unitKey (gddrStride + 65) = base.keyOf 0 ∧ (base.die 1).world = 0 ∧ (base.die 1).st = .running ∧
    (let s := base.updDie 1 fun d => { d with st := .recovering 0 }
     (s.die 1).st ≠ .running ∧ runs (.diePortMessage ⟨0, 1, 0, none, gddrStride + 64, [1, 2], false⟩) s = true) ∧
    runs (.collectiveStepCompletion 5) (halving [⟨segmentOf, 0⟩] 0) = true ∧ runs (.collectiveTimeout 5) (halving [] 21000) = true ∧
    runs (.segmentArrival segmentOf) (grouped base) = true := by decide +kernel

/-- The warp on its way to a loupe slot, on its way home, idle for WDOG clocks with a slot free and with none. -/
def leaving : State := onWarp (fun w => { w with loupe := { w.loupe with place := .leaving 3 7 } }) base
def returning : State := onWarp (fun w => { w with loupe := { w.loupe with place := .returning } }) base
def lazy' (s : State) : State := (onWarp (fun w => { w with idle := 1024 }) s).updLoupe 0 fun x => { x with ctl := { x.ctl with wdog := 1024 } }
def wanting (s : State) : State := onWarp (fun w => { w with loupe := { w.loupe with place := .wanting 4 } }) s
theorem witness_LoupeEvents_transfer :
    ([leaving, returning].all fun s => (s.warp? home).any fun w => w.loupe.brk.isNone && s.mayArrive w &&
      [false, true].all fun k => (w.path? k).all fun p => p.writes.isEmpty) = true ∧
    ([base, slotsFull base].all fun s => (lazy' s).ctx?.any fun c => !c.w.ended && decide (c.w.loupe.place = .home) &&
      ((lazy' s).loupeSite? c.b.die).isSome && (lazy' s).debugAllowed c.l && decide (1024 ≤ c.w.idle)) = true ∧
    (wanting base).slotFor home = some (0, 0) ∧ (base.slotFor home).isSome = true ∧ (slotsFull base).slotFor home = none ∧
    ([leaving, returning, wanting base].all fun s => runs (.transferComplete home) s) = true ∧
    runs (.stallWatchdog home) (lazy' base) = true ∧ runs (.stallWatchdog home) (lazy' (slotsFull base)) = true := by decide +kernel

/-- A hit of watchpoint 5 by lane 0, with another predicate to follow or not, waiting or running. The darkroom core stands at a
PC; at 0x1000 lies a store to the doorbell. -/
def hitOf (more : List (Nat × LaneMask)) (run : Bool) : Hit :=
  ⟨1, home, false, 0, 0, 0, false, (5, 1) :: more, 5, 1, [(0, 7, 8)], false, false, false, run, 0, none, 0⟩
def hitting (h : Hit) (pc : Word) (t : DWord) : State :=
  { (onLoupe base).updLoupe 0 fun x => { x with
      hits := [h], sram := writeBytes [] 0x1000 (bytesOf 0x10A02423), dark := ⟨[], pc, 0, 0⟩ } with time := t }
/-- Another predicate follows, or the event ends; the call's time is not over, or is. -/
theorem witness_LoupeEvents_predicate : ([[], [(6, 1)]].all fun more =>
      ([false, true].all fun run => decide (((hitting (hitOf more run) 1 0).die 0).loupe.hits = [hitOf more run]) &&
        ((hitting (hitOf more run) 1 0).warp? home).isSome) &&
      runs (.predicateStart 0) (hitting (hitOf more false) 1 0)) = true ∧
    ((hitting (hitOf [] false) 1 0).die 0).loupe.sram.wf = true ∧ (hitting (hitOf [] true) 1 0).darkAge 0 ≤ 12288 ∧
    12288 ≤ (hitting (hitOf [] true) 1 12288).darkAge 0 := by decide +kernel
/-- The three ways that a call goes on. -/
def calling (pc : Word) : LoupeCluster := ((hitting (hitOf [] true) pc 0).die 0).loupe
theorem witness_LoupeEvents_ends :
    (∃ c m, (calling darkReturn).leaves [] m = true ∧ (calling darkReturn).runDark 4096 = (c, m, .returned)) ∧
    (∃ c m, (calling 1).leaves [] m = true ∧ (calling 1).runDark 4096 = (c, m, .exception)) ∧
    (∃ c m data, (calling 0x1000).leaves [] m = true ∧ (calling 0x1000).runDark 4096 = (c, m, .rang data)) ∧
    (calling 1).leaves [] ((hitting (hitOf [] true) 1 12288).darkStopped 0).2 = true :=
  ⟨⟨_, _, LoupeCluster.leaves_nil _, darkRun_returned 4096 _ _ rfl⟩,
    ⟨_, _, LoupeCluster.leaves_nil _, darkRun_exception 4095 ⟨[], 1, 0, 0⟩ _ (by decide) (by decide +kernel)⟩,
    ⟨_, _, _, LoupeCluster.leaves_nil _, darkRun_rang 4095 ⟨[], 0x1000, 0, 0⟩ (calling 0x1000).sram (by decide)
      (c' := ⟨[], 0x1004, 1, 0⟩) (x := ⟨(calling 0x1000).sram, [0], true⟩) (by decide +kernel) rfl (by decide)⟩,
    by rw [State.darkStopped_stuck _ _ (by decide +kernel) (by decide +kernel)]; exact LoupeCluster.leaves_nil (calling 1)⟩

/-- Page 0 of interface 0 mapped to physical page 0x400000 with every right; queue 0 with its entries in a ring of 4 at
host address 0. -/
def mapped (s : State) : State :=
  let put (m : Memory) (a v : Nat) : Memory := writeBytes m a (leBytes 8 v)
  ({ s with mem := put (put (put s.mem 0x100000 0x200001) 0x200000 0x300001) 0x300000 0x40001F } : State).updIface 0 fun f => { f with enabled := true, ptroot := 0x100000 }
def queued (es : List Nat) (s : State) : State :=
  (({ s with mem := writeBytes s.mem hostBase (es.flatMap fun e => leBytes 256 e) } : State).updIface 0 fun f =>
    { f with enabled := true, qcount := 4 }).updQueue 0 0 fun x => { x with log2n := 2, weight := 1, tail := es.length, cmplPa := 0x10000 }
/-- Copies of 16 bytes from VA 0x100 of main memory to BSM 0x200, from BSM 0 to VA 0x100, from VA 0x100 to VA 0x200, and an atomic
at VA 0x1000 that returns nothing. -/
def mainOp (w : Staging) (zs : List Lock) : State := mapped (withOps [{ opOf 5 (.copy w) zs with mmu := ⟨0, 0x100000⟩ }] base)
def fetching : State := mainOp ⟨0x0001000000010002, 0x100, 0x200, 0⟩ [⟨0x200, .bsm 0 0, 0x200, 16, true, 0⟩]
def putting : State := mainOp ⟨0x0001000000010003, 0, 0x100, 0⟩ [⟨0, .bsm 0 0, 0, 16, false, 0⟩]
def moving : State := mainOp ⟨0x0001000000010004, 0x100, 0x200, 0⟩ []
def adding : State := mainOp ⟨0x0001000000008105, 0, 0x1000, 0⟩ []
def reaches (c : OpCtx) (s : State) (va n : Nat) (need : Need) (pa : Nat) : Bool :=
  decide (0 < n ∧ va % 65536 + n ≤ 65536 ∧ va + n ≤ 2 ^ 52 ∧ s.mem.wf = true) &&
  decide ((s.transVia (some c.b.die) c.o.mmu va need c.l.record.world).1 = .ok pa) && s.isDram pa &&
  ((List.range n).all fun i => decide (s.unitKey (pa + i) = s.keyOf c.l.record.world)) &&
  (s.portRefuses (some c.b.die) c.l.record.world pa).isNone &&
  s.x.dies.all fun d => decide (d.2.st = .running ∧ d.2.held = [] ∧ d.2.replayed = [] ∧ d.2.discard = [])
/-- A die of a state whose listed dies all meet a property that a fresh die has meets it. -/
theorem die_all {P : Die → Prop} {s : State} (h0 : P Die.fresh) (h : ∀ d ∈ s.x.dies, P d.2) (d : Nat) : P (s.die d) := by
  have mem : ∀ (t : Table Die) (x : Die), tget t d = some x → (d, x) ∈ t := by
    intro t
    induction t with
    | nil => intro x h; cases h
    | cons a r ih =>
      intro x h
      simp only [tget] at h
      split at h
      · cases h; subst_vars; exact .head _
      · exact .tail _ (ih x h)
  show P ((tget s.x.dies d).getD Die.fresh)
  cases e : tget s.x.dies d with
  | none => exact h0
  | some x => exact h _ (mem _ _ e)
theorem reaches_of {c : OpCtx} {s : State} {va n : Nat} {need : Need} {pa : Nat} (h : reaches c s va n need pa = true) :
    c.Reaches s va n need pa := by
  simp only [reaches, Bool.and_eq_true, decide_eq_true_eq, List.all_eq_true, List.mem_range, Option.isNone_iff_eq_none] at h
  obtain ⟨⟨⟨⟨⟨⟨h1, h2, h3, h4⟩, h5⟩, h6⟩, h7⟩, h8⟩, h9⟩ := h
  exact ⟨⟨h1, h2, h3⟩, h4, h5, h6, h7, h8, die_all (P := fun d => d.st = .running ∧ d.held = [] ∧ d.replayed = [] ∧ d.discard = []) ⟨rfl, rfl, rfl, rfl⟩ h9⟩
/-- With `reaches_of`: the premises of the main-memory clauses. -/
theorem witness_EngineCompletionEvents_main : ([fetching, putting, moving, adding].all fun s => (s.opCtx? 5).any (fun c => s.mayPerform c.l c.o) &&
      (s.warp? home).any fun u => !u.ended) = true ∧
    (fetching.opCtx? 5).any (fun c => reaches c fetching 0x100 16 .rd 0x400100) = true ∧
    (putting.opCtx? 5).any (fun c => reaches c putting 0x100 16 .w 0x400100) = true ∧
    (moving.opCtx? 5).any (fun c => reaches c moving 0x100 16 .rd 0x400100 &&
      reaches c (moving.readVa (some c.b.die) c.o.mmu c.l.record.world 0x100 16).s 0x200 16 .w 0x400200) = true ∧
    (adding.opCtx? 5).any (fun c => reaches c adding 0x1000 8 .atom 0x401000) = true ∧
    ([fetching, putting, moving].all fun s => runs (.copyEngineCompletion 5) s) = true ∧
    runs (.mainMemoryAtomicCompletion 5) adding = true ∧
    (fetching.placeMem (.bsm 0 0)).any Memory.wf = true := by decide +kernel
/-- A legal launch record of one block of one warp, with an image of 8 bytes at VA 0, and one of world 1. -/
def recordOf : Nat := 8 * 2 ^ 64 + 2 ^ 192 + 2 ^ 224 + 2 ^ 240 + 2 ^ 256 + 2 ^ 264 + 8 * 2 ^ 288 + 2 ^ 312
def launchOf (st : Stage) (r : LaunchRecord) : Launch := { Launch.fresh 0 0 0 0 r with stage := st }
/-- A launch in a stage, on an empty device. -/
def launching (st : Stage) (r : LaunchRecord) (s : State) : State :=
  { s with nextUid := 2, x := { s.x with launches := [launchOf st r, { launchOf (.completed .ok) r with uid := 1, id := 5 },
      { launchOf (.completed .faulted) r with uid := 2, id := 6 }] } }
/-- Dependences on launches 5 and 6. -/
def depends (n : Nat) : LaunchRecord := { LaunchRecord.ofBits recordOf with deps := [BitVec.ofNat 64 (2 ^ 63 + n)] }
theorem witness_LaunchEvents :
    (let s : State := { queued [recordOf] State.reset with time := 21000000 }
     (s.headLevel 0 0).isSome = true ∧ runs (.priorityAging 0 0) s = true) ∧
    ([recordOf, 0, recordOf + 2 ^ 608].all fun v => ((queued [v] (mapped State.reset)).chooseLaunch).isSome &&
      runs .launchQueueExit (queued [v] (mapped State.reset))) = true ∧
    ((LaunchRecord.ofBits recordOf).ok 4 = true ∧ (LaunchRecord.ofBits 0).ok 4 = false ∧
      (LaunchRecord.ofBits (recordOf + 2 ^ 608)).ok 4 = true ∧ (LaunchRecord.ofBits (recordOf + 2 ^ 608)).world = 1) ∧
    ([5, 6].map fun n => (launching .dependences (depends n) State.reset).depStatus 0 (BitVec.ofNat 64 (2 ^ 63 + n))) = [some .ok, some .faulted] ∧
    ([5, 6].all fun n => runs (.dependenceResolution 0) (launching .dependences (depends n) State.reset)) = true ∧
    (let s := launching .placement (LaunchRecord.ofBits recordOf) (mapped State.reset)
     (s.readVa none (s.mmu 0) 0 0 8).fault = none ∧ runs (.launchDispatch 0) s = true) ∧
    (let s := launching .placement (LaunchRecord.ofBits recordOf) State.reset
     (s.readVa none (s.mmu 0) 0 0 8).fault.isSome = true ∧ runs (.launchDispatch 0) s = true) ∧
    (let s := launching .running (LaunchRecord.ofBits recordOf) State.reset
     (s.launch? 0).any (fun l => l.mayPlace 0 && s.placeOk l ⟨0, 0, [0]⟩ && s.roomFor l 0 ⟨0, 0, [0]⟩ && l.stopping.isNone &&
       !s.recovering && decide (l.record.cores = false ∧ l.record.argSize = 0 ∧ l.sampled = [] ∧ l.record.cluster = 1)) = true ∧
     runs (.blockPlacement 0 0 [⟨0, 0, [0]⟩]) s = true) ∧
    (let s := onWarp (fun w => { w with ended := true, p0 := none, exited := 0xFFFFFFFF }) base
     (s.block? 0 0).any s.releasable = true ∧ runs (.blockRelease 0 0) s = true) ∧
    runs (.energyBudgetUpdate 0 4) base = true := by decide +kernel

/-- A launch with a peer block ended: the block drains; a saved one. -/
def peerEnded (n : Nat) (s : State) : State := onLaunch (fun l => { l with endedBlocks := 1, endedRetired := n }) s
def limited (s : State) : State := s.updDie 0 fun d => { d with drainLimit := 100 }
def saving : State :=
  let base := onRecord (fun r => { r with affinity := 1 }) base
  { base with x := { base.x with blocks := base.x.blocks.map fun b => { b with pre := .saving } } }
/-- The save of that launch, as SAVE_COMPLETE leaves it, without its engine and span. -/
def savedOf (u : State) : State :=
  { u with ctl := { u.ctl with saves := u.ctl.saves.map fun z => { z with engines := [], spans := [] } } }
theorem witness_PreemptionEvents :
    (let s := peerEnded 50 (limited base)
     ((s.launch? 0).any fun l => (s.unitBlocks l 0).any fun b => !b.released && !s.blockEnded b && decide (b.pre = .running) &&
       l.stopping.isNone && decide (s.together l b = [b] ∧ s.blockEstimate l b 1000 = some 50 ∧ 50 ≤ (s.die b.die).drainLimit)) = true ∧
     runs (.preemption 0 0 1000) s = true) ∧
    ([true, false].all fun idem => let s := onRecord (fun r => { r with idem := idem }) (limited base)
     ((s.launch? 0).any fun l => (s.unitBlocks l 0).any fun b => (s.blockEstimate l b 0).isNone && !b.ext) && runs (.preemption 0 0 0) s) = true ∧
    ((saving.unitBlocks ((saving.launch? 0).getD (Launch.fresh 0 0 0 0 (LaunchRecord.ofBits 0))) 0).any (fun b => decide (b.pre = .saving))) = true ∧
    (let s := { saving with x := { saving.x with blocks := saving.x.blocks.map fun b => { b with pre := .flushing } } }
     ((s.launch? 0).any fun l => s.saveReady (s.unitBlocks l 0) && l.stopping.isNone) && runs (.saveComplete 0 0) s) = true ∧
    (let s := { base with x := { base.x with blocks := base.x.blocks.map fun b => { b with pre := .draining 0 } } }
     (s.block? 0 0).any (fun b => !s.blockEnded b && !b.released) = true ∧ runs (.drainLimitExpiry 0 0) s = true) ∧
    ((saving.launch? 0).any fun l => saving.saveReady (saving.unitBlocks l 0) && l.stopping.isNone) = true ∧
    runs (.saveComplete 0 0) saving = true ∧
    after (.saveComplete 0 0) saving (fun u => let s := savedOf u
      (s.launch? 0).any (fun l => l.stopping.isNone && !s.recovering && (s.ctl.saves.find? fun z => decide (z.launch = 0) && decide (z.unit = 0)).any fun z =>
        decide (z.blocks ≠ []) && z.clusters.length == 1 && z.clusters.all fun c => s.restoreFits l z c ⟨0, 0, [0]⟩ &&
          z.blocks.all fun b => decide (b.launch = l.uid) && !b.released && decide (l.record.clusterOf b.id = c.num) &&
            z.warps.any fun w => decide (w.ref.block = b.id)) && runs (.restore 0 0 [⟨0, 0, [0]⟩]) s) = true := by decide +kernel

/-- A queue that grants interface 1 nothing yet; an idle lane of class 1, a busy one of class 3. -/
theorem witness_HostRegisterEvents :
    (let s := queued [] State.reset
     s.ctl.power = .up ∧ (s.iface 0).enabled = true ∧ 0 < s.qcountOf 0 ∧ (s.queue 0 0).accepts 0 0 = false ∧
     ((s.updQueue 0 0 fun x => { x with weight := 0 }).queue 0 0).accepts 0 (5 + 4 * 2 ^ 24 + 0x10000 * 2 ^ 64) = true ∧
     (let x := s.queue 0 0
      (x.tail + (5 + 2 ^ 32 - x.tail % 2 ^ 32) % 2 ^ 32 = 5 ∧ x.done + 2 ^ x.log2n = 4)) ∧
     ([4, 5].all fun v => runs (.doorbell 0 0 v) s) = true) ∧
    ((State.reset.iface 1).enabled = false ∧ State.reset.grantSum 1 8192 ≤ 8192 ∧ 8192 < State.reset.grantSum 1 8193) ∧
    (runs (.interfaceGrantWrite 127 0xFF0004) State.reset = true ∧ runs (.virtualInterfaceEnable 1 true) State.reset = true ∧
     runs (.registerWrite 0 0 7) State.reset = true ∧ runs (.islandRegisterWrite 0 0 1000) State.reset = true) ∧
    (State.reset.islandOk 0 25 0 = true ∧ State.reset.islandOk 0 26 0 = false ∧ State.reset.islandOk 1 0 0 = false) ∧
    ([(State.reset, 0), (base, 3)].all fun x => let v := 2 ^ 63 + 2 ^ 24 + x.2
      (BitVec.ofNat 64 v).getLsbD 63 && marginLegal v && !x.1.marginFenced v && !x.1.marginProtected v && !x.1.ctl.marginBusy &&
      (x.1.marginBusy v == decide (x.2 = 3)) && runs (.marginGo 0 (BitVec.ofNat 64 v)) x.1) = true ∧
    runs (.marginDone true 3) { State.reset with ctl := { State.reset.ctl with marginBusy := true } } = true ∧
    (tget ((windowed 0 base).iface 0).windows 3).any (fun w => decide (63 < w.bytes)) = true ∧
    runs (.publicationWindowRead 0 3 63) (windowed 0 base) = true := by decide +kernel

/-- A command entry of an opcode with its dwords from the first. -/
def commandOf (op : Nat) (ds : List Nat) : Nat := op + leNat (ds.flatMap fun d => leBytes 8 d) * 2 ^ 64
def commanding (op : Nat) (ds : List Nat) : State := queued [commandOf op ds] (mapped State.reset)
/-- The command is at the head, its entry clean. -/
def atHead (op : Nat) (ds : List Nat) (used : List Nat) : Bool :=
  let s := commanding op ds
  decide (s.headEntry 0 0 = some 0) && (s.queue 0 0).quiet && decide (leNat (s.entryBytes 0 0 0 64) = commandOf op ds) &&
    (⟨0, 0, 0, commandOf op ds⟩ : Cmd).clean used && decide (s.sessionWorld 0 = 0)
/-- With the head command running in a state. -/
def running (st : CmdState) : State := (commanding 3 []).updQueue 0 0 fun x => { x with running := some ⟨0, 0, 0x100000, st⟩ }
theorem witness_CommandEvents :
    (atHead 1 [0, 0x100, 16] [1, 2, 3] ∧ runs (.copy 0 0) (commanding 1 [0, 0x100, 16]) = true) ∧
    (atHead 1 [0, 0x100, 0] [1, 2, 3] ∧ runs (.copy 0 0) (commanding 1 [0, 0x100, 0]) = true) ∧
    (atHead 2 [8, 77] [1, 2] ∧ runs (.signal 0 0) (commanding 2 [8, 77]) = true) ∧
    (atHead 3 [0, 1, 5, 10] [1, 2, 3, 4] ∧ runs (.wait 0 0) (commanding 3 [0, 1, 5, 10]) = true) ∧
    (atHead 4 [3, 1] [1, 2] ∧ runs (.puback 0 0) (commanding 4 [3, 1]) = true) ∧
    (atHead 6 [0, 65536] [1, 2] ∧ runs (.inval 0 0) (commanding 6 [0, 65536]) = true) ∧
    (atHead 7 [3, 0, 64, 0x1000, 3] [1, 2, 3, 4, 5] ∧ runs (.window 0 0) (commanding 7 [3, 0, 64, 0x1000, 3]) = true) ∧
    (atHead 7 [3, 0, 0, 0, 2] [1, 2, 3, 4, 5] ∧ runs (.window 0 0) (commanding 7 [3, 0, 0, 0, 2]) = true) ∧
    (atHead 8 [255, 1, 0, 0, 0x2000] [1, 2, 3, 4, 5] ∧ runs (.group 0 0) (commanding 8 [255, 1, 0, 0, 0x2000]) = true) ∧
    (atHead 8 [255, 0] [1, 2, 3, 4, 5] ∧ (commanding 8 [255, 0]).groupBusy 0 255 = false) ∧
    (let s := { commanding 8 [255, 1, 0, 0, 0x2000] with mem := writeBytes (commanding 8 [255, 1, 0, 0, 0x2000]).mem (hostBase + 0x2008) [0xFF] }
     s.groupKeysOk 0 0 (s.routeTable 0x2000 1) ∧ (s.routeTable 0x2000 1).zipIdx.all fun y => s.routeOk 0 y.2 y.1) ∧
    (atHead 10 [0x1000, 1] [1, 2] ∧ runs (.counters 0 0) (commanding 10 [0x1000, 1]) = true) ∧
    ((⟨0, 0, 0, commandOf 2 [8, 77, 1]⟩ : Cmd).clean [1, 2] = false) ∧
    (mapped State.reset).recovering = false ∧
    (((mapped State.reset).readVa none ⟨0, 0x100000⟩ 0 0 8).fault = none ∧ ((mapped State.reset).readVa none ⟨0, 0x100000⟩ 0 65536 8).fault.isSome = true) ∧
    ((commanding 5 [0x1000, 0]).summaryAt 0 0 0 = true ∧ runs (.summary 0 0 0) (commanding 5 [0x1000, 0]) = true) ∧
    (((running (.waiting 0 0 0 10)).readVa none ⟨0, 0x100000⟩ 0 0 8).fault = none ∧ runs (.waitSatisfied 0 0) (running (.waiting 0 0 0 10)) = true ∧
     runs (.waitCommandTimeout 0 0) (running (.waiting 0 1 0 0)) = true ∧ runs (.waitSatisfied 0 0) (running (.waiting 0 1 1 0)) = true) ∧
    ((running (.invalidating 0 1)).heldPages 0 0 1 = false ∧ runs (.invalidationComplete 0 0) (running (.invalidating 0 1)) = true) ∧
    ((running (.ended .ok none)).cmdStatus ⟨0, 0, 0x100000, .ended .ok none⟩ = some (.ok, none) ∧
     runs (.commandCompletion 0 0) (running (.ended .ok none)) = true) := by decide +kernel

/-- A DEBUG command on the warp of `base`: SUB on logical die d, core, index, record, arguments. -/
def debugging (sub d core index record : Nat) (args : List Nat) (s : State) : State :=
  queued [9 + (sub + d * 2 ^ 8 + core * 2 ^ 16 + index * 2 ^ 32) * 2 ^ 64 + record * 2 ^ 128 +
    leNat (args.flatMap fun a => leBytes 8 a) * 2 ^ 256] s
def debugAt (s : State) (used : List Nat) : Bool :=
  let c : Cmd := ⟨0, 0, 0, leNat (s.entryBytes 0 0 0 64)⟩
  decide (s.headEntry 0 0 = some 0 ∧ c.v % 256 = 9 ∧ c.dw 1 / 2 ^ 18 % 2 ^ 14 = 0) && (s.queue 0 0).quiet && c.clean (1 :: used)
def debugCmd (s : State) : Cmd := ⟨0, 0, 0, leNat (s.entryBytes 0 0 0 64)⟩
/-- A die whose protected world has no session. -/
def closed (s : State) : State := s.updDie 0 fun d => { d with world := 1 }
/-- The warp paused on its loupe core, by the debugger and at a fault. -/
def pausedBy (p : Pause) : State := onWarp (fun w => { w with loupe := { w.loupe with pause := p } }) (onLoupe base)
theorem witness_DebugCommandEvents :
    ((debugging 1 7 3 63 0 [] base).debugDie (debugCmd (debugging 1 7 3 63 0 [] base))).toOption = some 7 ∧
    ([(8, base), (0, closed base)].all fun x => let s := debugging 1 x.1 0 0 0 [] x.2
      ((s.debugDie (debugCmd s)).toOption).isNone && debugAt s [2, 3] && runs (.wpset 0 0) s) = true ∧
    ([(1, [2, 3], 63, Instr.wpset 0 0, []), (2, [2, 3], 63, .progset 0 0, []), (3, [4, 5], 0xFFFC, .drload 0 0, [0x1000, 4]),
      (4, [2, 3], 0, .ctlset 0 0, []), (12, [2, 3], 31, .fsname 0 0, [])].all fun x =>
        debugAt (debugging x.1 0 0 x.2.2.1 0 x.2.2.2.2 base) x.2.1 && runs x.2.2.2.1 (debugging x.1 0 0 x.2.2.1 0 x.2.2.2.2 base)) = true ∧
    (wpLegal 0 = true ∧ ctlLegal (4096 * 2 ^ 32) = true ∧ ctlLegal (15 * 2 ^ 32) = false ∧
      (filmNames (2 ^ 128 - 1)).all fun b => decide (b < 0xC0 ∨ b = 256)) ∧
    (debugAt (debugging 10 0 0 0 0 [0x2000] base) [4] = true ∧ debugAt (debugging 11 0 0 0 0 [0x2000] base) [4] = true) ∧
    (((debugging 5 0 0 0 0 [0, 0, 0] base).debugWarp (debugCmd (debugging 5 0 0 0 0 [0, 0, 0] base))).toOption.isSome = true ∧
     ((debugging 5 0 0 0 0 [9, 0, 0] base).debugWarp (debugCmd (debugging 5 0 0 0 0 [9, 0, 0] base))).toOption.isSome = false) ∧
    ([(5, Instr.transfer 0 0, base), (5, .transfer 0 0, slotsFull base), (6, .release 0 0, onLoupe base), (7, .pause 0 0, onLoupe base)].all fun x =>
      debugAt (debugging x.1 0 0 0 0 [0, 0, 0] x.2.2) [4, 5, 6] && runs x.2.1 (debugging x.1 0 0 0 0 [0, 0, 0] x.2.2)) = true ∧
    (match base.debugWarp (debugCmd (debugging 6 0 0 0 0 [0, 0, 0] (onLoupe base))) with
      | .ok w => !w.testing
      | .error _ => false) = true ∧
    ([(Pause.debugger, 0), (.fault .lane false 4 8 1, 0), (.fault .lane false 4 8 1, 1)].all fun x =>
      debugAt (debugging 8 0 0 0 0 [0, 0, 0, x.2] (pausedBy x.1)) [4, 5, 6, 7] &&
      runs (.debugResume 0 0) (debugging 8 0 0 0 0 [0, 0, 0, x.2] (pausedBy x.1))) = true ∧
    (((debugging 9 0 0 0 1 [0] base).debugLaunch (debugCmd (debugging 9 0 0 0 1 [0] base))).toOption.isSome = true ∧
      debugAt (debugging 9 0 0 0 1 [0] base) [2, 3, 4] = true ∧ runs (.armbrk 0 0) (debugging 9 0 0 0 1 [0] base) = true) := by
  decide +kernel

/-- A session of world 1 on interface 1, its deadline at clock 100. -/
def sessionOf : Session := ⟨1, 1000, true, some 4, 100, 0, 0, 0, 0⟩
def tenant (t : DWord) : State :=
  { State.reset.updIface 1 fun f => { f with enabled := true, session := some sessionOf } with time := t }
def requestOf : SessionRequest where
  iface := 1
  world := 1
  heartbeatMs := 1000
  debug := true
  dataKey := 0
  weightKey := 5
  groupKey := 0
theorem witness_WorldEvents :
    ([0, 1].all fun w => decide (((tenant 0).die 3).st = .running) && (tenant 0).dieInUse 3 && (tenant 0).dieEmpty 3 &&
      runs (.worldLatch 3 w) (tenant 0)) = true ∧
    ((State.reset.updIface 1 fun f => { f with enabled := true }).sessionOk requestOf = true ∧ State.reset.sessionOk requestOf = false ∧
     runs (.sessionEstablish requestOf) (State.reset.updIface 1 fun f => { f with enabled := true }) = true) ∧
    (((tenant 99).iface 1).session.any (fun x => decide ((tenant 99).time.toNat < x.deadline.toNat)) = true ∧
     ([4, 5].all fun n => runs (.heartbeat 1 n) (tenant 99)) = true) ∧
    (((tenant 100).iface 1).session.any (fun x => decide (x.deadline.toNat ≤ (tenant 100).time.toNat)) = true ∧
     runs (.heartbeatDeadline 1) (tenant 100) = true) ∧
    (let s : State := { State.reset with time := 2100000000 }
     s.ctl.window < s.time.toNat / 2100000000 ∧ s.ctl.clearAtBoundary = [] ∧ runs .grainWindowBoundary s = true) := by decide +kernel

/-- The launch of `base` as one that resists errors, its negative wanted, and with a negative of its own. -/
def resisting : State := onLaunch (fun l => { l with negWait := true, record := { l.record with resil := 1 } }) base
theorem witness_RecoveryEvents :
    ((resisting.launch? 0).any (fun l => l.negWait && decide (l.replays = [])) = true ∧ resisting.opsDone (resisting.blocksOf 0) = true ∧
      resisting.launchDies 0 = [0] ∧ (resisting.die 0).st = .running ∧ (resisting.negativeHost 0).isSome = true ∧
      resisting.contextsReady 0 = true ∧ runs (.negativeComplete 0) resisting = true) ∧
    (let s := onLaunch (fun l => { l with barp := { l.barp with gen := 1 } }) (parked (.barrier .package 0) resisting)
     (s.ctxAt? home false).any (fun c => decide (c.p.park = .barrier .package 0 ∧ 0 < c.l.barp.gen)) && s.contextsReady 0 &&
       runs (.negativeComplete 0) s) = true ∧
    (State.reset.dieInUse 7 = true ∧ (State.reset.launchesOn 7).length = 0 ∧
      ([true, false].all fun ok => runs (.fatalDieError 7 ok) State.reset) = true) ∧
    after (.negativeComplete 0) { resisting with x := { resisting.x with clusters := [] } } (fun s =>
      decide ((s.launchesOn 0).length = 1) && s.dieInUse 0 &&
      (s.launchesOn 0).any (fun l => (s.recoverable l 0).any fun z => decide (z.clusters = [])) && runs (.fatalDieError 0 true) s) = true ∧
    (let s := State.reset.updDie 0 fun d => { d with st := .recovering 0 }
     (s.die 0).st = .recovering 0 ∧ (s.die 0).held = [] ∧ runs (.dieRecoveryComplete 0) s = true) := by decide +kernel

/-- Power off, up, and with an interface enabled. -/
def unpowered : State := { State.reset with ctl := { State.reset.ctl with power := .off } }
def fusesOf : PowerEnv := ⟨⟨0, 0, 0⟩, fullFuses, 1, 0, 0⟩
theorem witness_PowerAndFirmwareEvents : unpowered.ctl.power = .off ∧ State.reset.ctl.power = .up ∧
    fusesOf.fuses = State.reset.ctl.fuses ∧
    (DefectMap.ofBytes State.reset.ctl.fuses).isSome = true ∧ (DefectMap.ofBytes []).isNone = true ∧ ((mapped State.reset).iface 0).enabled = true ∧
    runs (.packageReset fusesOf) State.reset = true ∧ runs .modulePowerRemoval State.reset = true ∧
    runs (.firmwareUpdate ⟨0, 0, 0⟩) State.reset = true ∧ runs (.measurements 0 7) (mapped State.reset) = true := by decide +kernel

/-! ### Witnesses: the clauses about traps, and tripod mode -/

theorem witness_ScalarIntegerResults_traps : ([(0x80000000, 0xFFFFFFFF), (5, 0)].all fun x =>
    holds (mode 0x800000 (sreg 2 x.1 (sreg 3 x.2 base))) fun c => modeTrapDiv c.p.mode &&
      (decide (c.sr 3 = 0) || decide (c.sr 2 = BitVec.intMin 32 ∧ c.sr 3 = BitVec.allOnes 32))) = true ∧
    runs (.sdiv false 1 2 (.reg 3)) (mode 0x800000 base) = true := by decide +kernel
/-- A lane of VFADD with infinity minus infinity under TRAPNV, of VFDIV by zero under TRAPDIV; a VFCEQ of a signalling NaN. -/
theorem witness_FloatArithmeticResults_traps :
    holds (mode 0x8030000 (vreg 2 0 0x7F800000 (vreg 3 0 0xFF800000 base))) (fun c => fpTypes c && ready c [1, 2, 3]) = true ∧
    [mode 0x8000000 base, mode 0x0800000 base, mode 0x7000000 base].map (fun s => s.ctx?.map fun c =>
      (modeTrapNv c.p.mode, modeTrapDiv c.p.mode)) = [some (true, false), some (false, true), some (false, false)] := by decide +kernel
theorem witness_FloatSignAndCompareResults_traps : holds (mode 0x8030000 (vreg 1 0 0x7F800001 base)) (fun c => fpTypes c && ready c [1, 2, 3] &&
    modeTrapNv c.p.mode && decide (elemVal c.etype (elemAt (c.v 1 0).toNat 32 0) = .nan true)) = true := by decide +kernel
theorem witness_ControlResults_faults : holds (sreg 3 2 base) (fun c => decide (c.sr 3 &&& 3 ≠ 0)) = true ∧
    ¬(0x280000 / 2 ^ 19 % 8 ≤ 4) ∧ runs (.ret false 3) (sreg 3 2 base) = true ∧ runs (.setmode false (.lit 0x280000)) base = true := by
  decide +kernel
theorem witness_DivergentBranchResults_depth :
    holds (onPath (fun p => { p with stack := List.replicate 16 ⟨0x40, 0, 0, 0, none⟩ }) (twoPaths (vreg 1 0 5 base))) (fun c => ready c [1] &&
      (c.landed.w.path? (!c.slot)).isSome && decide (maskWhere c.landed.active (fun l => decide (c.landed.v 1 l ≠ 0)) = 1 ∧
        16 ≤ c.landed.p.stack.length)) = true := by decide +kernel
/-- MODE.MEN with the member set in s8, which leaves out lane 0. -/
theorem witness_CrossLaneResults_faults : holds (mode 0x4200 (sreg 8 0xFFFFFFFE base)) (fun c => c.p.carry.isNone && ready c [1, 2, 3] &&
      intTypes c && treeTypes c &&
      decide (c.landed.active &&& ~~~c.landed.memberSet ≠ 0 ∧ c.landed.memberSet &&& ~~~c.landed.w.exited &&& ~~~c.landed.p.lanes = 0)) = true ∧
    holds (onPath (fun p => { p with ix := 255 }) base) (fun c => ready c [1] && decide (c.l.record.regs ≤ c.p.ix.toNat + 1 ∧ c.active ≠ 0)) = true := by
  decide +kernel
theorem witness_ReductionResults_floats : holds (mode 0x40000 base) (fun c => fpTypes c && ready c [1, 2] && !modeTrapNv c.p.mode &&
    decide (c.landed.memberSet &&& ~~~c.landed.w.exited &&& ~~~c.landed.p.lanes = 0)) = true := by decide +kernel
theorem witness_BarrierResults_tripod : holds (onRecord (fun r => { r with tripod := true, cores := true }) base) (fun c =>
      decide (c.p.lanes = ~~~c.w.exited) && !c.w.allExited && !c.w.ended && c.l.record.tripod && !c.p.frameServed && c.l.record.cores) = true ∧
    runs (.barp true) base = true := by decide +kernel
theorem witness_GroupArrivals_barrier : holds (twoPaths base) (fun c => decide (c.landed.w.groups = [] ∧
    ~~~c.landed.w.exited &&& ~~~c.landed.p.lanes ≠ 0)) = true ∧ runs (.bar false 0) (twoPaths base) = true := by decide +kernel
theorem witness_AccessChecksAndLaneFaults_atomics : holds (vreg 1 3 2 base) (fun c => ready c [1, 2, 3] && !c.l.record.tripod && c.w.onLoupe?.isNone &&
      (c.check .atomic (c.v 1 3) 4).toOption.isNone && (c.check .atomic (c.v 1 0) 4).toOption.isSome &&
      (c.check .red (c.v 1 3) 4).toOption.isNone && decide (c.etype ≤ 1)) = true ∧
    holds (sreg 1 2 base) (fun c => (c.check .load (c.sr 1 + c.sb (.lit 0)) 4).toOption.isNone) = true ∧
    runs (.aadd false 2 1 (.reg 3)) (vreg 1 3 2 base) = true ∧ runs (.sld32 false 2 1 (.lit 0)) (sreg 1 2 base) = true := by decide +kernel
theorem witness_TripodWritesAreBuffered_atomics :
    holds (onRecord (fun r => { r with tripod := true }) base) (fun c => c.l.record.tripod && ready c [1, 2, 3] && c.w.onLoupe?.isNone &&
      (c.check .atomic (c.v 1 0) 4).toOption.isSome && (c.check .store (c.sr 1 + c.sb (.lit 0)) 8).toOption.isSome &&
      decide (c.w.frame.used + 16 * 32 ≤ 8192)) = true ∧
    runs (.aadd false 2 1 (.reg 3)) (onRecord (fun r => { r with tripod := true }) base) = true ∧
    runs (.sst64 false 2 1 (.lit 0)) (onRecord (fun r => { r with tripod := true }) base) = true := by decide +kernel

end Sys2Proof.Tests
end

section
/-! SUPPORT. The decoder and the encoder field by field (03 R40 to R46): the fields of a word that is put together, and the words
that the checks of 03 R49 let through. -/

namespace Sys2Proof

/-! ### Fields of a word -/

/-- Concatenation in numbers. -/
theorem toNat_append_eq_add {m n : Nat} (x : BitVec m) (y : BitVec n) : (x ++ y).toNat = x.toNat * 2 ^ n + y.toNat := by
  rw [BitVec.toNat_append, ← Nat.shiftLeft_add_eq_or_of_lt y.isLt, Nat.shiftLeft_eq]

theorem bool_eq_of_toNat_eq {x y : Bool} (h : x.toNat = y.toNat) : x = y := by
  cases x <;> cases y <;> simp_all

theorem wordOf_bytes (w : Word) :
    wordOf (w.extractLsb' 0 8) (w.extractLsb' 8 8) (w.extractLsb' 16 8) (w.extractLsb' 24 8) = w := by
  apply BitVec.eq_of_toNat_eq
  simp only [wordOf, toNat_append_eq_add, BitVec.extractLsb'_toNat, Nat.shiftRight_eq_div_pow]
  omega

section
variable (m : Bool) (op : BitVec 9) (d a b : Field) (l : Bool)

theorem wordR_toNat : (wordR m op d a b l).toNat =
    ((((m.toNat * 2 ^ 9 + op.toNat) * 2 ^ 7 + d.toNat) * 2 ^ 7 + a.toNat) * 2 ^ 7 + b.toNat) * 2 + l.toNat := by
  simp only [wordR, toNat_append_eq_add, BitVec.toNat_ofBool, pow_one]

@[simp] theorem fieldS_wordR : fieldS (wordR m op d a b l) = m := by
  have := m.toNat_lt; have := l.toNat_lt
  apply bool_eq_of_toNat_eq
  simp only [fieldS, BitVec.getLsbD, Nat.toNat_testBit, wordR_toNat]
  omega

@[simp] theorem fieldOp_wordR : fieldOp (wordR m op d a b l) = op := by
  have := l.toNat_lt
  apply BitVec.eq_of_toNat_eq
  simp only [fieldOp, BitVec.extractLsb'_toNat, Nat.shiftRight_eq_div_pow, wordR_toNat]
  omega

@[simp] theorem fieldD_wordR : fieldD (wordR m op d a b l) = d := by
  have := l.toNat_lt
  apply BitVec.eq_of_toNat_eq
  simp only [fieldD, BitVec.extractLsb'_toNat, Nat.shiftRight_eq_div_pow, wordR_toNat]
  omega

@[simp] theorem fieldA_wordR : fieldA (wordR m op d a b l) = a := by
  have := l.toNat_lt
  apply BitVec.eq_of_toNat_eq
  simp only [fieldA, BitVec.extractLsb'_toNat, Nat.shiftRight_eq_div_pow, wordR_toNat]
  omega

@[simp] theorem fieldB_wordR : fieldB (wordR m op d a b l) = b := by
  have := l.toNat_lt
  apply BitVec.eq_of_toNat_eq
  simp only [fieldB, BitVec.extractLsb'_toNat, Nat.shiftRight_eq_div_pow, wordR_toNat]
  omega

@[simp] theorem fieldL_wordR : fieldL (wordR m op d a b l) = l := Laws.fieldL_wordR m op d a b l

end

/-- A word of Format R is put together from its fields. -/
theorem wordR_fields (w : Word) : wordR (fieldS w) (fieldOp w) (fieldD w) (fieldA w) (fieldB w) (fieldL w) = w := by
  apply BitVec.eq_of_toNat_eq
  simp only [wordR_toNat, fieldS, fieldOp, fieldD, fieldA, fieldB, fieldL, BitVec.extractLsb'_toNat,
    Nat.shiftRight_eq_div_pow, BitVec.getLsbD, Nat.toNat_testBit]
  omega

/-! ### Format T (03 R43) -/

/-- A word of Format T with OP 0x146. -/
def wordT (m : Bool) (acc : BitVec 4) (adesc : BitVec 6) (fslot : BitVec 3) (shape : BitVec 2) (fvec : BitVec 6) (z : BitVec 1) :
    Word := BitVec.ofBool m ++ (0x146 : BitVec 9) ++ acc ++ adesc ++ fslot ++ shape ++ fvec ++ z

section
variable (m : Bool) (acc : BitVec 4) (adesc : BitVec 6) (fslot : BitVec 3) (shape : BitVec 2) (fvec : BitVec 6) (z : BitVec 1)

theorem wordT_toNat : (wordT m acc adesc fslot shape fvec z).toNat =
    ((((((m.toNat * 2 ^ 9 + 0x146) * 2 ^ 4 + acc.toNat) * 2 ^ 6 + adesc.toNat) * 2 ^ 3 + fslot.toNat) * 2 ^ 2 + shape.toNat)
      * 2 ^ 6 + fvec.toNat) * 2 + z.toNat := by
  simp only [wordT, toNat_append_eq_add, BitVec.toNat_ofBool, pow_one]
  rfl

theorem fieldOp_wordT : fieldOp (wordT m acc adesc fslot shape fvec z) = 0x146 := by
  apply BitVec.eq_of_toNat_eq
  simp only [fieldOp, BitVec.extractLsb'_toNat, Nat.shiftRight_eq_div_pow, wordT_toNat]
  show _ = 0x146
  omega

theorem fieldS_wordT : fieldS (wordT m acc adesc fslot shape fvec z) = m := by
  have := m.toNat_lt
  apply bool_eq_of_toNat_eq
  simp only [fieldS, BitVec.getLsbD, Nat.toNat_testBit, wordT_toNat]
  omega

theorem fieldL_wordT_zero : fieldL (wordT m acc adesc fslot shape fvec 0) = false := by
  apply bool_eq_of_toNat_eq
  simp only [fieldL, BitVec.getLsbD, Nat.toNat_testBit, wordT_toNat]
  simp

/-- The operand fields of a word of Format T. -/
theorem operands_wordT : let w := wordT m acc adesc fslot shape fvec z
    w.extractLsb' 18 4 = acc ∧ w.extractLsb' 12 6 = adesc ∧ w.extractLsb' 9 3 = fslot ∧ w.extractLsb' 7 2 = shape ∧
      w.extractLsb' 1 6 = fvec := by
  refine ⟨?_, ?_, ?_, ?_, ?_⟩ <;> apply BitVec.eq_of_toNat_eq <;>
    simp only [BitVec.extractLsb'_toNat, Nat.shiftRight_eq_div_pow, wordT_toNat] <;> omega

end

/-- A word whose OP is 0x146 is put together from the fields of Format T. -/
theorem wordT_fields (w : Word) (h : (fieldOp w).toNat = 0x146) (hL : fieldL w = false) :
    wordT (fieldS w) (w.extractLsb' 18 4) (w.extractLsb' 12 6) (w.extractLsb' 9 3) (w.extractLsb' 7 2) (w.extractLsb' 1 6) 0 = w := by
  replace hL := congrArg Bool.toNat hL
  apply BitVec.eq_of_toNat_eq
  simp only [fieldOp, fieldL, fieldS, BitVec.extractLsb'_toNat, Nat.shiftRight_eq_div_pow, BitVec.getLsbD, Nat.toNat_testBit,
    wordT_toNat] at *
  simp at hL ⊢
  omega

theorem encode_mma (m : Bool) (acc : BitVec 4) (adesc : BitVec 6) (fslot : BitVec 3) (shape : BitVec 2) (fvec : BitVec 6) :
    encode (.mma m acc adesc fslot shape fvec) = [wordT m acc adesc fslot shape fvec 0] := rfl

end Sys2Proof
end

section
/-! SUPPORT. Decoding and encoding undo each other (03 R40 to R49). -/

namespace Sys2Proof

open Machine (assignedOp)

/-! ### The checks of 03 R49 -/

@[simp] theorem isZero_iff (f : Field) : isZero f = true ↔ f = 0 := by simp [isZero]

@[simp] theorem bNone_iff (l : Bool) (b : Field) : bNone l b = true ↔ l = false ∧ b = 0 := by simp [bNone]

@[simp] theorem bLit_iff (l : Bool) (b : Field) : bLit l b = true ↔ l = true ∧ b = 0 := by simp [bLit]

theorem bS_iff (l : Bool) (b : Field) (lit : Word) : bS l b = true ↔ bV l b = true ∧ (srcOf l b lit).isSB = true := by
  cases l <;> simp [bS, bV, srcOf, Src.isSB]

theorem bShuffle_iff (l : Bool) (b : Field) (lit : Word) :
    bShuffle l b lit = true ↔ bV l b = true ∧ (srcOf l b lit).isShuffleB = true := by
  cases l <;> simp [bShuffle, bV, srcOf, Src.isShuffleB]

theorem checked_eq_instr {ok : Bool} {i j : Instr} {len n : Nat} :
    checked ok i len = .instr j n ↔ ok = true ∧ i = j ∧ len = n := by
  cases ok <;> simp [checked]

/-! ### Which OPs are assigned (03 R47) -/

/-- The ranges of 03 R47 are the rows of the decoder and MMA. -/
theorem assignedOp_eq (op : BitVec 9) : assignedOp op.toNat = (assignedR op.toNat || decide (op = 0x146)) := by
  revert op
  decide +kernel

theorem assignedR_of_assignedOp {op : BitVec 9} (h : assignedOp op.toNat = true) (hne : op.toNat ≠ 0x146) :
    assignedR op.toNat = true := by
  have hop : op ≠ 0x146 := fun e => hne (by rw [e]; rfl)
  rw [assignedOp_eq, Bool.or_eq_true, decide_eq_true_eq] at h
  exact h.resolve_right hop

theorem not_assignedR {op : BitVec 9} (h : assignedOp op.toNat = false) : assignedR op.toNat = false ∧ op.toNat ≠ 0x146 := by
  rw [assignedOp_eq, Bool.or_eq_false_iff] at h
  exact ⟨h.1, fun e => of_decide_eq_false h.2 (BitVec.eq_of_toNat_eq e)⟩

/-! ### The decoder at the bytes of a word -/

section
variable {w : Word}

theorem decode_mma (rest : List Byte) (h : (fieldOp w).toNat = 0x146) : decode (bytesOf w ++ rest) = decodeT w := by
  simp [decode, bytesOf, wordOf_bytes, h]

theorem decode_unassigned (rest : List Byte) (h : assignedOp (fieldOp w).toNat = false) :
    decode (bytesOf w ++ rest) = .illegalOpcode 4 := by
  obtain ⟨hr, hne⟩ := not_assignedR h
  simp [decode, bytesOf, wordOf_bytes, hr, hne]

theorem decode_short (rest : List Byte) (h : assignedOp (fieldOp w).toNat = true) (hne : (fieldOp w).toNat ≠ 0x146)
    (hL : fieldL w = false) : decode (bytesOf w ++ rest) =
      decodeR (fieldOp w).toNat (fieldS w) (fieldD w) (fieldA w) (fieldB w) false 0 4 := by
  simp [decode, decodeWord, bytesOf, wordOf_bytes, assignedR_of_assignedOp h hne, hne, hL]

theorem decode_long (lit : Word) (rest : List Byte) (h : assignedOp (fieldOp w).toNat = true)
    (hne : (fieldOp w).toNat ≠ 0x146) (hL : fieldL w = true) : decode (bytesOf w ++ bytesOf lit ++ rest) =
      decodeR (fieldOp w).toNat (fieldS w) (fieldD w) (fieldA w) (fieldB w) true lit 8 := by
  simp [decode, decodeWord, bytesOf, wordOf_bytes, assignedR_of_assignedOp h hne, hne, hL]

/-- A word with L = 1 behind which the image ends (03 R52). -/
theorem decode_cut (h : assignedOp (fieldOp w).toNat = true) (hne : (fieldOp w).toNat ≠ 0x146) (hL : fieldL w = true) :
    decode (bytesOf w) = .illegalOpcode 8 := by
  simp [decode, bytesOf, wordOf_bytes, assignedR_of_assignedOp h hne, hne, hL]

end

/-! ### Decoding an encoding -/

/-- Bit L of a B operand (03 R42). -/
def Src.isLit : Src → Bool
  | .reg _ => false
  | .lit _ => true

/-- Field B of a B operand. -/
def Src.field : Src → Field
  | .reg r => r
  | .lit _ => 0

/-- The word that follows, zero where none does. -/
def Src.word : Src → Word
  | .reg _ => 0
  | .lit w => w

@[simp] theorem srcOf_parts (s : Src) : srcOf s.isLit s.field s.word = s := by cases s <;> rfl

@[simp] theorem bV_parts (s : Src) : bV s.isLit s.field = true := by cases s <;> rfl

@[simp] theorem bS_parts (s : Src) : bS s.isLit s.field = s.isSB := by cases s <;> rfl

@[simp] theorem bShuffle_parts (s : Src) : bShuffle s.isLit s.field s.word = s.isShuffleB := by cases s <;> rfl

section
variable (m : Bool) {op : BitVec 9} (d a : Field) (rest : List Byte) (hop : assignedOp op.toNat = true) (hne : op.toNat ≠ 0x146)
include hop hne

theorem decode_encB (s : Src) : decode (codeBytes (encB m op d a s) ++ rest) =
    decodeR op.toNat m d a s.field s.isLit s.word (4 * (encB m op d a s).length) := by
  cases s with
  | reg r => simpa [encB, codeBytes, Src.isLit, Src.field, Src.word] using decode_short (w := wordR m op d a r false) rest (by simpa) (by simpa) (by simp)
  | lit x => simpa [encB, codeBytes, Src.isLit, Src.field, Src.word] using decode_long (w := wordR m op d a 0 true) x rest (by simpa) (by simpa) (by simp)

theorem decode_encN : decode (codeBytes (encN m op d a) ++ rest) = decodeR op.toNat m d a 0 false 0 4 :=
  decode_encB m d a rest hop hne (.reg 0)

theorem decode_encL (lit : Word) : decode (codeBytes (encL m op d a lit) ++ rest) = decodeR op.toNat m d a 0 true lit 8 :=
  decode_encB m d a rest hop hne (.lit lit)

end

theorem decode_encode_mma (m : Bool) (acc : BitVec 4) (adesc : BitVec 6) (fslot : BitVec 3) (shape : BitVec 2) (fvec : BitVec 6)
    (rest : List Byte) (h : adesc.toNat % 2 = 0) : decode (codeBytes (encode (.mma m acc adesc fslot shape fvec)) ++ rest) =
      .instr (.mma m acc adesc fslot shape fvec) 4 := by
  obtain ⟨h1, h2, h3, h4, h5⟩ := operands_wordT m acc adesc fslot shape fvec 0
  rw [encode_mma, codeBytes, codeBytes, List.append_nil, decode_mma rest (by rw [fieldOp_wordT]; rfl), decodeT]
  simp only [fieldL_wordT_zero, fieldS_wordT, h1, h2, h3, h4, h5, h, checked_eq_instr]
  simp


set_option linter.auxLemma false in
/-- Each format is decoded by its own lemma; the matcher of `decodeR` is then a chain of comparisons, which `dsimp` walks to the
row of the OP. -/
theorem decode_encode (i : Instr) (rest : List Byte) (hw : i.wf = true) (he : encode i ≠ []) :
    decode (codeBytes (encode i) ++ rest) = .instr i (4 * (encode i).length) := by
  cases i
  case mma m acc adesc fslot shape fvec => exact decode_encode_mma m acc adesc fslot shape fvec rest (by simpa [Instr.wf] using hw)
  any_goals exact absurd rfl he
  all_goals simp only [Instr.wf, Bool.and_eq_true] at hw
  all_goals
    simp (disch := decide) only [encode, decode_encB, decode_encN, decode_encL]
    delta decodeR decodeR.match_1
    dsimp only [BitVec.reduceToNat, Nat.reduceEqDiff, ↓dreduceDIte]
    simp [checked_eq_instr, hw, encN, encL]

/-! ### Encoding what has been decoded -/

/-- A choice has a property when both its values have it. -/
theorem dite_induction {α : Sort*} {P : α → Prop} {c : Prop} {hd : Decidable c} {t : c → α} {e : α}
    (ht : ∀ h, P (t h)) (he : P e) : P (dite c t fun _ => e) := by
  by_cases h : c
  · rw [dif_pos h]; exact ht h
  · rw [dif_neg h]; exact he

/-- The words that an instruction takes whose first word has bit L. -/
def takeWords (l : Bool) (w lit : Word) : List Word := if l then [w, lit] else [w]

theorem encB_srcOf {l : Bool} {b : Field} (h : bV l b = true) (m : Bool) (op : BitVec 9) (d a : Field) (lit : Word) :
    encB m op d a (srcOf l b lit) = takeWords l (wordR m op d a b l) lit := by
  cases l <;> simp_all [encB, srcOf, takeWords, bV]

/-- What the decoder answers is the fault of an unassigned OP, or an instruction under checks that make it well-formed and the
words its encoding. -/
def Reencodes (ws : List Word) (len : Nat) (x : Decoded) : Prop :=
  x = .illegalOpcode len ∨ ∃ ok i, x = checked ok i len ∧ (ok = true → i.wf = true ∧ encode i = ws)

theorem Reencodes.instr {ws : List Word} {len n : Nat} {i : Instr} (h : Reencodes ws len (.instr i n)) :
    i.wf = true ∧ encode i = ws ∧ n = len := by
  obtain h | ⟨ok, j, h, hj⟩ := h
  · cases h
  · obtain ⟨hok, rfl, rfl⟩ := checked_eq_instr.mp h.symm
    exact ⟨(hj hok).1, (hj hok).2, rfl⟩

set_option linter.auxLemma false in
/-- Row by row along the matcher of `decodeR`: the checks of the row are those of `Instr.wf`, and they leave no bit of the word
open that the instruction does not hold. -/
theorem decodeR_reencodes (op : Nat) (m : Bool) (d a b : Field) (l : Bool) (lit : Word) (len : Nat) :
    Reencodes (takeWords l (wordR m (BitVec.ofNat 9 op) d a b l) lit) len (decodeR op m d a b l lit len) := by
  delta decodeR decodeR.match_1
  iterate 208
    refine dite_induction (P := Reencodes (takeWords l (wordR m (BitVec.ofNat 9 op) d a b l) lit) len) (fun hop => ?_) ?_
    · cases hop
      refine Or.inr ⟨_, _, rfl, fun hok => ?_⟩
      simp_all [bS_iff _ _ lit, bShuffle_iff _ _ lit, Instr.wf, encode, encN, encL, takeWords, encB_srcOf]
  exact Or.inl rfl

/-- A word of Format R with the word that it takes as its literal. -/
theorem decodeR_fields (w lit : Word) (len : Nat) : Reencodes (takeWords (fieldL w) w lit) len
    (decodeR (fieldOp w).toNat (fieldS w) (fieldD w) (fieldA w) (fieldB w) (fieldL w) lit len) := by
  simpa [wordR_fields] using
    decodeR_reencodes (fieldOp w).toNat (fieldS w) (fieldD w) (fieldA w) (fieldB w) (fieldL w) lit len

theorem decodeT_reencodes {w : Word} (h : (fieldOp w).toNat = 0x146) : Reencodes [w] 4 (decodeT w) := by
  refine Or.inr ⟨_, _, rfl, fun hok => ?_⟩
  simp only [Bool.and_eq_true, Bool.not_eq_true'] at hok
  exact ⟨hok.2, by rw [encode_mma, wordT_fields w h hok.1]⟩

/-- A decoded word is the encoding of its instruction, in one word or two as its bit L says; MMA has one. -/
theorem encode_of_decode {w lit : Word} {rest : List Byte} {i : Instr} {len : Nat}
    (h : decode (bytesOf w ++ bytesOf lit ++ rest) = .instr i len) :
    i.wf = true ∧ (len = 4 ∧ encode i = [w] ∨ len = 8 ∧ encode i = [w, lit]) := by
  by_cases hT : (fieldOp w).toNat = 0x146
  · rw [List.append_assoc, decode_mma _ hT] at h
    obtain ⟨hwf, henc, hlen⟩ := (h ▸ decodeT_reencodes hT).instr
    exact ⟨hwf, .inl ⟨hlen, henc⟩⟩
  cases hop : assignedOp (fieldOp w).toNat with
  | false => rw [List.append_assoc, decode_unassigned _ hop] at h; cases h
  | true =>
    cases hL : fieldL w with
    | false =>
      rw [List.append_assoc, decode_short _ hop hT hL] at h
      obtain ⟨hwf, henc, hlen⟩ := (h ▸ hL ▸ decodeR_fields w 0 4).instr
      exact ⟨hwf, .inl ⟨hlen, henc⟩⟩
    | true =>
      rw [decode_long lit rest hop hT hL] at h
      obtain ⟨hwf, henc, hlen⟩ := (h ▸ hL ▸ decodeR_fields w lit 8).instr
      exact ⟨hwf, .inr ⟨hlen, henc⟩⟩

/-- Settles O6: each format of the encoder is decoded by its own lemma. -/
theorem encodedInstructionsDecode : Obligations.EncodedInstructionsDecode := fun i rest hw he => decode_encode i rest hw he

/-- Settles O7: every row of the decoder gives back the word that it has read. -/
theorem decodedWordsReencode : Obligations.DecodedWordsReencode := fun _ _ _ _ _ h => encode_of_decode h

/-! ### Fetches that fault (03 R48, R52) -/

theorem assignedOp_above (op : Nat) (h : 0x1A0 ≤ op) : assignedOp op = false := by
  simp [assignedOp]
  omega

end Sys2Proof

namespace Sys2Proof.Machine

@[simp] theorem State.imageOf_issuing (s : State) (who : Issuer) (late : List Issuer) (l : Launch) :
    (s.issuing who late).imageOf l = s.imageOf l := rfl

/-- What a path issues whose bytes are no instruction. -/
theorem State.issue_illegalOpcode {s : State} {who : Issuer} {late : List Issuer} {c : Ctx} {n : Nat}
    (h : (s.issuing who late).ctx? = some c) (hd : decode (((s.imageOf c.l).drop c.p.pc.toNat).take 8) = .illegalOpcode n) :
    s.issue who late = .next (c.issueFault .illegalOpcode n) := by
  simp [State.issue, h, State.decodeAt, hd]

end Sys2Proof.Machine

namespace Sys2Proof

open Machine (assignedOp)

/-- Settles O8: the decoder answers ILLEGAL_OPCODE for unassigned words and beyond the image, and the issue faults with it. -/
theorem fetchFaults : Obligations.FetchFaults := by
  refine ⟨⟨rfl, assignedOp_above, fun w rest h => decode_unassigned rest h, fun s who late c w rest hc hb hop => ?_⟩,
    fun s who late c hc => ⟨fun hend => ?_, fun w hb hop hne hL => ?_⟩⟩
  · exact Machine.State.issue_illegalOpcode hc (by rw [hb, decode_unassigned rest hop])
  · exact Machine.State.issue_illegalOpcode hc (by rw [List.drop_of_length_le hend]; rfl)
  · exact Machine.State.issue_illegalOpcode hc (by
      rw [hb, List.take_of_length_le (by simp [bytesOf]), decode_cut hop hne hL])

/-- Settles O9: by evaluating the decoder. -/
theorem workedEncodingsDecode : Obligations.WorkedEncodingsDecode := by
  refine ⟨?_, ?_, ?_, ?_, ?_, ?_, ?_, ?_, ?_, ?_, ?_, ?_⟩ <;> decide +kernel

end Sys2Proof
end

section
/-! SUPPORT. The register check at issue (03 R50, R51). -/

namespace Sys2Proof.Machine

/-- The instruction is issued under the checks of `issueOp`, with the registers that its fields name and its own length. -/
def IssuedUnderCheck (i : Instr) : Prop :=
  ∃ (sh : Shape) (typeOk : Ctx → Bool) (f : Ctx → State), (∀ s, exec i s = issueOp s sh typeOk f) ∧
    sh.vregs = directVregs i ∧ sh.len = 4 * (encode i).length

theorem len_encB (m : Bool) (op : BitVec 9) (d a : Field) (b : Src) : b.len = 4 * (encB m op d a b).length := by
  cases b <;> rfl

/-- Every instruction that names vector registers is issued under the check. -/
theorem issuedUnderCheck (i : Instr) (h : directVregs i ≠ []) : IssuedUnderCheck i := by
  cases i
  any_goals exact absurd rfl h
  any_goals exact ⟨_, _, _, fun _ => rfl, rfl, rfl⟩
  any_goals exact ⟨_, _, _, fun _ => rfl, rfl, len_encB _ _ _ _ _⟩

/-- 03 R50: a register at or beyond the allotment faults before anything else is looked at. -/
theorem issueOp_regBounds {s : State} {c : Ctx} (h : s.ctx? = some c) (sh : Shape) (typeOk : Ctx → Bool) (f : Ctx → State)
    (hn : ∃ n ∈ sh.vregs, c.l.record.regs ≤ n) : issueOp s sh typeOk f = .next (c.issueFault .regBounds sh.len) := by
  have hb : sh.inBounds c.l.record.regs = false := by
    obtain ⟨n, hmem, hle⟩ := hn
    simp only [Shape.inBounds, List.all_eq_false, decide_eq_true_eq, Nat.not_lt]
    exact ⟨n, hmem, hle⟩
  simp [issueOp, withCtx, h, hb]

/-! ### Fields reach v0 to v127 (03 R41, R45) -/

/-- A group of two starts at an even register, so that it ends within the fields' reach. -/
theorem isV2_lt {f : Field} (h : isV2 f = true) : f.toNat + 1 < 128 := by
  have := f.isLt
  simp only [isV2, decide_eq_true_eq] at h
  omega

/-- The same for a group of four. -/
theorem isV4_lt {f : Field} (h : isV4 f = true) : f.toNat + 3 < 128 := by
  have := f.isLt
  simp only [isV4, decide_eq_true_eq] at h
  omega

theorem vregs_lt (b : Src) : ∀ n ∈ b.vregs, n < 128 := by
  cases b with
  | reg r => simpa [Src.vregs] using r.isLt
  | lit w => simp [Src.vregs]

section
variable (f g : Field) (b : Src)

theorem field_lt : ∀ n ∈ [f.toNat], n < 128 := by simpa using f.isLt

theorem field_vregs_lt : ∀ n ∈ f.toNat :: b.vregs, n < 128 := List.forall_mem_cons.mpr ⟨f.isLt, vregs_lt b⟩

theorem fields_lt : ∀ n ∈ [f.toNat, g.toNat], n < 128 := List.forall_mem_cons.mpr ⟨f.isLt, field_lt g⟩

theorem fields_vregs_lt : ∀ n ∈ f.toNat :: g.toNat :: b.vregs, n < 128 :=
  List.forall_mem_cons.mpr ⟨f.isLt, field_vregs_lt g b⟩

theorem pair_field_lt (h : isV2 f = true) : ∀ n ∈ [f.toNat, f.toNat + 1, g.toNat], n < 128 := by
  have := isV2_lt h
  have := g.isLt
  simp
  omega

theorem four_field_lt (h : isV4 f = true) :
    ∀ n ∈ [f.toNat, f.toNat + 1, f.toNat + 2, f.toNat + 3, g.toNat], n < 128 := by
  have := isV4_lt h
  have := g.isLt
  simp
  omega

end

/-- MMA's FVEC names v0 to v62, or with 63 none. -/
theorem fvec_lt (f : BitVec 6) : ∀ n ∈ (if f.toNat = 63 then [] else [f.toNat] : List Nat), n < 128 := by
  have := f.isLt
  split <;> simp
  omega

theorem directVregs_lt (i : Instr) (hw : i.wf = true) : ∀ n ∈ directVregs i, n < 128 := by
  cases i
  any_goals exact List.forall_mem_nil _
  any_goals exact field_lt _
  any_goals exact field_vregs_lt _ _
  any_goals exact fields_lt _ _
  any_goals exact fields_vregs_lt _ _ _
  case mma => exact fvec_lt _
  case vunp5 | ld64 | st64 => exact pair_field_lt _ _ (Bool.and_eq_true_iff.mp hw).1
  case ld128 | st128 => exact four_field_lt _ _ (Bool.and_eq_true_iff.mp hw).1

end Sys2Proof.Machine

namespace Sys2Proof

open Machine

/-- Settles O11: every instruction that names vector registers is issued under the one check, which comes first. -/
theorem registerBoundsFault : Obligations.RegisterBoundsFault := by
  refine ⟨fun i s c hc hn => ?_, directVregs_lt⟩
  obtain ⟨n, hmem, hle⟩ := hn
  obtain ⟨sh, typeOk, f, hexec, hregs, hlen⟩ := issuedUnderCheck i (List.ne_nil_of_mem hmem)
  rw [hexec, issueOp_regBounds hc sh typeOk f ⟨n, hregs ▸ hmem, hle⟩, hlen]

end Sys2Proof
end

section
/-! SUPPORT. Where MODE values stand in the state (03 R55), and what leaves them legal: first the updates that do not touch a MODE
value, each by an equivalence for `simp`. -/

namespace Sys2Proof.Machine

/-! ### Where MODE values stand -/

/-- MODE is legal in a path's own value and its pending entries. -/
def StackModes (mode : Word) (stack : List PendEntry) : Prop := modeLegal mode = true ∧ ∀ e ∈ stack, modeLegal e.mode = true

/-- MODE is legal in a slot. -/
def SlotModes (o : Option Path) : Prop := ∀ p, o = some p → p.ModeOk

/-- MODE is legal in groups. -/
def GroupModes (gs : List JoinGroup) : Prop := ∀ g ∈ gs, ∀ a ∈ g.arrivals, modeLegal a.mode = true

/-- MODE is legal in the state that a continuation has frozen. -/
def FrozenModes (o : Option Frozen) : Prop := ∀ f, o = some f → SlotModes f.p0 ∧ SlotModes f.p1 ∧ GroupModes f.groups

/-- MODE is legal in the parts of a warp. -/
def WarpModes (p0 p1 : Option Path) (gs : List JoinGroup) (f : Option Frozen) : Prop :=
  SlotModes p0 ∧ SlotModes p1 ∧ GroupModes gs ∧ FrozenModes f

/-- MODE is legal in every warp of a list. -/
def WarpsModes (ws : List Warp) : Prop := ∀ w ∈ ws, w.ModeOk

/-- MODE is legal in every saved context. -/
def SavesModes (zs : List Snapshot) : Prop := ∀ z ∈ zs, WarpsModes z.warps

/-- MODE is legal in the negatives that the dies hold. -/
def DiesModes (t : Table Die) : Prop := ∀ d ∈ t, ∀ n, d.2.negative = some n → WarpsModes n.snap.warps

/-- MODE is legal in the parts of a state. -/
def StateModes (ws : List Warp) (zs : List Snapshot) (t : Table Die) : Prop := WarpsModes ws ∧ SavesModes zs ∧ DiesModes t

theorem Path.modeOk_iff {p : Path} : p.ModeOk ↔ StackModes p.mode p.stack := Iff.rfl

theorem Warp.modeOk_iff {w : Warp} : w.ModeOk ↔ WarpModes w.p0 w.p1 w.groups w.frozen :=
  ⟨fun ⟨h0, h1, hg, hf⟩ => ⟨h0, h1, hg, hf⟩, fun ⟨h0, h1, hg, hf⟩ => ⟨h0, h1, hg, hf⟩⟩

theorem State.modeOk_iff {s : State} : s.ModeOk ↔ StateModes s.x.warps s.ctl.saves s.x.dies :=
  ⟨fun ⟨hw, hs, hn⟩ => ⟨hw, hs, hn⟩, fun ⟨hw, hs, hn⟩ => ⟨hw, hs, hn⟩⟩

/-! A record that is written out is taken apart, and the parts of one that is not are put together again: `simp` sees through
every update of other fields. -/

@[simp] theorem Path.modeOk_mk (pc mode ix lanes writes pending late uncovered stack park only carry waitStart waitOn passed drawn
    frameServed back starve starved) :
    (Path.mk pc mode ix lanes writes pending late uncovered stack park only carry waitStart waitOn passed drawn frameServed back
      starve starved).ModeOk ↔ StackModes mode stack := Iff.rfl

@[simp] theorem stackModes_fold (p : Path) : StackModes p.mode p.stack ↔ p.ModeOk := Iff.rfl

@[simp] theorem Warp.modeOk_mk (ref p0 p1 groups arrivals exited sregs vregs status spill staging closes doneCloses errors forest prof
    profOver frozen splitReg inject soft spillSoft sched startClk retired idle loupe frame ended) :
    (Warp.mk ref p0 p1 groups arrivals exited sregs vregs status spill staging closes doneCloses errors forest prof profOver frozen
      splitReg inject soft spillSoft sched startClk retired idle loupe frame ended).ModeOk ↔ WarpModes p0 p1 groups frozen :=
  Warp.modeOk_iff

@[simp] theorem warpModes_fold (w : Warp) : WarpModes w.p0 w.p1 w.groups w.frozen ↔ w.ModeOk := Warp.modeOk_iff.symm

@[simp] theorem State.modeOk_mk (time mem memKeys x ctl issuer agenda free nextOp nextUid) :
    (State.mk time mem memKeys x ctl issuer agenda free nextOp nextUid).ModeOk ↔ StateModes x.warps ctl.saves x.dies :=
  State.modeOk_iff

@[simp] theorem stateModes_fold (s : State) : StateModes s.x.warps s.ctl.saves s.x.dies ↔ s.ModeOk := State.modeOk_iff.symm

/-! A condition is taken out, so that branches with the same MODE values fall together. -/

@[simp] theorem Path.modeOk_ite (c : Prop) [Decidable c] (p q : Path) : (if c then p else q).ModeOk ↔ if c then p.ModeOk else q.ModeOk := by
  split <;> rfl

@[simp] theorem Warp.modeOk_ite (c : Prop) [Decidable c] (w v : Warp) : (if c then w else v).ModeOk ↔ if c then w.ModeOk else v.ModeOk := by
  split <;> rfl

@[simp] theorem State.modeOk_ite (c : Prop) [Decidable c] (s t : State) : (if c then s else t).ModeOk ↔ if c then s.ModeOk else t.ModeOk := by
  split <;> rfl

@[simp] theorem Die.negative_ite (c : Prop) [Decidable c] (d e : Die) : (if c then d else e).negative = if c then d.negative else e.negative := by
  split <;> rfl

@[simp] theorem State.modeOk_getD_map {α : Type} (o : Option α) (f : α → State) (s : State) (hf : ∀ a, (f a).ModeOk ↔ s.ModeOk) :
    ((o.map f).getD s).ModeOk ↔ s.ModeOk := by
  cases o <;> simp [hf]

/-! ### Updates of warps and dies -/

@[simp] theorem warpsModes_map {f : Warp → Warp} (ws : List Warp) (hf : ∀ w, (f w).ModeOk ↔ w.ModeOk) :
    WarpsModes (ws.map f) ↔ WarpsModes ws := by
  simp only [WarpsModes, List.forall_mem_map, hf]

@[simp] theorem diesModes_map {f : Nat × Die → Nat × Die} (t : Table Die) (hf : ∀ d, (f d).2.negative = d.2.negative) :
    DiesModes (t.map f) ↔ DiesModes t := by
  simp only [DiesModes, List.forall_mem_map, hf]

/-- A fold of steps that leave MODE values alone. -/
@[simp] theorem State.foldl_modeOk {α : Type} {f : State → α → State} (s : State) (l : List α)
    (hf : ∀ s a, (f s a).ModeOk ↔ s.ModeOk) : (l.foldl f s).ModeOk ↔ s.ModeOk := by
  induction l generalizing s with
  | nil => rfl
  | cons a r ih => rw [List.foldl_cons, ih, hf]

/-- Warps after a change that leaves MODE values alone. -/
@[simp] theorem State.updWarp_modeOk {f : Warp → Warp} (s : State) (r : WarpRef) (hf : ∀ w, (f w).ModeOk ↔ w.ModeOk) :
    (s.updWarp r f).ModeOk ↔ s.ModeOk := by
  simp only [State.updWarp, StateModes, State.modeOk_iff]
  rw [warpsModes_map _ fun w => ?_]
  split
  · exact hf w
  · rfl

@[simp] theorem Warp.updPath_modeOk {f : Path → Path} (w : Warp) (slot : Bool) (hf : ∀ p, (f p).ModeOk ↔ p.ModeOk) :
    (w.updPath slot f).ModeOk ↔ w.ModeOk := by
  have hs (o : Option Path) : SlotModes (o.map f) ↔ SlotModes o := by cases o <;> simp [SlotModes, hf]
  cases slot <;> simp [Warp.updPath, Warp.setPath, Warp.path?, WarpModes, hs, Warp.modeOk_iff]

/-- A path after a change that leaves MODE values alone. -/
@[simp] theorem State.updPath_modeOk {f : Path → Path} (s : State) (r : WarpRef) (slot : Bool) (hf : ∀ p, (f p).ModeOk ↔ p.ModeOk) :
    (s.updPath r slot f).ModeOk ↔ s.ModeOk :=
  s.updWarp_modeOk r fun w => w.updPath_modeOk slot hf

theorem mem_tput {α : Type} {t : Table α} {k : Nat} {v : α} {e : Nat × α} (h : e ∈ tput t k v) : e = (k, v) ∨ e ∈ t := by
  induction t with
  | nil => simpa [tput] using h
  | cons a r ih =>
    obtain ⟨j, x⟩ := a
    simp only [tput] at h
    split at h
    · simpa using h
    · split at h
      · simp only [List.mem_cons] at h ⊢; tauto
      · simp only [List.mem_cons] at h ⊢
        obtain h | h := h
        · exact .inr (.inl h)
        · exact (ih h).imp id .inr

/-- What `tput` takes away is what `tget` finds. -/
theorem mem_tput_of_mem {α : Type} {t : Table α} {k : Nat} {v : α} {e : Nat × α} (h : e ∈ t) :
    e ∈ tput t k v ∨ tget t k = some e.2 ∧ (k, v) ∈ tput t k v := by
  induction t with
  | nil => cases h
  | cons a r ih =>
    obtain ⟨j, x⟩ := a
    simp only [tput, tget]
    split_ifs with h1 h2 h3
    · omega
    · exact .inl (List.mem_cons_of_mem _ h)
    · obtain _ | ⟨_, h⟩ := h
      · exact .inr ⟨rfl, List.mem_cons_self ..⟩
      · exact .inl (List.mem_cons_of_mem _ h)
    · obtain _ | ⟨_, h⟩ := h
      · exact .inl (List.mem_cons_self ..)
      · exact (ih h).imp (List.mem_cons_of_mem _) fun h => ⟨h.1, List.mem_cons_of_mem _ h.2⟩

theorem mem_of_tget {α : Type} {t : Table α} {k : Nat} {v : α} (h : tget t k = some v) : (k, v) ∈ t := by
  induction t with
  | nil => cases h
  | cons a r ih =>
    obtain ⟨j, x⟩ := a
    simp only [tget] at h
    split at h
    · rename_i hj; cases h; exact hj ▸ List.mem_cons_self ..
    · exact List.mem_cons_of_mem _ (ih h)

/-- Dies after a change that leaves negatives alone. -/
@[simp] theorem State.updDie_modeOk {f : Die → Die} (s : State) (d : Nat) (hf : (f (s.die d)).negative = (s.die d).negative) :
    (s.updDie d f).ModeOk ↔ s.ModeOk := by
  have key : DiesModes (tput s.x.dies d (f (s.die d))) ↔ DiesModes s.x.dies := by
    constructor
    · intro h e he n hn
      obtain hm | ⟨hg, hm⟩ := mem_tput_of_mem (k := d) (v := f (s.die d)) he
      · exact h e hm n hn
      · exact h _ hm n (by rw [hf, State.die, hg]; exact hn)
    · intro h e he n hn
      obtain rfl | he := mem_tput he
      · rw [hf, State.die] at hn
        cases hg : tget s.x.dies d with
        | none => rw [hg] at hn; cases hn
        | some x => rw [hg] at hn; exact h _ (mem_of_tget hg) n hn
      · exact h e he n hn
  simp only [State.updDie, StateModes, key, State.modeOk_iff]

end Sys2Proof.Machine
end

section
/-! SUPPORT. The legality of MODE values (03 R55) under the rules of one path, one warp and the state: what a lookup finds and
what an update leaves. -/

namespace Sys2Proof.Machine

/-! ### Slots, groups and lookups -/

@[simp] theorem slotModes_none : SlotModes none := fun _ h => nomatch h

@[simp] theorem slotModes_some (p : Path) : SlotModes (some p) ↔ p.ModeOk := by simp [SlotModes]

theorem slotModes_map {f : Path → Path} (hf : ∀ p, (f p).ModeOk ↔ p.ModeOk) (o : Option Path) : SlotModes (o.map f) ↔ SlotModes o := by
  cases o <;> simp [hf]

theorem slotModes_bind {f : Path → Option Path} (hf : ∀ p, p.ModeOk → SlotModes (f p)) {o : Option Path} (h : SlotModes o) :
    SlotModes (o.bind f) := by
  cases o with
  | none => exact slotModes_none
  | some p => exact hf p (h p rfl)

@[simp] theorem groupModes_nil : GroupModes [] := fun _ h => nomatch h

@[simp] theorem frozenModes_none : FrozenModes none := fun _ h => nomatch h

theorem mem_of_findBy {α β : Type} [DecidableEq β] {key : α → β} {k : β} {l : List α} {x : α} (h : findBy key k l = some x) : x ∈ l := by
  induction l with
  | nil => cases h
  | cons y r ih =>
    simp only [findBy] at h
    split at h
    · cases h; exact List.mem_cons_self ..
    · exact List.mem_cons_of_mem _ (ih h)

theorem State.ModeOk.warp {s : State} (h : s.ModeOk) {r : WarpRef} {w : Warp} (hw : s.warp? r = some w) : w.ModeOk :=
  h.warps w (mem_of_findBy hw)

theorem Warp.ModeOk.slots {w : Warp} (h : w.ModeOk) (slot : Bool) : SlotModes (w.path? slot) := by
  cases slot
  · exact h.p0
  · exact h.p1

theorem Warp.ModeOk.path {w : Warp} (h : w.ModeOk) {slot : Bool} {p : Path} (hp : w.path? slot = some p) : p.ModeOk := h.slots slot p hp

/-- An instruction's context is one of a state whose MODE values are legal. -/
structure Ctx.ModeOk (c : Ctx) : Prop where
  s : c.s.ModeOk
  w : c.w.ModeOk
  p : c.p.ModeOk

theorem State.ModeOk.ctxAt {s : State} (h : s.ModeOk) {r : WarpRef} {slot : Bool} {c : Ctx} (hc : s.ctxAt? r slot = some c) : c.ModeOk := by
  simp only [State.ctxAt?] at hc
  split at hc
  · rename_i hw _ _
    split at hc
    · rename_i hp
      cases hc
      exact ⟨h, h.warp hw, (h.warp hw).path hp⟩
    · cases hc
  · cases hc

theorem State.ModeOk.ctx {s : State} (h : s.ModeOk) {c : Ctx} (hc : s.ctx? = some c) : c.ModeOk := by
  simp only [State.ctx?] at hc
  split at hc
  · exact h.ctxAt hc
  · cases hc

/-! ### Putting a warp or a path -/

theorem State.setWarp_modeOk {s : State} {w : Warp} (h : s.ModeOk) (hw : w.ModeOk) : (s.setWarp w).ModeOk := by
  refine ⟨?_, h.saves, h.negatives⟩
  simp only [State.setWarp, setBy, List.forall_mem_map]
  intro v hv
  split
  · exact hw
  · exact h.warps v hv

/-- Warps after a change that keeps their MODE values legal. -/
theorem State.updWarp_modeOk_of {s : State} (h : s.ModeOk) {r : WarpRef} {f : Warp → Warp} (hf : ∀ w, w.ModeOk → (f w).ModeOk) :
    (s.updWarp r f).ModeOk := by
  refine ⟨?_, h.saves, h.negatives⟩
  simp only [State.updWarp, List.forall_mem_map]
  intro v hv
  split
  · exact hf v (h.warps v hv)
  · exact h.warps v hv

theorem Warp.setPath_modeOk {w : Warp} {slot : Bool} {o : Option Path} (h : w.ModeOk) (ho : SlotModes o) : (w.setPath slot o).ModeOk := by
  obtain ⟨h0, h1, hg, hf⟩ := h
  cases slot
  · exact ⟨ho, h1, hg, hf⟩
  · exact ⟨h0, ho, hg, hf⟩

theorem Warp.updPath_modeOk_of {w : Warp} {slot : Bool} {f : Path → Path} (h : w.ModeOk) (hf : ∀ p, p.ModeOk → (f p).ModeOk) :
    (w.updPath slot f).ModeOk := by
  refine Warp.setPath_modeOk h ?_
  intro p hp
  obtain ⟨q, hq, rfl⟩ := Option.map_eq_some_iff.mp hp
  exact hf q (h.path hq)

/-- A path after a change that keeps its MODE values legal. -/
theorem State.updPath_modeOk_of {s : State} (h : s.ModeOk) {r : WarpRef} {slot : Bool} {f : Path → Path} (hf : ∀ p, p.ModeOk → (f p).ModeOk) :
    (s.updPath r slot f).ModeOk :=
  State.updWarp_modeOk_of h fun _ hw => Warp.updPath_modeOk_of hw hf

/-- The control die after a change that leaves the saved contexts alone. -/
@[simp] theorem State.updCtl_modeOk {f : Control → Control} (s : State) (hf : (f s.ctl).saves = s.ctl.saves) :
    (s.updCtl f).ModeOk ↔ s.ModeOk := by
  simp [State.updCtl, hf]

/-! ### Updates of a path that leave MODE alone -/

namespace Path

@[simp] theorem goOn_modeOk (p : Path) (pc : Word) : (p.goOn pc).ModeOk ↔ p.ModeOk := by simp [goOn]

@[simp] theorem outstanding_modeOk (p : Path) (pc : Word) (ws : List (WTarget × Word)) : (p.outstanding pc ws).ModeOk ↔ p.ModeOk := by
  simp [outstanding]

@[simp] theorem mark_modeOk (p : Path) (m : Bool) : (p.mark m).ModeOk ↔ p.ModeOk := by cases m <;> simp [mark]

@[simp] theorem pass_modeOk (p : Path) (k : Park) (len : Nat) : (p.pass k len).ModeOk ↔ p.ModeOk := by
  unfold pass
  split
  · simp
  · rfl

@[simp] theorem rewait_modeOk (p : Path) : p.rewait.ModeOk ↔ p.ModeOk := by simp [rewait]

@[simp] theorem moved_modeOk (p : Path) : p.moved.ModeOk ↔ p.ModeOk := by simp [moved]

@[simp] theorem retryAt_modeOk (p : Path) (pc : Word) (only : LaneMask) (npc : Word) : (p.retryAt pc only npc).ModeOk ↔ p.ModeOk := by
  simp [retryAt]

@[simp] theorem unpark_modeOk (p : Path) (k : Park) : (p.unpark k).ModeOk ↔ p.ModeOk := by
  unfold unpark
  split
  · simp
  · rfl

@[simp] theorem wakeBatch_modeOk (w : Warp) (p : Path) : (Path.wakeBatch w p).ModeOk ↔ p.ModeOk := by
  unfold wakeBatch
  split
  · split <;> simp
  · split <;> simp
  · rfl

@[simp] theorem faultsAfter_modeOk (k : Park) (e : LateFault) (p : Path) : (Path.faultsAfter k e p).ModeOk ↔ p.ModeOk := by
  unfold faultsAfter
  split
  · simp
  · rfl

@[simp] theorem spliced_modeOk (p : Path) (id : Nat) (pc : Word) (ws : List (WTarget × Word)) (e : Option LateFault) :
    (p.spliced id pc ws e).ModeOk ↔ p.ModeOk := by simp [spliced]

@[simp] theorem owe_modeOk (p : Path) (id : Nat) (pc : Word) (dest : List Nat) : (p.owe id pc dest).ModeOk ↔ p.ModeOk := by simp [owe]

@[simp] theorem saved_modeOk (t : Bool) (p : Path) : (Path.saved t p).ModeOk ↔ p.ModeOk := by simp [saved]

@[simp] theorem passedOver_modeOk (p : Path) (e a : Bool) : (p.passedOver e a).ModeOk ↔ p.ModeOk := by
  unfold passedOver
  split
  · simp
  · split <;> simp

end Path

/-! ### Updates of a warp that leave MODE alone -/

namespace Warp

@[simp] theorem commit_modeOk (w : Warp) (t : WTarget) (x : Word) : (w.commit t x).ModeOk ↔ w.ModeOk := by cases t <;> simp [commit]

@[simp] theorem commitAll_modeOk (w : Warp) (ws : List (WTarget × Word)) : (w.commitAll ws).ModeOk ↔ w.ModeOk := by
  induction ws generalizing w with
  | nil => rfl
  | cons x r ih => simp [commitAll, ih]

@[simp] theorem landRegs_modeOk (free n code : Nat) (w : Warp) (ws : List PendingWrite) :
    (landRegs free n code w ws).ModeOk ↔ w.ModeOk := by
  fun_induction landRegs free n code w ws <;> simp_all

@[simp] theorem retire_modeOk (w : Warp) (l : Launch) : (w.retire l).ModeOk ↔ w.ModeOk := by simp [retire]

@[simp] theorem barrierFrame_modeOk (w : Warp) (hi : Nat) (b : Bool) : (w.barrierFrame hi b).ModeOk ↔ w.ModeOk := by
  cases b <;> simp [barrierFrame]

/-- Both paths after a change that leaves MODE values alone. -/
@[simp] theorem mapPaths_modeOk {f g : Path → Path} (hf : ∀ p, (f p).ModeOk ↔ p.ModeOk) (hg : ∀ p, (g p).ModeOk ↔ p.ModeOk) (w : Warp) :
    WarpModes (w.p0.map f) (w.p1.map g) w.groups w.frozen ↔ w.ModeOk := by
  simp [WarpModes, slotModes_map hf, slotModes_map hg, Warp.modeOk_iff]

@[simp] theorem movedPaths_modeOk (w : Warp) : w.movedPaths.ModeOk ↔ w.ModeOk := by simp [movedPaths]

/-- A warp with another path in a slot, of the same MODE values. -/
theorem setPath_modeOk_iff {w : Warp} {slot : Bool} {p q : Path} (hp : w.path? slot = some p) (hq : q.ModeOk ↔ p.ModeOk) :
    (w.setPath slot (some q)).ModeOk ↔ w.ModeOk := by
  cases slot <;> simp_all [path?, setPath, WarpModes, Warp.modeOk_iff]

@[simp] theorem path?_commit (w : Warp) (t : WTarget) (x : Word) (slot : Bool) : (w.commit t x).path? slot = w.path? slot := by
  cases t <;> rfl

@[simp] theorem path?_commitAll (w : Warp) (ws : List (WTarget × Word)) (slot : Bool) : (w.commitAll ws).path? slot = w.path? slot := by
  induction ws generalizing w with
  | nil => rfl
  | cons x r ih => simp [commitAll, ih]

@[simp] theorem path?_landRegs (free n code : Nat) (w : Warp) (ws : List PendingWrite) (slot : Bool) :
    (landRegs free n code w ws).path? slot = w.path? slot := by
  fun_induction landRegs free n code w ws <;> simp_all

@[simp] theorem landPath_modeOk (free : Nat) (w : Warp) (slot : Bool) : (landPath free w slot).ModeOk ↔ w.ModeOk := by
  unfold landPath
  split
  · rfl
  · rename_i p hp
    rw [setPath_modeOk_iff (p := p) (by simpa using hp) (by simp)]; simp

@[simp] theorem landOne_modeOk (w : Warp) (slot : Bool) (k : Nat) : (w.landOne slot k).ModeOk ↔ w.ModeOk := by
  unfold landOne
  split
  · rfl
  · rename_i p hp
    rw [setPath_modeOk_iff (p := p) (by simpa using hp) (by simp)]; simp

@[simp] theorem committed_modeOk (w : Warp) (n : Nat) : (w.committed n).ModeOk ↔ w.ModeOk := by
  unfold committed
  simp only []
  split
  · split <;> simp
  · split
    · simp only [modeOk_mk]
      refine w.mapPaths_modeOk (fun p => ?_) fun p => ?_ <;> split <;> simp
    · rfl

@[simp] theorem saved_modeOk (w : Warp) (tripod : Bool) (ticket : Nat) : (w.saved tripod ticket).ModeOk ↔ w.ModeOk := by
  simp [saved]

end Warp

@[simp] theorem State.passWarp_modeOk (s : State) (n : Nat) (w : Warp) : (s.passWarp n w).ModeOk ↔ w.ModeOk := by
  unfold State.passWarp
  split <;> simp

theorem Warp.fresh_modeOk (ref : WarpRef) (entry sched : Nat) (clk : DWord) : (Warp.fresh ref entry sched clk).ModeOk := by
  simp [Warp.fresh, WarpModes, Path.start, StackModes]
  decide
end Sys2Proof.Machine
end

section
/-! SUPPORT. MODE values move with lanes (07 R137 to R139): entries, groups, exits, splits. -/

namespace Sys2Proof.Machine

theorem modeLegal_zero : modeLegal 0 = true := by decide

@[simp] theorem Path.start_modeOk (pc : Word) (lanes : LaneMask) : (Path.start pc lanes).ModeOk := by
  rw [Path.modeOk_iff]
  exact ⟨modeLegal_zero, fun _ h => nomatch h⟩

theorem Path.ModeOk.mode {p : Path} (h : p.ModeOk) : modeLegal p.mode = true := h.1

theorem Path.ModeOk.stack {p : Path} (h : p.ModeOk) : ∀ e ∈ p.stack, modeLegal e.mode = true := h.2

theorem Path.popped_modeOk {p : Path} (h : p.ModeOk) : SlotModes p.popped := by
  unfold popped
  split
  · exact slotModes_none
  · rename_i e r hs
    have hl : ∀ x ∈ e :: r, modeLegal x.mode = true := hs ▸ h.stack
    simpa [PendEntry.path, StackModes] using hl

theorem mode_getD {as : List Arrival} (h : ∀ a ∈ as, modeLegal a.mode = true) {o : Option Arrival} (ho : ∀ a, o = some a → a ∈ as) :
    modeLegal ((o.map Arrival.mode).getD 0) = true := by
  cases o with
  | none => exact modeLegal_zero
  | some a => exact h a (ho a rfl)

theorem arrivalOf_mem {lane : Nat} {as : List Arrival} {a : Arrival} (h : arrivalOf lane as = some a) : a ∈ as := List.mem_of_find?_eq_some h

/-- The path of a group has a MODE that an arrival brought. -/
theorem JoinGroup.toPath_mode {g : JoinGroup} (h : ∀ a ∈ g.arrivals, modeLegal a.mode = true) : modeLegal g.toPath.mode = true := by
  unfold toPath
  simp only []
  split
  · exact mode_getD h fun _ => arrivalOf_mem
  · exact mode_getD h fun _ => arrivalOf_mem
  · simp only []
    split
    · exact mode_getD h fun _ => arrivalOf_mem
    · exact mode_getD h fun _ => arrivalOf_mem

theorem JoinGroup.toPath_stack (g : JoinGroup) : g.toPath.stack = [] := by
  unfold toPath
  simp only []
  split <;> rfl

theorem JoinGroup.toPath_modeOk {g : JoinGroup} (h : ∀ a ∈ g.arrivals, modeLegal a.mode = true) : g.toPath.ModeOk := by
  rw [Path.modeOk_iff, StackModes, g.toPath_stack]
  exact ⟨g.toPath_mode h, fun _ h => nomatch h⟩

theorem groupModes_cons {g : JoinGroup} {gs : List JoinGroup} :
    GroupModes (g :: gs) ↔ (∀ a ∈ g.arrivals, modeLegal a.mode = true) ∧ GroupModes gs := List.forall_mem_cons

theorem joinGroup_modes {k : GroupKey} {a : Arrival} {gs : List JoinGroup} (h : GroupModes gs) (ha : modeLegal a.mode = true) :
    GroupModes (joinGroup k a gs) := by
  induction gs with
  | nil => simpa [joinGroup, groupModes_cons] using ha
  | cons g r ih =>
    rw [groupModes_cons] at h
    unfold joinGroup
    split
    · rw [groupModes_cons]
      refine ⟨?_, h.2⟩
      intro b hb
      simp only [List.mem_append, List.mem_singleton] at hb
      obtain hb | rfl := hb
      · exact h.1 b hb
      · exact ha
    · exact groupModes_cons.mpr ⟨h.1, ih h.2⟩

theorem GroupModes.sub {gs hs : List JoinGroup} (h : GroupModes gs) (hsub : ∀ g ∈ hs, ∃ g' ∈ gs, ∀ a ∈ g.arrivals, ∃ a' ∈ g'.arrivals, a.mode = a'.mode) :
    GroupModes hs := by
  intro g hg a ha
  obtain ⟨g', hg', hs⟩ := hsub g hg
  obtain ⟨a', ha', e⟩ := hs a ha
  exact e ▸ h g' hg' a' ha'

theorem dropGroup_modes {k : GroupKey} {gs : List JoinGroup} (h : GroupModes gs) : GroupModes (dropGroup k gs) :=
  fun g hg => h g (List.mem_of_mem_filter hg)

theorem stripGroups_modes {x : LaneMask} {gs : List JoinGroup} (h : GroupModes gs) : GroupModes (stripGroups x gs) := by
  refine h.sub fun g hg => ?_
  simp only [stripGroups, List.mem_filter, List.mem_map] at hg
  obtain ⟨⟨g', hg', rfl⟩, -⟩ := hg
  refine ⟨g', hg', fun a ha => ?_⟩
  simp only [List.mem_filter, List.mem_map] at ha
  obtain ⟨⟨a', ha', rfl⟩, -⟩ := ha
  exact ⟨a', ha', rfl⟩

theorem stripEntries_modes {x : LaneMask} {es : List PendEntry} (h : ∀ e ∈ es, modeLegal e.mode = true) :
    ∀ e ∈ stripEntries x es, modeLegal e.mode = true := by
  intro e he
  simp only [stripEntries, List.mem_filter, List.mem_map] at he
  obtain ⟨⟨e', he', rfl⟩, -⟩ := he
  exact h e' he'

theorem Path.strip_modeOk {x : LaneMask} {p : Path} (h : p.ModeOk) : SlotModes (p.strip x) := by
  have hp : ({ p with lanes := p.lanes &&& ~~~x, stack := stripEntries x p.stack } : Path).ModeOk := ⟨h.mode, stripEntries_modes h.stack⟩
  unfold strip
  simp only []
  split
  · exact popped_modeOk hp
  · simpa using hp

namespace Warp

theorem exitLanes_modeOk {w : Warp} (h : w.ModeOk) (x : LaneMask) : (w.exitLanes x).ModeOk := by
  obtain ⟨h0, h1, hg, hf⟩ := h
  exact ⟨slotModes_bind (fun _ => Path.strip_modeOk) h0, slotModes_bind (fun _ => Path.strip_modeOk) h1, stripGroups_modes hg, hf⟩

theorem ModeOk.groupsOk {w : Warp} (h : w.ModeOk) : GroupModes w.groups := h.groups

theorem withGroups_modeOk {w : Warp} (h : w.ModeOk) {gs : List JoinGroup} (hg : GroupModes gs) : ({ w with groups := gs } : Warp).ModeOk :=
  ⟨h.p0, h.p1, hg, h.frozen⟩

theorem enter_modeOk {w : Warp} (h : w.ModeOk) (slot : Bool) (k : GroupKey) (active : LaneMask) : (w.enter slot k active).1.ModeOk := by
  unfold enter
  split
  · exact h
  · rename_i p hp
    have hpm := h.path hp
    have hj : GroupModes (joinGroup k ⟨p.lanes, active, p.mode, p.ix, w.arrivals⟩ w.groups) := joinGroup_modes h.groups hpm.mode
    simp only []
    split
    · exact ⟨h.p0, h.p1, hj, h.frozen⟩
    · rename_i g hg
      split
      · refine setPath_modeOk ⟨h.p0, h.p1, dropGroup_modes hj, h.frozen⟩ ?_
        rw [slotModes_some, Path.modeOk_mk]
        exact ⟨JoinGroup.toPath_mode (hj g (mem_of_findBy hg)), hpm.stack⟩
      · exact setPath_modeOk ⟨h.p0, h.p1, hj, h.frozen⟩ (Path.popped_modeOk hpm)

theorem place?_modeOk {w v : Warp} (h : w.ModeOk) {g : JoinGroup} (hg : ∀ a ∈ g.arrivals, modeLegal a.mode = true) {actor : Bool}
    (hv : w.place? g actor = some v) : v.ModeOk := by
  have hp := JoinGroup.toPath_modeOk hg
  unfold place? at hv
  split at hv
  · cases hv; exact setPath_modeOk h (by simpa using hp)
  · cases hv; exact setPath_modeOk h (by simpa using hp)
  · rename_i p hpath _ _
    have hpm := h.path hpath
    split at hv
    · cases hv
      refine setPath_modeOk h ?_
      rw [slotModes_some, Path.modeOk_mk]
      exact ⟨hpm.mode, List.forall_mem_cons.mpr ⟨hp.mode, hpm.stack⟩⟩
    · cases hv
  · cases hv

theorem placeGroups_modeOk {actor : Bool} {w : Warp} (h : w.ModeOk) {gs : List JoinGroup} (hg : GroupModes gs) :
    (placeGroups actor w gs).ModeOk := by
  induction gs generalizing w with
  | nil => exact h
  | cons g r ih =>
    rw [groupModes_cons] at hg
    unfold placeGroups
    simp only []
    split
    · split
      · rename_i hp
        exact ih (place?_modeOk (withGroups_modeOk h (dropGroup_modes h.groups)) hg.1 hp) hg.2
      · refine ih (withGroups_modeOk h (h.groupsOk.sub fun g' hg' => ?_)) hg.2
        obtain ⟨g'', hm, rfl⟩ := List.mem_map.mp hg'
        refine ⟨g'', hm, fun a ha => ⟨a, ?_, rfl⟩⟩
        split at ha
        · exact ha
        · exact ha
    · exact ih h hg.2

theorem settle_modeOk {w : Warp} (h : w.ModeOk) (actor : Bool) : (w.settle actor).ModeOk := placeGroups_modeOk h h.groups

theorem split_modeOk {w v : Warp} (h : w.ModeOk) {p : Path} (hp : p.ModeOk) {slot : Bool} {t n : LaneMask} {target next : Word}
    (hv : w.split slot p t n target next = some v) : v.ModeOk := by
  unfold split at hv
  simp only [] at hv
  split at hv
  · cases hv
    refine setPath_modeOk (setPath_modeOk h ?_) ?_
    · rw [slotModes_some]; exact ⟨hp.mode, hp.stack⟩
    · rw [slotModes_some]; exact ⟨hp.mode, fun _ h => nomatch h⟩
  · split at hv
    · cases hv
      refine setPath_modeOk h ?_
      rw [slotModes_some]
      exact ⟨hp.mode, List.forall_mem_cons.mpr ⟨hp.mode, hp.stack⟩⟩
    · cases hv

/-- One step of the search for the earliest arrival. -/
def earlier (k : GroupKey) (b : Option (GroupKey × Arrival)) (a : Arrival) : Option (GroupKey × Arrival) :=
  match b with
  | none => some (k, a)
  | some (j, x) => if a.seq < x.seq then some (k, a) else some (j, x)

theorem earlier_mem {k : GroupKey} {as : List Arrival} {b : Option (GroupKey × Arrival)} {x : GroupKey × Arrival}
    (h : as.foldl (earlier k) b = some x) : x.2 ∈ as ∨ b = some x := by
  induction as generalizing b with
  | nil => exact .inr h
  | cons a r ih =>
    obtain hm | he := ih h
    · exact .inl (List.mem_cons_of_mem _ hm)
    · unfold earlier at he
      split at he
      · cases he; exact .inl (List.mem_cons_self ..)
      · split at he
        · cases he; exact .inl (List.mem_cons_self ..)
        · exact .inr he

/-- The earliest arrival stands in a group. -/
theorem firstArrival_mem {gs : List JoinGroup} {x : GroupKey × Arrival} (h : firstArrival gs = some x) : ∃ g ∈ gs, x.2 ∈ g.arrivals := by
  induction gs with
  | nil => cases h
  | cons g r ih =>
    have hb {y} (hy : g.arrivals.foldl (earlier g.key) none = some y) : ∃ g' ∈ g :: r, y.2 ∈ g'.arrivals :=
      ⟨g, List.mem_cons_self .., (earlier_mem hy).resolve_right nofun⟩
    have hr {y} (hy : firstArrival r = some y) (ih : firstArrival r = some y → ∃ g' ∈ r, y.2 ∈ g'.arrivals) :
        ∃ g' ∈ g :: r, y.2 ∈ g'.arrivals :=
      have ⟨g', hm, ha⟩ := ih hy
      ⟨g', List.mem_cons_of_mem _ hm, ha⟩
    have e : firstArrival (g :: r) = match g.arrivals.foldl (earlier g.key) none, firstArrival r with
      | none, o => o
      | some b, none => some b
      | some (k, a), some (k', a') => if a'.seq < a.seq then some (k', a') else some (k, a) := rfl
    rw [e] at h
    split at h
    · exact hr h ih
    · rename_i hy _; cases h; exact hb hy
    · rename_i hy hz
      split at h
      · cases h; exact hr hz ih
      · cases h; exact hb hy

theorem unstick_modeOk {w v : Warp} (h : w.ModeOk) (hv : w.unstick = some v) : v.ModeOk := by
  unfold unstick at hv
  split at hv
  · cases hv
  · rename_i k a hf
    obtain ⟨g, hg, ha⟩ := firstArrival_mem hf
    cases hv
    refine ⟨?_, h.p1, h.groupsOk.sub fun g hg => ?_, h.frozen⟩
    · rw [← SlotModes, slotModes_some]
      exact ⟨h.groups g hg a ha, fun _ h => nomatch h⟩
    · obtain ⟨g', hg', rfl⟩ := List.mem_map.mp (List.mem_of_mem_filter hg)
      refine ⟨g', hg', fun b hb => ⟨b, ?_, rfl⟩⟩
      split at hb
      · exact List.mem_of_mem_filter hb
      · exact hb
end Warp
end Sys2Proof.Machine
end

section
/-! SUPPORT. Operations on the state that touch no path, pending entry or group, or none's MODE: what they leave has legal MODE
values exactly when the state before has. In the order of the model's files. -/

namespace Sys2Proof.Machine

/-! ### Single parts of the state -/

@[simp] theorem State.updBlock_modeOk (s : State) (launch : ℕ) (block : ℕ) (f : Block → Block) :
    (State.updBlock s launch block f).ModeOk ↔ s.ModeOk := by simp [State.updBlock]

@[simp] theorem State.updLaunch_modeOk (s : State) (uid : ℕ) (f : Launch → Launch) :
    (State.updLaunch s uid f).ModeOk ↔ s.ModeOk := by simp [State.updLaunch]

@[simp] theorem State.updCluster_modeOk (s : State) (launch : ℕ) (num : ℕ) (f : LaunchCluster → LaunchCluster) :
    (State.updCluster s launch num f).ModeOk ↔ s.ModeOk := by simp [State.updCluster]

@[simp] theorem State.updSpan_modeOk (s : State) (launch : ℕ) (num : ℕ) (f : Span → Span) :
    (State.updSpan s launch num f).ModeOk ↔ s.ModeOk := by simp [State.updSpan]

@[simp] theorem State.updOp_modeOk (s : State) (id : ℕ) (f : EngineOp → EngineOp) :
    (State.updOp s id f).ModeOk ↔ s.ModeOk := by simp [State.updOp]

@[simp] theorem State.updLoupe_modeOk (s : State) (d : ℕ) (f : LoupeCluster → LoupeCluster) :
    (State.updLoupe s d f).ModeOk ↔ s.ModeOk := by simp [State.updLoupe]

@[simp] theorem State.updEngine_modeOk (s : State) (die : ℕ) (site : ℕ) (f : MatrixEngine → MatrixEngine) :
    (State.updEngine s die site f).ModeOk ↔ s.ModeOk := by simp [State.updEngine]

@[simp] theorem State.updCore_modeOk (s : State) (k : ℕ) (f : CoreState → CoreState) :
    (State.updCore s k f).ModeOk ↔ s.ModeOk := by simp [State.updCore]

@[simp] theorem State.updIface_modeOk (s : State) (i : ℕ) (f : Iface → Iface) :
    (State.updIface s i f).ModeOk ↔ s.ModeOk := by simp [State.updIface]

@[simp] theorem State.updQueue_modeOk (s : State) (i : ℕ) (q : ℕ) (f : Queue → Queue) :
    (State.updQueue s i q f).ModeOk ↔ s.ModeOk := by simp [State.updQueue]

@[simp] theorem State.logEvent_modeOk (s : State) (e : LogEvent) :
    (State.logEvent s e).ModeOk ↔ s.ModeOk := by simp [State.logEvent]

@[simp] theorem State.bump_modeOk (s : State) :
    (State.bump s).ModeOk ↔ s.ModeOk := by simp [State.bump]

/-! ### Memory and translation -/

@[simp] theorem State.writeByte_modeOk (s : State) (world : ℕ) (pa : ℕ) (b : Byte) :
    (State.writeByte s world pa b).ModeOk ↔ s.ModeOk := by simp [State.writeByte]

@[simp] theorem State.writePhys_modeOk (s : State) (world : ℕ) (n : ℕ) (l : List Byte) :
    (State.writePhys s world n l).ModeOk ↔ s.ModeOk := by
  fun_induction State.writePhys s world n l <;> simp_all

@[simp] theorem State.writeHost_modeOk (s : State) (hostPa : ℕ) (bs : List Byte) :
    (State.writeHost s hostPa bs).ModeOk ↔ s.ModeOk := by simp [State.writeHost]

@[simp] theorem State.cacheLeaf_modeOk (s : State) (d : ℕ) (i : Mmu) (va : ℕ) (w : Walk) :
    (State.cacheLeaf s d i va w).ModeOk ↔ s.ModeOk := by
  unfold State.cacheLeaf
  split <;> simp

@[simp] theorem State.logRefused_modeOk (s : State) (i : ℕ) (via : Via) (o : ℕ) (world : ℕ) :
    (State.logRefused s i via o world).ModeOk ↔ s.ModeOk := by simp [State.logRefused]

@[simp] theorem State.stampMessage_modeOk (s : State) (m : DieMessage) :
    (State.stampMessage s m).ModeOk ↔ s.ModeOk := by simp [State.stampMessage]

@[simp] theorem State.notify_modeOk (s : State) (dst : ℕ) (world : ℕ) (addr : ℕ) :
    (State.notify s dst world addr).ModeOk ↔ s.ModeOk := by simp [State.notify]

@[simp] theorem State.sendStart_modeOk (s : State) (dst : ℕ) (world : ℕ) (args : List Byte) :
    (State.sendStart s dst world args).ModeOk ↔ s.ModeOk := by simp [State.sendStart]

@[simp] theorem State.afterWalk_modeOk (s : State) (i : Mmu) (world : ℕ) (va : ℕ) :
    (State.afterWalk s i world va).ModeOk ↔ s.ModeOk := by simp [State.afterWalk]

@[simp] theorem State.transVia_modeOk (s : State) (via : Via) (i : Mmu) (va : ℕ) (need : Need) (world : ℕ) :
    (State.transVia s via i va need world).2.ModeOk ↔ s.ModeOk := by
  simp only [State.transVia]
  repeat' split
  all_goals simp

@[simp] theorem State.readPage_modeOk (s : State) (via : Via) (world : ℕ) (pa : ℕ) (n : ℕ) :
    (State.readPage s via world pa n).2.ModeOk ↔ s.ModeOk := by
  simp only [State.readPage]
  repeat' split
  all_goals simp

@[simp] theorem State.readPieces_modeOk (s : State) (via : Via) (i : Mmu) (world : Nat) (ps : List (Nat × Nat)) :
    (s.readPieces via i world ps).s.ModeOk ↔ s.ModeOk := by
  induction ps generalizing s with
  | nil => rfl
  | cons x r ih =>
    have ht := s.transVia_modeOk via i x.1 .rd world
    unfold readPieces
    split
    · rfl
    · split
      · simp_all
      · split <;> simp_all

@[simp] theorem State.readVa_modeOk (s : State) (via : Via) (i : Mmu) (world : ℕ) (va : ℕ) (n : ℕ) :
    (State.readVa s via i world va n).s.ModeOk ↔ s.ModeOk := by simp [State.readVa]

@[simp] theorem State.countAccepted_modeOk (s : State) (src : ℕ) (dst : ℕ) :
    (State.countAccepted s src dst).ModeOk ↔ s.ModeOk := by simp [State.countAccepted]

@[simp] theorem State.toControl_modeOk (s : State) (d : ℕ) :
    (State.toControl s d).2.ModeOk ↔ s.ModeOk := by
  unfold State.toControl
  split <;> simp

@[simp] theorem State.deliverWrite_modeOk (s : State) (m : DieMessage) :
    (State.deliverWrite s m).ModeOk ↔ s.ModeOk := by simp [State.deliverWrite]

@[simp] theorem State.writePage_modeOk (s : State) (via : Via) (world : ℕ) (op : Option ℕ) (pa : ℕ) (bs : List Byte) :
    (State.writePage s via world op pa bs).ModeOk ↔ s.ModeOk := by
  simp only [State.writePage]
  repeat' split
  all_goals simp

@[simp] theorem State.writePieces_modeOk (s : State) (via : Via) (i : Mmu) (world : Nat) (op : Option Nat) (ps : List (Nat × Nat))
    (bs : List Byte) : (s.writePieces via i world op ps bs).2.ModeOk ↔ s.ModeOk := by
  induction ps generalizing s bs with
  | nil => simp [writePieces]
  | cons x r ih =>
    have ht := s.transVia_modeOk via i x.1 .w world
    unfold writePieces
    split
    · rfl
    · split
      · simp_all
      · split <;> simp_all

@[simp] theorem State.writeVa_modeOk (s : State) (via : Via) (i : Mmu) (world : ℕ) (op : Option ℕ) (va : ℕ) (bs : List Byte) :
    (s.writeVa via i world op va bs).2.ModeOk ↔ s.ModeOk := by
  simp [writeVa]

theorem State.modeOk_of_writeVa {s t : State} {via : Via} {i : Mmu} {world va : ℕ} {op : Option ℕ} {bs : List Byte} {o : Option (FaultKind × ℕ)}
    (h : s.writeVa via i world op va bs = (o, t)) : t.ModeOk ↔ s.ModeOk := by
  simpa [h] using s.writeVa_modeOk via i world op va bs

/-! ### The trace -/

@[simp] theorem State.sheet_modeOk (s : State) (r : WarpRef) (mask : Word) (pc : Word) (dclk : Option ℕ) (dest : ℕ) (flags : ℕ) (ty : ℕ) :
    (State.sheet s r mask pc dclk dest flags ty).ModeOk ↔ s.ModeOk := by
  unfold State.sheet
  repeat' split
  all_goals simp

@[simp] theorem State.hazards_modeOk (s : State) (r : WarpRef) (active pc : Word) (path : Bool) (flags : Nat) (xs : List Nat)
    (us : List Uncovered) : (s.hazards r active pc path flags xs us).ModeOk ↔ s.ModeOk := by
  induction xs generalizing s with
  | nil => simp [hazards]
  | cons x xs ih =>
    unfold hazards
    simp only [ih]
    split <;> simp

@[simp] theorem State.film_modeOk (s : State) (w : Warp) (ks : List Landed) :
    (State.film s w ks).ModeOk ↔ s.ModeOk := by
  unfold State.film
  split <;> simp

@[simp] theorem State.filmed_modeOk (s : State) (r : WarpRef) (ks : List (ℕ × Word)) :
    (State.filmed s r ks).ModeOk ↔ s.ModeOk := by
  unfold State.filmed
  split <;> simp

@[simp] theorem State.profWrite_modeOk (s : State) (ref : WarpRef) (p : ProfSet) (depth : Nat) (trunc : Bool) :
    (s.profWrite ref p depth trunc).ModeOk ↔ s.ModeOk := by
  have key (t : State) (c : Bool) (i : Mmu) (world va va' va'' : ℕ) (bs bs' bs'' : List Byte) (ht : t.ModeOk ↔ s.ModeOk) :
      (if c then t else
        match t.writeVa none i world none va bs with
        | (none, s') => (s'.writeVa none i world none va' bs').2
        | (some _, _) => (t.writeVa none i world none va'' bs'').2).ModeOk ↔ s.ModeOk := by
    split
    · exact ht
    · split
      · rename_i h; simp [modeOk_of_writeVa h, ht]
      · simp [ht]
  unfold profWrite
  split
  · rfl
  · refine key _ _ _ _ _ _ _ _ _ _ ?_
    split
    · split <;> simp
    · rfl

@[simp] theorem State.profFlush_modeOk (s : State) (ref : WarpRef) (l : List ProfSet) :
    (State.profFlush s ref l).ModeOk ↔ s.ModeOk := by
  fun_induction State.profFlush s ref l <;> simp_all

/-! ### Overlays -/

@[simp] theorem State.writePlace_modeOk (s : State) (pl : Place) (n : ℕ) (bs : List Byte) :
    (State.writePlace s pl n bs).ModeOk ↔ s.ModeOk := by
  unfold State.writePlace
  split <;> simp

@[simp] theorem State.applyEntry_modeOk (s : State) (launch : ℕ) (block : ℕ) (e : BufEntry) :
    (State.applyEntry s launch block e).ModeOk ↔ s.ModeOk := by
  unfold State.applyEntry
  split <;> simp

@[simp] theorem State.applyEntries_modeOk (s : State) (launch : ℕ) (block : ℕ) (l : List BufEntry) :
    (State.applyEntries s launch block l).ModeOk ↔ s.ModeOk := by
  fun_induction State.applyEntries s launch block l <;> simp_all

@[simp] theorem State.mergeBlocks_modeOk (s : State) (l : Launch) (num : ℕ) (l1 : List ℕ) :
    (State.mergeBlocks s l num l1).ModeOk ↔ s.ModeOk := by
  fun_induction State.mergeBlocks s l num l1 <;> simp_all +zetaDelta

@[simp] theorem State.mergeClusterOverlay_modeOk (s : State) (l : Launch) (num : ℕ) :
    (State.mergeClusterOverlay s l num).ModeOk ↔ s.ModeOk := by simp [State.mergeClusterOverlay]

@[simp] theorem State.mergeClusters_modeOk (s : State) (l : Launch) (l1 : List ℕ) :
    (State.mergeClusters s l l1).ModeOk ↔ s.ModeOk := by
  fun_induction State.mergeClusters s l l1 <;> simp_all

/-! ### Barriers and frames -/

@[simp] theorem State.setBarrier_modeOk (s : State) (l : Launch) (r : WarpRef) (u : BarUnit) (b : Barrier) :
    (State.setBarrier s l r u b).ModeOk ↔ s.ModeOk := by
  unfold State.setBarrier
  split <;> simp

@[simp] theorem State.barrierFrames_modeOk (s : State) (l : Launch) (u : BarUnit) (g : ℕ) (l1 : List WarpRef) :
    (State.barrierFrames s l u g l1).ModeOk ↔ s.ModeOk := by
  fun_induction State.barrierFrames s l u g l1 <;> simp_all +zetaDelta

@[simp] theorem State.noteFrames_modeOk (s : State) (l : List WarpRef) :
    (State.noteFrames s l).ModeOk ↔ s.ModeOk := by
  fun_induction State.noteFrames s l <;> simp_all

@[simp] theorem State.freeTripodLocks_modeOk (s : State) (l : Launch) (r : WarpRef) (u : BarUnit) :
    (State.freeTripodLocks s l r u).ModeOk ↔ s.ModeOk := by
  unfold State.freeTripodLocks
  split <;> simp

@[simp] theorem State.openSlots_modeOk (s : State) (u : BarUnit) (gen : ℕ) (arrived : List WarpRef) :
    (State.openSlots s u gen arrived).ModeOk ↔ s.ModeOk := by simp [State.openSlots]

@[simp] theorem State.noteHostless_modeOk (s : State) (l : Launch) :
    (State.noteHostless s l).ModeOk ↔ s.ModeOk := by simp [State.noteHostless]

@[simp] theorem State.arriveSlots_modeOk (s : State) (r : WarpRef) (u : BarUnit) (gen : ℕ) :
    (State.arriveSlots s r u gen).ModeOk ↔ s.ModeOk := by simp [State.arriveSlots]

@[simp] theorem State.arriveBarrier_modeOk (s : State) (l : Launch) (r : WarpRef) (u : BarUnit) :
    (State.arriveBarrier s l r u).ModeOk ↔ s.ModeOk := by simp [State.arriveBarrier]

theorem State.writeFrames_go_modeOk (s : State) (l : Launch) (va : Nat) (ps : List (Nat × Nat)) (bs : List Byte) :
    (writeFrames.go l s va ps bs).ModeOk ↔ s.ModeOk := by
  induction ps generalizing s bs with
  | nil => simp [writeFrames.go]
  | cons x r ih =>
    unfold writeFrames.go
    split
    · rfl
    · split <;> simp [ih]

@[simp] theorem State.writeFrames_modeOk (s : State) (l : Launch) (va : Nat) (bs : List Byte) :
    (s.writeFrames l va bs).ModeOk ↔ s.ModeOk := s.writeFrames_go_modeOk l va _ bs

theorem State.readFrames_go_modeOk (s : State) (l : Launch) (ps : List (Nat × Nat)) : (readFrames.go l s ps).2.ModeOk ↔ s.ModeOk := by
  induction ps generalizing s with
  | nil => rfl
  | cons x r ih =>
    unfold readFrames.go
    split
    · rfl
    · split <;> simp [ih]

@[simp] theorem State.readFrames_modeOk (s : State) (l : Launch) (va n : Nat) : (s.readFrames l va n).2.ModeOk ↔ s.ModeOk :=
  s.readFrames_go_modeOk l _

@[simp] theorem State.recordInto_modeOk (s : State) (l : Launch) (h : RecordHead) (es : List LaneEntry) :
    (State.recordInto s l h es).1.ModeOk ↔ s.ModeOk := by
  simp only [State.recordInto]
  repeat' split
  all_goals simp

@[simp] theorem State.recordFrom_modeOk (s : State) (d : Nat) (l : Launch) (h : RecordHead) (es : List LaneEntry) :
    (s.recordFrom d l h es).1.ModeOk ↔ s.ModeOk := by
  have ht := s.toControl_modeOk d
  unfold recordFrom
  split
  · simp_all
  · split <;> simp_all

@[simp] theorem State.faultRecord_modeOk (s : State) (uid : ℕ) (h : RecordHead) (es : List LaneEntry) :
    (State.faultRecord s uid h es).1.ModeOk ↔ s.ModeOk := by
  simp only [State.faultRecord]
  repeat' split
  all_goals simp

@[simp] theorem State.reportBatch_modeOk (s : State) (r : WarpRef) (e : BatchError) :
    (State.reportBatch s r e).ModeOk ↔ s.ModeOk := by simp [State.reportBatch]

@[simp] theorem State.reportBatches_modeOk (s : State) (r : WarpRef) (l : List ℕ) :
    (State.reportBatches s r l).ModeOk ↔ s.ModeOk := by
  fun_induction State.reportBatches s r l <;> simp_all

@[simp] theorem Ctx.parkAt_modeOk (c : Ctx) (s : State) (k : Park) :
    (Ctx.parkAt c s k).ModeOk ↔ s.ModeOk := by simp [Ctx.parkAt]

@[simp] theorem Ctx.traceHazards_modeOk (c : Ctx) (s : State) (active : LaneMask) (reads : List ℕ) (dests : List ℕ) :
    (Ctx.traceHazards c s active reads dests).ModeOk ↔ s.ModeOk := by simp [Ctx.traceHazards]

@[simp] theorem Ctx.disarm_modeOk (c : Ctx) (soft : LaneMask) :
    (Ctx.disarm c soft).ModeOk ↔ c.s.ModeOk := by simp [Ctx.disarm]

/-! ### Watchpoints -/

@[simp] theorem State.endHit_modeOk (s : State) (h : Hit) :
    (State.endHit s h).ModeOk ↔ s.ModeOk := by
  unfold State.endHit
  split <;> simp

theorem Ctx.watch_modeOk {c : Ctx} {k : AccKind} {as : List Watched} {locked : List Word} {t : State}
    (h : c.watch k as locked = some t) : t.ModeOk ↔ c.s.ModeOk := by
  unfold watch at h
  split at h
  · cases h
  · split at h
    · cases h
    · simp only [] at h
      split at h
      · cases h
      · split at h <;> cases h <;> simp

/-! ### Accesses and commit buffers -/

@[simp] theorem State.writePieces'_modeOk (s : State) (l : List (Access × List Byte)) :
    (State.writePieces' s l).ModeOk ↔ s.ModeOk := by
  fun_induction State.writePieces' s l <;> simp_all

@[simp] theorem State.buffer_modeOk (s : State) (r : WarpRef) (cost : ℕ) (es : List BufEntry) :
    (State.buffer s r cost es).ModeOk ↔ s.ModeOk := by simp [State.buffer]

@[simp] theorem Ctx.external_modeOk (c : Ctx) (s : State) (as : List Access) :
    (Ctx.external c s as).ModeOk ↔ s.ModeOk := by simp [Ctx.external]

@[simp] theorem Ctx.stores_modeOk (c : Ctx) (ps : List (Access × List Byte)) :
    (Ctx.stores c ps).ModeOk ↔ c.s.ModeOk := by simp [Ctx.stores]

@[simp] theorem Ctx.rmws_modeOk (c : Ctx) (f : ℕ → Word → Word) (s : State) (l : List (Access × List Byte)) :
    (Ctx.rmws c f s l).1.ModeOk ↔ s.ModeOk := by
  fun_induction Ctx.rmws c f s l <;> simp_all +zetaDelta

@[simp] theorem Ctx.atomics_modeOk (c : Ctx) (as : List Access) (f : ℕ → Word → Word) :
    (Ctx.atomics c as f).1.ModeOk ↔ c.s.ModeOk := by simp [Ctx.atomics]

@[simp] theorem Ctx.reductions_modeOk (c : Ctx) (as : List Access) (o : RedOp) (b : ℕ → Word) :
    (Ctx.reductions c as o b).ModeOk ↔ c.s.ModeOk := by simp [Ctx.reductions]

@[simp] theorem State.broken_modeOk (s s' : State) (l : Launch) (pl : Place) (off n : Nat) :
    (s.broken s' l pl off n).ModeOk ↔ s'.ModeOk := by
  cases pl <;> simp [broken]

@[simp] theorem Ctx.brokenBy_modeOk (c : Ctx) (k : AccKind) (s' : State) (as : List Access) :
    (c.brokenBy k s' as).ModeOk ↔ s'.ModeOk := by
  simp [brokenBy]

@[simp] theorem Ctx.nextFrame_modeOk (c : Ctx) :
    (Ctx.nextFrame c).ModeOk ↔ c.s.ModeOk := by simp [Ctx.nextFrame]

/-! ### Engine operations and batches -/

@[simp] theorem State.addOp_modeOk (s : State) (o : EngineOp) :
    (State.addOp s o).ModeOk ↔ s.ModeOk := by simp [State.addOp]

@[simp] theorem Ctx.failOp_modeOk (c : Ctx) (s : State) (k : FaultKind) (addr : Word) :
    (Ctx.failOp c s k addr).ModeOk ↔ s.ModeOk := by simp [Ctx.failOp]

@[simp] theorem State.unpark_modeOk (s : State) (r : WarpRef) (k : Park) :
    (State.unpark s r k).ModeOk ↔ s.ModeOk := by simp [State.unpark]

@[simp] theorem State.wakeBatches_modeOk (s : State) (r : WarpRef) :
    (State.wakeBatches s r).ModeOk ↔ s.ModeOk := by simp [State.wakeBatches]

@[simp] theorem State.postQuarter_modeOk (s : State) (l : Launch) (b : Block) (o : EngineOp) (j : MmaJob) (q : ℕ) :
    (State.postQuarter s l b o j q).ModeOk ↔ s.ModeOk := by simp [State.postQuarter]

@[simp] theorem State.postQuarters_modeOk (s : State) (l : Launch) (b : Block) (n : ℕ) (n1 : ℕ) :
    (State.postQuarters s l b n n1).ModeOk ↔ s.ModeOk := by
  fun_induction State.postQuarters s l b n n1 <;> simp_all

@[simp] theorem FrozenModes.map_iff {f : Frozen → Frozen} (o : Option Frozen)
    (hf : ∀ z, SlotModes (f z).p0 ∧ SlotModes (f z).p1 ∧ GroupModes (f z).groups ↔ SlotModes z.p0 ∧ SlotModes z.p1 ∧ GroupModes z.groups) :
    FrozenModes (o.map f) ↔ FrozenModes o := by
  cases o <;> simp [FrozenModes, hf]

@[simp] theorem State.softMma_modeOk (s : State) (o : EngineOp) (soft : LaneMask) : (s.softMma o soft).ModeOk ↔ s.ModeOk := by
  unfold softMma
  split
  · rfl
  · refine s.updWarp_modeOk o.ref fun w => ?_
    simp [WarpModes, slotModes_map, Warp.modeOk_iff]

@[simp] theorem State.opWrite_modeOk (s : State) (l : Launch) (o : EngineOp) (pl : Place) (off : ℕ) (bs : List Byte) :
    (State.opWrite s l o pl off bs).ModeOk ↔ s.ModeOk := by simp [State.opWrite]

@[simp] theorem State.endEngHit_modeOk (s : State) (d : ℕ) (h : Hit) :
    (State.endEngHit s d h).ModeOk ↔ s.ModeOk := by simp [State.endEngHit]

@[simp] theorem State.engineWrites_modeOk (s : State) (d : ℕ) (ref : WarpRef) (pc : Word) (lcore : Option (ℕ × ℕ × ℕ)) (rs : List (ℕ × ℕ)) :
    (State.engineWrites s d ref pc lcore rs).ModeOk ↔ s.ModeOk := by
  simp only [State.engineWrites]
  repeat' split
  all_goals simp

@[simp] theorem State.engWatch_modeOk (s : State) (o : EngineOp) (n : ℕ) :
    (State.engWatch s o n).ModeOk ↔ s.ModeOk := by simp [State.engWatch]

/-! ### The copy engines -/

@[simp] theorem State.copyRead_modeOk (s : State) (c : OpCtx) (w : Staging) (i : ℕ) :
    (State.copyRead s c w i).2.2.ModeOk ↔ s.ModeOk := by
  unfold State.copyRead
  repeat' split
  all_goals simp

@[simp] theorem State.copyWrite_modeOk (s : State) (c : OpCtx) (w : Staging) (i : ℕ) (bs : List Byte) :
    (State.copyWrite s c w i bs).2.ModeOk ↔ s.ModeOk := by
  unfold State.copyWrite
  repeat' split
  all_goals simp

@[simp] theorem State.copyRows_modeOk (s : State) (c : OpCtx) (w : Staging) (n i : ℕ) : (s.copyRows c w n i).1.2.ModeOk ↔ s.ModeOk := by
  induction n generalizing s i with
  | zero => rfl
  | succ n ih =>
    unfold copyRows
    simp only []
    split
    · simp
    · split
      · simp
      · rename_i out _
        have hw := ((s.copyRead c w i).2.2).copyWrite_modeOk c w i out
        split <;> simp_all

@[simp] theorem State.copySealed_modeOk (s : State) (c : OpCtx) (w : Staging) :
    (State.copySealed s c w).2.ModeOk ↔ s.ModeOk := by
  simp only [State.copySealed]
  repeat' split
  all_goals simp

theorem State.modeOk_of_transVia {s t : State} {via : Via} {i : Mmu} {va world : ℕ} {need : Need} {o : Trans}
    (h : s.transVia via i va need world = (o, t)) : t.ModeOk ↔ s.ModeOk := by
  simpa [h] using s.transVia_modeOk via i va need world

@[simp] theorem State.atomicRmw_modeOk (s : State) (c : OpCtx) (w : Staging) : (s.atomicRmw c w).2.ModeOk ↔ s.ModeOk := by
  unfold atomicRmw
  split
  · rename_i h; exact modeOk_of_transVia h
  · rename_i h
    rw [← modeOk_of_transVia h]
    split
    · rfl
    · split
      · simp
      · simp only []
        split <;> simp

/-! ### The matrix engines -/

theorem State.bindSlot_modeOk {s t : State} {d site n : Nat} {red : Bool} (h : s.bindSlot d site n red = some t) :
    t.ModeOk ↔ s.ModeOk := by
  unfold bindSlot at h
  simp only [] at h
  split at h
  · cases h; simp
  · split at h
    · cases h; rfl
    · split at h <;> cases h
      simp
  · split at h
    · cases h; simp
    · split at h <;> cases h
      simp
  · cases h

theorem State.bindSlots_modeOk {s t : State} {d site : Nat} {red : Bool} {ns : List Nat} (h : s.bindSlots d site red ns = some t) :
    t.ModeOk ↔ s.ModeOk := by
  induction ns generalizing s with
  | nil => cases h; rfl
  | cons n r ih =>
    unfold bindSlots at h
    split at h
    · rename_i hb; rw [ih h, bindSlot_modeOk hb]
    · cases h

@[simp] theorem State.loadTile_modeOk (s : State) (c : OpCtx) (w : Word) : (s.loadTile c w).2.ModeOk ↔ s.ModeOk := by
  unfold loadTile
  simp only []
  split
  · simp
  · split
    · simp
    · rename_i h; simp [bindSlots_modeOk h]

@[simp] theorem State.noteAcc_modeOk (s : State) (b : Block) (acc : Option Bool) (strips : List ℕ) :
    (State.noteAcc s b acc strips).ModeOk ↔ s.ModeOk := by simp [State.noteAcc]

@[simp] theorem State.readLatch_modeOk (s : State) (c : OpCtx) (j : MmaJob) (row : ℕ) (id : Word) :
    (State.readLatch s c j row id).2.ModeOk ↔ s.ModeOk := by
  simp only [State.readLatch]
  repeat' split
  all_goals simp

@[simp] theorem State.readLatches_modeOk (s : State) (c : OpCtx) (j : MmaJob) (xs : List (Nat × Word)) :
    (s.readLatches c j xs).2.ModeOk ↔ s.ModeOk := by
  induction xs generalizing s with
  | nil => rfl
  | cons x r ih =>
    unfold readLatches
    split <;> simp [ih]

@[simp] theorem Ctx.mmaLatch_modeOk (c : Ctx) (s : State) (o : EngineOp) (j : MmaJob) :
    (Ctx.mmaLatch c s o j).2.ModeOk ↔ s.ModeOk := by
  simp only [Ctx.mmaLatch]
  repeat' split
  all_goals simp

@[simp] theorem State.updJob_modeOk (s : State) (id : ℕ) (f : MmaJob → MmaJob) :
    (State.updJob s id f).ModeOk ↔ s.ModeOk := by simp [State.updJob]

@[simp] theorem State.dropRequests_modeOk (s : State) (d : ℕ) (site : ℕ) (l : List Request) :
    (State.dropRequests s d site l).ModeOk ↔ s.ModeOk := by
  fun_induction State.dropRequests s d site l <;> simp_all +zetaDelta

@[simp] theorem State.mapStrip_modeOk (s : State) (r : Request) (nb : ℕ) (row : ℕ) (f : ℕ → Word → Word) :
    (State.mapStrip s r nb row f).ModeOk ↔ s.ModeOk := by simp [State.mapStrip]

@[simp] theorem State.filterRow_modeOk (s : State) (r : Request) (la : Latch) (got : List CacheEntry) (l : List FVal) (l1 : List ℕ) :
    (State.filterRow s r la got l l1).ModeOk ↔ s.ModeOk := by
  fun_induction State.filterRow s r la got l l1 <;> simp_all

@[simp] theorem State.filterError_modeOk (s : State) (op : ℕ) (row : ℕ) (id : ℕ) (acc : ℕ) (k : FaultKind) (addr : ℕ) :
    (State.filterError s op row id acc k addr).ModeOk ↔ s.ModeOk := by simp [State.filterError]

@[simp] theorem State.filterTerm_modeOk (s : State) (r : Request) (l : List FVal) (row : ℕ) :
    (State.filterTerm s r l row).ModeOk ↔ s.ModeOk := by
  unfold State.filterTerm
  repeat' split
  all_goals simp

@[simp] theorem State.passRow_modeOk (s : State) (r : Request) (row : ℕ) :
    (State.passRow s r row).ModeOk ↔ s.ModeOk := by simp [State.passRow]

@[simp] theorem State.passRows_modeOk (s : State) (r : Request) (l : List ℕ) :
    (State.passRows s r l).ModeOk ↔ s.ModeOk := by
  fun_induction State.passRows s r l <;> simp_all

@[simp] theorem State.passQuarters_modeOk (s : State) (l : List Quarter) :
    (State.passQuarters s l).1.ModeOk ↔ s.ModeOk := by
  fun_induction State.passQuarters s l <;> simp_all +zetaDelta

@[simp] theorem State.cacheSlice_modeOk (s : State) (d : ℕ) (site : ℕ) (x : CacheEntry) :
    (State.cacheSlice s d site x).ModeOk ↔ s.ModeOk := by simp [State.cacheSlice]

@[simp] theorem State.drainRows_modeOk (s : State) (c : OpCtx) (st : Strip) (f : BitVec 128) (x : Word) (sat : Bool) (z : Lock) (l : List ℕ) :
    (State.drainRows s c st f x sat z l).ModeOk ↔ s.ModeOk := by
  fun_induction State.drainRows s c st f x sat z l <;> simp_all

@[simp] theorem State.drainWatch_modeOk (s : State) (c : OpCtx) (st : Strip) (f : BitVec 128) (x : Word) (soft : Bool) :
    (State.drainWatch s c st f x soft).ModeOk ↔ s.ModeOk := by
  unfold State.drainWatch
  split <;> simp

@[simp] theorem State.fenceBanks_modeOk (s : State) (d : ℕ) (site : ℕ) (l : List ℕ) :
    (State.fenceBanks s d site l).ModeOk ↔ s.ModeOk := by
  fun_induction State.fenceBanks s d site l <;> simp_all

/-! ### Splicing -/

@[simp] theorem State.fWrite_modeOk (s : State) (t : ForestAt) (pl : Place) (n : ℕ) (bs : List Byte) :
    (State.fWrite s t pl n bs).ModeOk ↔ s.ModeOk := by simp [State.fWrite]

@[simp] theorem State.setParent_modeOk (s : State) (t : ForestAt) (i : ℕ) (p : ℕ) :
    (State.setParent s t i p).ModeOk ↔ s.ModeOk := by simp [State.setParent]

@[simp] theorem State.setSize_modeOk (s : State) (t : ForestAt) (i : ℕ) (n : ℕ) :
    (State.setSize s t i n).ModeOk ↔ s.ModeOk := by simp [State.setSize]

@[simp] theorem State.setHead_modeOk (s : State) (t : ForestAt) (head : ℕ) (isOpen : Bool) :
    (State.setHead s t head isOpen).ModeOk ↔ s.ModeOk := by simp [State.setHead]

theorem State.logElem_modeOk {s t : State} {f : ForestAt} {y : Nat} (h : s.logElem f y = some t) : t.ModeOk ↔ s.ModeOk := by
  unfold logElem at h
  split at h
  · cases h; rfl
  · simp only [] at h
    split at h <;> cases h
    simp

@[simp] theorem State.logElem_getD_modeOk (s : State) (f : ForestAt) (y : Nat) : ((s.logElem f y).getD s).ModeOk ↔ s.ModeOk := by
  cases h : s.logElem f y with
  | none => rfl
  | some t => exact logElem_modeOk h

@[simp] theorem State.markBroken_modeOk (s : State) (pl : Place) (offs : List ℕ) :
    (State.markBroken s pl offs).ModeOk ↔ s.ModeOk := by
  unfold State.markBroken
  split <;> simp

@[simp] theorem State.mended_modeOk (s : State) (pl : Place) (off : ℕ) (n : ℕ) :
    (State.mended s pl off n).ModeOk ↔ s.ModeOk := by
  unfold State.mended
  split <;> simp

@[simp] theorem State.compress_modeOk (s : State) (t : ForestAt) (r : Nat) (ys : List Nat) : (s.compress t r ys).ModeOk ↔ s.ModeOk := by
  induction ys generalizing s with
  | nil => rfl
  | cons y ys ih =>
    unfold compress
    split
    · exact ih s
    · split
      · rfl
      · rename_i h; simp [ih, logElem_modeOk h]

@[simp] theorem State.findLane_modeOk (s : State) (t : ForestAt) (x : Word) :
    (State.findLane s t x).2.ModeOk ↔ s.ModeOk := by
  unfold State.findLane
  split <;> simp

@[simp] theorem State.csizeLane_modeOk (s : State) (t : ForestAt) (x : Word) :
    (State.csizeLane s t x).2.ModeOk ↔ s.ModeOk := by
  unfold State.csizeLane
  split <;> simp

@[simp] theorem State.merge_modeOk (s : State) (t : ForestAt) (n : ℕ) (b : ℕ) :
    (State.merge s t n b).2.ModeOk ↔ s.ModeOk := by
  unfold State.merge
  split <;> simp

@[simp] theorem State.uniteLane_modeOk (s : State) (t : ForestAt) (x : Word) (y : Word) :
    (State.uniteLane s t x y).2.ModeOk ↔ s.ModeOk := by
  simp only [State.uniteLane]
  repeat' split
  all_goals simp

@[simp] theorem State.spoiltLane_modeOk (s0 s : State) (t : ForestAt) (xs : List Nat) (lane : Nat) (v : Word) :
    (s0.spoiltLane s t xs lane v).2.ModeOk ↔ s.ModeOk := by
  unfold spoiltLane
  simp only []
  split <;> simp

@[simp] theorem State.spliceLanes_modeOk (s : State) (t : ForestAt) (d : Nat) (idx : Word × Word → List Nat)
    (f : State → ForestAt → Word × Word → LaneSplice) (args : List (Nat × Word × Word)) (hf : ∀ s t x, (f s t x).2.ModeOk ↔ s.ModeOk) :
    (s.spliceLanes t d idx f args).2.ModeOk ↔ s.ModeOk := by
  induction args generalizing s with
  | nil => rfl
  | cons a r ih =>
    have hx := hf s t a.2
    unfold spliceLanes
    split <;> simp_all

@[simp] theorem State.undoTo_modeOk (s : State) (t : ForestAt) (n : ℕ) (n1 : ℕ) :
    (State.undoTo s t n n1).ModeOk ↔ s.ModeOk := by
  fun_induction State.undoTo s t n n1 <;> simp_all +zetaDelta

@[simp] theorem State.laneWork_modeOk (s : State) (t : Option ForestAt) (d : Nat) (args : List (Nat × Word × Word))
    (idx : Word × Word → List Nat) (f : State → ForestAt → Word × Word → LaneSplice) (hf : ∀ s t x, (f s t x).2.ModeOk ↔ s.ModeOk) :
    (s.laneWork t d args idx f).2.ModeOk ↔ s.ModeOk := by
  unfold laneWork
  split
  · rfl
  · split <;> simp [hf]

@[simp] theorem State.spliceWork_modeOk (s : State) (t : Option ForestAt) (k : SpliceWork) :
    (State.spliceWork s t k).2.ModeOk ↔ s.ModeOk := by
  unfold State.spliceWork
  repeat' split
  all_goals simp

@[simp] theorem Ctx.lateSplice_modeOk (c : Ctx) (s : State) (q : SpliceReq) (r : SpliceRes) :
    (Ctx.lateSplice c s q r).ModeOk ↔ s.ModeOk := by simp [Ctx.lateSplice]

@[simp] theorem Ctx.undoFault_modeOk (c : Ctx) (s : State) (q : SpliceReq) (r : SpliceRes) :
    (Ctx.undoFault c s q r).ModeOk ↔ s.ModeOk := by simp [Ctx.undoFault]

@[simp] theorem State.mendForest_modeOk (s : State) (t : ForestAt) :
    (State.mendForest s t).ModeOk ↔ s.ModeOk := by simp [State.mendForest]

@[simp] theorem State.labelRows_modeOk (s : State) (t : ForestAt) (pl : Place) (off : ℕ) (n : ℕ) (n1 : ℕ) :
    (State.labelRows s t pl off n n1).2.2.ModeOk ↔ s.ModeOk := by
  fun_induction State.labelRows s t pl off n n1 <;> simp_all +zetaDelta

@[simp] theorem State.writeTotals_modeOk (s0 s : State) (t : ForestAt) (pl : Place) (rop : Nat) (all : List (Nat × Word))
    (i off : Nat) (rs : List Nat) : (s0.writeTotals s t pl rop all i off rs).ModeOk ↔ s.ModeOk := by
  induction rs generalizing s i off with
  | nil => simp [writeTotals]
  | cons r rs ih => simp [writeTotals, ih]

@[simp] theorem State.relabbed_modeOk (s s' : State) (t : ForestAt) (o : EngineOp) (n : Nat) (zs : List Lock) :
    (s.relabbed s' t o n zs).ModeOk ↔ s'.ModeOk := by
  simp [relabbed]

@[simp] theorem State.runRelab_modeOk (s : State) (t : ForestAt) (o : EngineOp) (w : Staging) :
    (State.runRelab s t o w).2.ModeOk ↔ s.ModeOk := by
  simp only [State.runRelab]
  repeat' split
  all_goals simp

/-! ### The collective engine -/

@[simp] theorem State.updPort_modeOk (s : State) (p : ℕ) (f : Port → Port) :
    (State.updPort s p f).ModeOk ↔ s.ModeOk := by simp [State.updPort]

@[simp] theorem State.updChain_modeOk (s : State) (id : ℕ) (f : Chain → Chain) :
    (State.updChain s id f).ModeOk ↔ s.ModeOk := by simp [State.updChain]

@[simp] theorem State.dropChains_modeOk (s : State) (p : Chain → Bool) :
    (State.dropChains s p).ModeOk ↔ s.ModeOk := by simp [State.dropChains]

@[simp] theorem State.dropChain_modeOk (s : State) (id : ℕ) :
    (State.dropChain s id).ModeOk ↔ s.ModeOk := by simp [State.dropChain]

@[simp] theorem State.purgeHeld_modeOk (s : State) :
    (State.purgeHeld s).ModeOk ↔ s.ModeOk := by simp [State.purgeHeld]

@[simp] theorem State.noteStepError_modeOk (s : State) (r : WarpRef) (w : Staging) (k : FaultKind) (addr : ℕ) :
    (State.noteStepError s r w k addr).ModeOk ↔ s.ModeOk := by simp [State.noteStepError]

@[simp] theorem State.sendTo_modeOk (s : State) (g : Group) (rank : ℕ) (seg : Segment) :
    (State.sendTo s g rank seg).ModeOk ↔ s.ModeOk := by
  unfold State.sendTo
  split <;> simp

@[simp] theorem State.sendHeader_modeOk (s : State) (g : Group) (hd : Segment) :
    (State.sendHeader s g hd).ModeOk ↔ s.ModeOk := by simp [State.sendHeader]

@[simp] theorem State.sendSegment_modeOk (s : State) (x : StepCtx) (rank : ℕ) (data : List Word) :
    (State.sendSegment s x rank data).ModeOk ↔ s.ModeOk := by simp [State.sendSegment]

@[simp] theorem State.useSegment_modeOk (s : State) (h : HeldSegment) :
    (State.useSegment s h).ModeOk ↔ s.ModeOk := by simp [State.useSegment]

@[simp] theorem State.sendAll_modeOk (s : State) (x : StepCtx) (data : List Word) (l : List ℕ) :
    (State.sendAll s x data l).ModeOk ↔ s.ModeOk := by
  fun_induction State.sendAll s x data l <;> simp_all

@[simp] theorem State.sendFirst_modeOk (s : State) (x : StepCtx) (data : List Word) :
    (State.sendFirst s x data).ModeOk ↔ s.ModeOk := by
  unfold State.sendFirst
  split <;> simp

@[simp] theorem State.sweepChains_modeOk (s : State) :
    (State.sweepChains s).ModeOk ↔ s.ModeOk := by simp [State.sweepChains]

@[simp] theorem State.forwardFlit_modeOk (s : State) (port : ℕ) (f : Flit) :
    (State.forwardFlit s port f).ModeOk ↔ s.ModeOk := by
  unfold State.forwardFlit
  split <;> simp

/-! ### Batch commits -/

@[simp] theorem State.advanceDone_modeOk (s : State) (r : WarpRef) (n : ℕ) :
    (State.advanceDone s r n).ModeOk ↔ s.ModeOk := by
  fun_induction State.advanceDone s r n <;> simp_all

@[simp] theorem State.tripodWait_modeOk (s : State) (r : WarpRef) (closes : ℕ) :
    (State.tripodWait s r closes).ModeOk ↔ s.ModeOk := by simp [State.tripodWait]

@[simp] theorem Ctx.awaitBatch_modeOk (c : Ctx) (n : ℕ) (sh : Shape) :
    (Ctx.awaitBatch c n sh).ModeOk ↔ c.s.ModeOk := by simp [Ctx.awaitBatch]

@[simp] theorem State.applyPlain_modeOk (s : State) (l : Launch) (block : Nat) (es : List BufEntry) :
    (s.applyPlain l block es).ModeOk ↔ s.ModeOk := by
  simp [applyPlain]

theorem State.modeOk_of_runRelab {s t : State} {f : ForestAt} {o : EngineOp} {w : Staging} {e : Option (FaultKind × ℕ)}
    (h : s.runRelab f o w = (e, t)) : t.ModeOk ↔ s.ModeOk := by
  simpa [h] using s.runRelab_modeOk f o w

@[simp] theorem State.applyOp_modeOk (s : State) (id : ℕ) : (s.applyOp id).ModeOk ↔ s.ModeOk := by
  unfold applyOp
  split
  · rfl
  · simp only []
    split
    · rename_i hw
      split
      · simp [hw]
      · split
        · rename_i h; simp [modeOk_of_runRelab h, hw]
        · rename_i h; simp [modeOk_of_runRelab h, hw]
    · simp only [updOp_modeOk, engineWrites_modeOk]
      split <;> simp

@[simp] theorem State.applyOpsOf_modeOk (s : State) (l : List ℕ) :
    (State.applyOpsOf s l).ModeOk ↔ s.ModeOk := by
  fun_induction State.applyOpsOf s l <;> simp_all

@[simp] theorem State.commitOps_modeOk (s : State) (l : List Warp) :
    (State.commitOps s l).ModeOk ↔ s.ModeOk := by
  fun_induction State.commitOps s l <;> simp_all

@[simp] theorem State.commitBuffers_modeOk (s : State) (l : Launch) (l1 : List Warp) :
    (State.commitBuffers s l l1).ModeOk ↔ s.ModeOk := by
  fun_induction State.commitBuffers s l l1 <;> simp_all

/-! ### Privileged instructions and loupe transfers -/

@[simp] theorem State.breakPause_modeOk (s : State) (r : WarpRef) (b : LaneMask × Word × Bool) :
    (State.breakPause s r b).ModeOk ↔ s.ModeOk := by simp [State.breakPause]

@[simp] theorem State.popProfile_modeOk (s : State) (r : WarpRef) :
    (State.popProfile s r).ModeOk ↔ s.ModeOk := by
  unfold State.popProfile
  repeat' split
  all_goals simp

@[simp] theorem State.rebase_modeOk (s : State) (launch block : Nat) : (s.rebase launch block).ModeOk ↔ s.ModeOk := by
  unfold rebase
  rw [State.modeOk_mk, StateModes, warpsModes_map _ fun w => ?_]
  · exact stateModes_fold s
  · split <;> simp

@[simp] theorem State.transferRecord_modeOk (s : State) (w : Warp) (ty : ℕ) :
    (State.transferRecord s w ty).ModeOk ↔ s.ModeOk := by simp [State.transferRecord]

@[simp] theorem State.sampleLaunch_modeOk (s : State) (uid : ℕ) (code : ℕ) (l : List ℕ) :
    (State.sampleLaunch s uid code l).ModeOk ↔ s.ModeOk := by
  fun_induction State.sampleLaunch s uid code l <;> simp_all +zetaDelta

@[simp] theorem State.endPredicate_modeOk (s : State) (die : ℕ) (h : Hit) (result : Bool) (spoilt : Bool) (core : DarkCore) (m : Memory) :
    (State.endPredicate s die h result spoilt core m).ModeOk ↔ s.ModeOk := by simp [State.endPredicate]

/-! ### Queues -/

@[simp] theorem State.advanceHead_modeOk (s : State) (i : ℕ) (q : ℕ) :
    (State.advanceHead s i q).ModeOk ↔ s.ModeOk := by simp [State.advanceHead]

@[simp] theorem State.putRecord_modeOk (s : State) (i : ℕ) (q : ℕ) (v : ℕ) :
    (State.putRecord s i q v).ModeOk ↔ s.ModeOk := by simp [State.putRecord]

@[simp] theorem State.completeEntry_modeOk (s : State) (i : ℕ) (q : ℕ) (id : ℕ) (st : Status) (kind : ℕ) (nrec : ℕ) (sig : ℕ) (prot : Bool) :
    (State.completeEntry s i q id st kind nrec sig prot).ModeOk ↔ s.ModeOk := by simp [State.completeEntry]

@[simp] theorem State.releaseRecords_modeOk (s : State) (l : List HeldRecord) :
    (State.releaseRecords s l).ModeOk ↔ s.ModeOk := by
  fun_induction State.releaseRecords s l <;> simp_all

/-! ### Launching -/

@[simp] theorem State.dispatcherRecord_modeOk (s : State) (uid : ℕ) (k : FaultKind) (block : ℕ) :
    (State.dispatcherRecord s uid k block).ModeOk ↔ s.ModeOk := by simp [State.dispatcherRecord]

@[simp] theorem State.endTurns_modeOk (s : State) :
    (State.endTurns s).ModeOk ↔ s.ModeOk := by simp [State.endTurns]

theorem State.bufferFrames_go_modeOk (s : State) (i : Nat) (r : LaunchRecord) (ps : List Nat) :
    (bufferFrames.go i r s ps).2.ModeOk ↔ s.ModeOk := by
  induction ps generalizing s with
  | nil => rfl
  | cons p ps ih =>
    have ht := s.transVia_modeOk none (s.mmu i) (65536 * p) .w r.world
    unfold bufferFrames.go
    split
    · simp_all
    · rename_i u _
      have hu := ih u
      split <;> simp_all

@[simp] theorem State.bufferFrames_modeOk (s : State) (i : Nat) (r : LaunchRecord) : (s.bufferFrames i r).2.ModeOk ↔ s.ModeOk := by
  unfold bufferFrames
  simp only []
  split
  · rfl
  · exact s.bufferFrames_go_modeOk i r _

@[simp] theorem State.closeCluster_modeOk (s : State) (l : Launch) (num : ℕ) :
    (State.closeCluster s l num).ModeOk ↔ s.ModeOk := by
  unfold State.closeCluster
  split <;> simp

@[simp] theorem State.closeSpan_modeOk (s : State) (l : Launch) (num : ℕ) :
    (State.closeSpan s l num).ModeOk ↔ s.ModeOk := by simp [State.closeSpan]

@[simp] theorem State.openCluster_modeOk (s : State) (l : Launch) (j : ℕ) (p : Placement) :
    (State.openCluster s l j p).ModeOk ↔ s.ModeOk := by simp [State.openCluster]

@[simp] theorem State.reportBlock_modeOk (s : State) (l : List Warp) :
    (State.reportBlock s l).ModeOk ↔ s.ModeOk := by
  fun_induction State.reportBlock s l <;> simp_all

/-! ### Host and DEBUG commands -/

@[simp] theorem State.setCmd_modeOk (s : State) (c : Cmd) (st : CmdState) :
    (State.setCmd s c st).ModeOk ↔ s.ModeOk := by simp [State.setCmd]

@[simp] theorem State.endCmd_modeOk (s : State) (c : Cmd) (k : Option FaultKind) :
    (State.endCmd s c k).ModeOk ↔ s.ModeOk := by simp [State.endCmd]

@[simp] theorem State.okCmd_modeOk (s : State) (c : Cmd) :
    (State.okCmd s c).ModeOk ↔ s.ModeOk := by simp [State.okCmd]

@[simp] theorem State.badCmd_modeOk (s : State) (c : Cmd) :
    (State.badCmd s c).ModeOk ↔ s.ModeOk := by simp [State.badCmd]

@[simp] theorem State.endRunning_modeOk (s : State) (i : ℕ) (q : ℕ) (r : Running) (st : Status) (k : Option FaultKind) :
    (State.endRunning s i q r st k).ModeOk ↔ s.ModeOk := by simp [State.endRunning]

@[simp] theorem State.completeEarly_modeOk (s : State) (i : ℕ) (q : ℕ) (n : ℕ) :
    (State.completeEarly s i q n).ModeOk ↔ s.ModeOk := by simp [State.completeEarly]

@[simp] theorem State.clearCounters_modeOk (s : State) (l : List ℕ) :
    (State.clearCounters s l).ModeOk ↔ s.ModeOk := by
  fun_induction State.clearCounters s l <;> simp_all +zetaDelta

/-- What a DEBUG sub-operation leaves is legal. -/
theorem DebugResult.settle_modeOk {r : DebugResult} {s : State} (h : s.ModeOk) (hr : ∀ t, r = .ok t → t.ModeOk) (c : Cmd) :
    (r.settle s c).ModeOk := by
  unfold settle
  split
  · simpa using h
  · exact hr _ rfl

@[simp] theorem State.dropHits_modeOk (s : State) (r : WarpRef) :
    (State.dropHits s r).ModeOk ↔ s.ModeOk := by simp [State.dropHits]

@[simp] theorem State.endPause_modeOk (s : State) (w : Warp) :
    (State.endPause s w).ModeOk ↔ s.ModeOk := by
  unfold State.endPause
  split <;> simp

@[simp] theorem State.finishCmd_modeOk (s : State) (i : ℕ) (q : ℕ) (n : ℕ) (st : Status) (k : Option FaultKind) :
    (State.finishCmd s i q n st k).ModeOk ↔ s.ModeOk := by simp [State.finishCmd]

/-! ### Pre-emption -/

@[simp] theorem State.dropOpsOf_modeOk (s : State) (bs : List Block) :
    (State.dropOpsOf s bs).ModeOk ↔ s.ModeOk := by simp [State.dropOpsOf]

@[simp] theorem State.forgetHits_modeOk (s : State) (bs : List Block) : (s.forgetHits bs).ModeOk ↔ s.ModeOk := by
  unfold forgetHits
  simp [StateModes, State.modeOk_iff]

@[simp] theorem State.emptyEngine_modeOk (s : State) (l : Launch) (b : Block) :
    (State.emptyEngine s l b).ModeOk ↔ s.ModeOk := by simp [State.emptyEngine]

@[simp] theorem State.beginFlush_modeOk (s : State) (l : Launch) (b : Block) :
    (State.beginFlush s l b).ModeOk ↔ s.ModeOk := by simp [State.beginFlush]

@[simp] theorem State.beginDrain_modeOk (s : State) (l : Launch) (rate : ℕ) (b : Block) :
    (State.beginDrain s l rate b).ModeOk ↔ s.ModeOk := by simp [State.beginDrain]

@[simp] theorem State.bindSaved_modeOk (s : State) (d site : Nat) (bs : Table (Nat × Option Nat)) :
    (s.bindSaved d site bs).1.ModeOk ↔ s.ModeOk := by
  induction bs generalizing s with
  | nil => rfl
  | cons b r ih =>
    unfold bindSaved
    split
    · rename_i h; rw [ih, bindSlot_modeOk h]
    · exact ih s

@[simp] theorem State.sealFailed_modeOk (s : State) (x : Slot) :
    (State.sealFailed s x).ModeOk ↔ s.ModeOk := by simp [State.sealFailed]

@[simp] theorem State.loadEngine_modeOk (s : State) (l : Launch) (seals : List SealedTile) (d : ℕ) (site : ℕ) (e : MatrixEngine) :
    (State.loadEngine s l seals d site e).1.ModeOk ↔ s.ModeOk := by simp [State.loadEngine]

@[simp] theorem State.openSpan_modeOk (s : State) (l : Launch) (z : Snapshot) (c : LaunchCluster) (die : ℕ) :
    (State.openSpan s l z c die).ModeOk ↔ s.ModeOk := by
  simp only [State.openSpan]
  repeat' split
  all_goals simp

@[simp] theorem State.dropOrphanSplices_modeOk (s : State) :
    (State.dropOrphanSplices s).ModeOk ↔ s.ModeOk := by simp [State.dropOrphanSplices]

/-! ### Dies and recovery -/

@[simp] theorem State.zeroDie_modeOk (s : State) (d : Nat) : (s.zeroDie d).ModeOk ↔ s.ModeOk := by
  unfold zeroDie
  simp only []
  rw [State.modeOk_mk, stateModes_fold]
  simp

@[simp] theorem State.loseEntries_modeOk (s : State) (i : ℕ) (q : ℕ) (w : ℕ) (l : List ℕ) :
    (State.loseEntries s i q w l).ModeOk ↔ s.ModeOk := by
  fun_induction State.loseEntries s i q w l <;> simp_all +zetaDelta

@[simp] theorem State.loseQueues_modeOk (s : State) (i : ℕ) (w : ℕ) (l : List ℕ) :
    (State.loseQueues s i w l).ModeOk ↔ s.ModeOk := by
  fun_induction State.loseQueues s i w l <;> simp_all

@[simp] theorem State.clearCores_modeOk (s : State) (l : List ℕ) :
    (State.clearCores s l).ModeOk ↔ s.ModeOk := by
  fun_induction State.clearCores s l <;> simp_all

@[simp] theorem State.endWindow_modeOk (s : State) :
    (State.endWindow s).ModeOk ↔ s.ModeOk := by simp [State.endWindow]

@[simp] theorem State.startReels_modeOk (s : State) (d : ℕ) :
    (State.startReels s d).ModeOk ↔ s.ModeOk := by simp [State.startReels]

@[simp] theorem State.breakBarrier_modeOk (s : State) (ws : List Warp) : (s.breakBarrier ws).ModeOk ↔ s.ModeOk := by
  induction ws generalizing s with
  | nil => rfl
  | cons w ws ih =>
    unfold breakBarrier
    simp only [ih]
    split <;> simp

@[simp] theorem State.reloadEngine_modeOk (s : State) (l : Launch) (z : Snapshot) (c : LaunchCluster) :
    (State.reloadEngine s l z c).ModeOk ↔ s.ModeOk := by
  unfold State.reloadEngine
  split <;> simp

@[simp] theorem State.resetDie_modeOk (s : State) (d : ℕ) :
    (State.resetDie s d).ModeOk ↔ s.ModeOk := by simp [State.resetDie]

@[simp] theorem State.replayReel_modeOk (s : State) (d : ℕ) (l : List ReelEntry) :
    (State.replayReel s d l).ModeOk ↔ s.ModeOk := by
  fun_induction State.replayReel s d l <;> simp_all +zetaDelta

@[simp] theorem State.loupeMark_modeOk (s : State) (d : ℕ) :
    (State.loupeMark s d).ModeOk ↔ s.ModeOk := by simp [State.loupeMark]

/-! ### Clocks and issue -/

@[simp] theorem State.claim_modeOk (s : State) (who : Issuer) (late : List Issuer) : (s.claim who late).ModeOk ↔ s.ModeOk := by
  unfold claim
  simp only []
  rw [State.modeOk_mk, StateModes, warpsModes_map _ fun w => ?_]
  · exact stateModes_fold s
  · split_ifs <;> simp

theorem State.countSchedulers_modes (s : State) (n : Nat) (ks : List Nat) :
    (s.countSchedulers n ks).x.warps = s.x.warps ∧ (s.countSchedulers n ks).ctl = s.ctl ∧ (s.countSchedulers n ks).x.dies = s.x.dies := by
  induction ks generalizing s with
  | nil => exact ⟨rfl, rfl, rfl⟩
  | cons k ks ih =>
    have h : (s.countScheduler n k).x.warps = s.x.warps ∧ (s.countScheduler n k).ctl = s.ctl ∧ (s.countScheduler n k).x.dies = s.x.dies := by
      unfold countScheduler
      split <;> exact ⟨rfl, rfl, rfl⟩
    simpa [countSchedulers, h] using ih (s.countScheduler n k)

@[simp] theorem State.passClocks_modeOk (s : State) (n : Nat) : (s.passClocks n).ModeOk ↔ s.ModeOk := by
  obtain ⟨-, hc, hd⟩ := s.countSchedulers_modes n s.schedulers
  unfold passClocks
  simp only []
  rw [State.modeOk_mk, StateModes, warpsModes_map _ fun w => s.passWarp_modeOk n w, hc, hd]
  exact stateModes_fold s

@[simp] theorem State.windowed_modeOk (s : State) :
    (State.windowed s).ModeOk ↔ s.ModeOk := by simp [State.windowed]

@[simp] theorem State.passWindows_modeOk (n : ℕ) (s : State) (n1 : ℕ) :
    (State.passWindows n s n1).ModeOk ↔ s.ModeOk := by
  fun_induction State.passWindows n s n1 <;> simp_all +zetaDelta

@[simp] theorem State.pass_modeOk (s : State) (n : ℕ) :
    (State.pass s n).ModeOk ↔ s.ModeOk := by simp [State.pass]

@[simp] theorem State.issuing_modeOk (s : State) (who : Issuer) (late : List Issuer) :
    (State.issuing s who late).ModeOk ↔ s.ModeOk := by simp [State.issuing]

end Sys2Proof.Machine
end

section
/-! SUPPORT. Operations that move, drop or make MODE values keep them legal, from landing to the delivery of a fault. -/

namespace Sys2Proof.Machine

/-! ### Landing and retiring -/

theorem State.ModeOk.setWarp {s : State} (h : s.ModeOk) {w : Warp} (hw : w.ModeOk) : (s.setWarp w).ModeOk := State.setWarp_modeOk h hw

theorem State.ModeOk.land {s : State} (h : s.ModeOk) {r : WarpRef} {slot : Bool} : (s.land r slot).ModeOk := by
  unfold State.land
  split
  · exact h
  · rename_i w hw
    split
    · exact h
    · simpa using h.setWarp (by simpa using h.warp hw)

theorem State.ModeOk.landBoth {s : State} (h : s.ModeOk) {r : WarpRef} : (s.landBoth r).ModeOk := h.land.land

theorem State.ModeOk.landOne {s : State} (h : s.ModeOk) {r : WarpRef} {slot : Bool} {k : ℕ} : (s.landOne r slot k).ModeOk := by
  unfold State.landOne
  split
  · exact h
  · rename_i w hw
    split
    · exact h
    · simpa using h.setWarp (by simpa using h.warp hw)

theorem State.ModeOk.retireWarp {s : State} (h : s.ModeOk) {r : WarpRef} {active pc : Word} {dest : Option ℕ} {flags : ℕ} {path : Bool} :
    (s.retireWarp r active pc dest flags path).ModeOk := by
  unfold State.retireWarp
  split
  · rename_i w l hw hl
    simpa using h.setWarp (by simpa using h.warp hw)
  · exact h

theorem State.ModeOk.retireTo {s : State} (h : s.ModeOk) {r : WarpRef} {slot : Bool} {active pc : Word} {dest : Option ℕ} {flags : ℕ}
    {npc : Word} : (s.retireTo r slot active pc dest flags npc).ModeOk := by
  unfold State.retireTo
  split
  · exact h
  · exact State.ModeOk.retireWarp (by simpa using h)

theorem State.ModeOk.waitDoneWith {s : State} (h : s.ModeOk) {c : Ctx} {dest : Option ℕ} {len : ℕ} : (c.waitDoneWith s dest len).ModeOk := by
  simpa [Ctx.waitDoneWith] using h.retireTo

theorem State.ModeOk.waitDone {s : State} (h : s.ModeOk) {c : Ctx} {len : ℕ} : (c.waitDone s len).ModeOk := h.waitDoneWith

/-! ### Barriers -/

theorem State.ModeOk.releaseSlot {s : State} (h : s.ModeOk) {r : WarpRef} {slot : Bool} {u : BarUnit} {g : ℕ} :
    (s.releaseSlot r slot u g).ModeOk := by
  unfold State.releaseSlot
  split
  · exact h
  · split
    · exact h.waitDone
    · simpa using h

theorem State.ModeOk.releaseWaiters {s : State} (h : s.ModeOk) {u : BarUnit} {g : ℕ} {rs : List WarpRef} :
    (s.releaseWaiters u g rs).ModeOk := by
  induction rs generalizing s with
  | nil => exact h
  | cons r rs ih => exact ih h.releaseSlot.releaseSlot

theorem State.ModeOk.tryComplete {s : State} (h : s.ModeOk) {l : Launch} {r : WarpRef} {u : BarUnit} : (s.tryComplete l r u).ModeOk := by
  unfold State.tryComplete
  extract_lets b ms
  split
  · exact h
  · rename_i g s1 s2 s3 s4 s5 s6 _
    have h1 : s1.ModeOk := by simpa [s1] using h
    have h3 : s3.ModeOk := by
      simp only [s3]
      split <;> simp [s2, h1]
    have h6 : s6.ModeOk := by simpa [s6, s5, s4] using h3
    split
    · simpa using h6
    · exact State.ModeOk.releaseWaiters (by simpa using h6)

theorem State.ModeOk.tryReplay {s : State} (h : s.ModeOk) {uid die : ℕ} : (s.tryReplay uid die).ModeOk := by
  unfold State.tryReplay
  split
  · exact h
  · split
    · exact h
    · extract_lets ms
      split
      · exact h
      · rename_i g s1 nums s2 s3 s4 _
        have h4 : s4.ModeOk := by simpa [s4, s3, s2, s1] using h
        split
        · exact h4
        · exact h4.releaseWaiters

theorem State.ModeOk.leaveBarrier {s : State} (h : s.ModeOk) {r : WarpRef} {u : BarUnit} : (s.leaveBarrier r u).ModeOk := by
  unfold State.leaveBarrier
  split
  · exact h
  · extract_lets b s1
    have h1 : s1.ModeOk := State.ModeOk.tryComplete (by simpa using h)
    split
    · exact h1.tryReplay
    · exact h1

/-- A fold of steps that keep MODE values legal. -/
theorem State.ModeOk.foldl_mem {α : Type} {f : State → α → State} {s : State} (h : s.ModeOk) {l : List α}
    (hf : ∀ a ∈ l, ∀ s : State, s.ModeOk → (f s a).ModeOk) : (l.foldl f s).ModeOk := by
  induction l generalizing s with
  | nil => exact h
  | cons a r ih =>
    rw [List.forall_mem_cons] at hf
    exact ih (hf.1 s h) hf.2

theorem State.ModeOk.foldl {α : Type} {f : State → α → State} {s : State} (h : s.ModeOk) {l : List α}
    (hf : ∀ (s : State) (a : α), s.ModeOk → (f s a).ModeOk) : (l.foldl f s).ModeOk := h.foldl_mem fun a _ s => hf s a

theorem State.ModeOk.leaveBarriers {s : State} (h : s.ModeOk) {r : WarpRef} : (s.leaveBarriers r).ModeOk := by
  unfold State.leaveBarriers
  exact (h.foldl fun _ _ h => h.leaveBarrier).leaveBarrier.leaveBarrier

/-! ### The end of a warp and of a launch -/

theorem State.ModeOk.endWarp {s : State} (h : s.ModeOk) {r : WarpRef} : (s.endWarp r).ModeOk := by
  unfold State.endWarp
  split
  · exact h
  · split
    · exact h
    · extract_lets tripod s1 s2 s3 s4
      have h2 : s2.ModeOk := by simpa [s2, s1] using h
      have h3 : s3.ModeOk := State.updWarp_modeOk_of h2 fun w _ => by simp [WarpModes]
      have h4 : s4.ModeOk := by
        simp only [s4]
        split
        · exact h3
        · exact h3.leaveBarriers
      simpa using h4

theorem State.ModeOk.landAll {s : State} (h : s.ModeOk) {rs : List WarpRef} : (s.landAll rs).ModeOk := by
  induction rs generalizing s with
  | nil => exact h
  | cons r rs ih => exact ih h.landBoth

theorem State.ModeOk.abort {s : State} (h : s.ModeOk) {uid : ℕ} {st : Status} : (s.abort uid st).ModeOk := by
  unfold State.abort
  extract_lets s1 x s2
  have h1 : s1.ModeOk := h.landAll
  have h2 : s2.ModeOk := by simpa [s2, x] using h1
  simpa using h2

/-! ### The end of a wait -/

theorem Warp.ModeOk.withFrozen {w : Warp} (h : w.ModeOk) {o : Option Frozen} (ho : FrozenModes o) : ({ w with frozen := o } : Warp).ModeOk :=
  ⟨h.p0, h.p1, h.groups, ho⟩

theorem Warp.ModeOk.frozenModes {w : Warp} (h : w.ModeOk) : FrozenModes w.frozen := h.frozen

theorem State.ModeOk.endFrozen {s : State} (h : s.ModeOk) {r : WarpRef} {slot : Bool} {k : Park} {dest : Option ℕ} :
    (s.endFrozen r slot k dest).ModeOk := by
  unfold State.endFrozen
  split
  · rename_i w l b hw _ _
    split
    · exact h
    · rename_i f hf
      split
      · exact h
      · rename_i p hp
        split
        · exact h
        · extract_lets q f'
          obtain ⟨h0, h1, hg⟩ := (h.warp hw).frozenModes f hf
          have hq : q.ModeOk := by
            simp only [q, Path.pass_modeOk]
            cases slot
            · exact h0 p hp
            · exact h1 p hp
          refine State.ModeOk.retireWarp (h.setWarp ((h.warp hw).withFrozen fun z hz => ?_))
          cases hz
          cases slot
          · exact ⟨(slotModes_some q).mpr hq, h1, hg⟩
          · exact ⟨h0, (slotModes_some q).mpr hq, hg⟩
  · exact h

theorem State.ModeOk.endWait {s : State} (h : s.ModeOk) {r : WarpRef} {slot : Bool} {k : Park} : (s.endWait r slot k).ModeOk := by
  unfold State.endWait
  refine State.ModeOk.endFrozen ?_
  split
  · split
    · exact h.waitDone
    · exact h
  · exact h

theorem State.ModeOk.endWaits {s : State} (h : s.ModeOk) {r : WarpRef} {k : Park} : (s.endWaits r k).ModeOk := h.endWait.endWait

theorem State.ModeOk.endSlotWaits {s : State} (h : s.ModeOk) {r : WarpRef} : (s.endSlotWaits r).ModeOk := h.endWaits

theorem State.ModeOk.sendToLoupe {s : State} (h : s.ModeOk) {r : WarpRef} : (s.sendToLoupe r).ModeOk := by
  unfold State.sendToLoupe
  split
  · exact h
  · exact h
  · split
    · simpa using h.endSlotWaits.landBoth
    · simpa using h

/-! ### Faults (19 R284 to R290) -/

theorem State.ModeOk.enterContinuation {s : State} (h : s.ModeOk) {l : Launch} {w : Warp} {slot : Bool} {cls : FaultClass} {kind : FaultKind}
    {fmask : LaneMask} {fpc npc : Word} {ridx : ℕ} : (s.enterContinuation l w slot cls kind fmask fpc npc ridx).ModeOk := by
  unfold State.enterContinuation
  refine State.updWarp_modeOk_of (by simpa using h) fun w hw => ?_
  obtain ⟨h0, h1, hg, -⟩ := hw
  refine ⟨fun p hp => ?_, slotModes_none, groupModes_nil, fun f hf => ?_⟩
  · cases hp; exact Path.start_modeOk _ _
  · cases hf; exact ⟨h0, h1, hg⟩

theorem State.ModeOk.deliverCore {s : State} (h : s.ModeOk) {r : WarpRef} {slot : Bool} {cls : FaultClass} {kind : FaultKind}
    {es : List LaneEntry} {fmask : LaneMask} {fpc npc : Word} : (s.deliverCore r slot cls kind es fmask fpc npc).ModeOk := by
  unfold State.deliverCore
  extract_lets s1
  have h1 : s1.ModeOk := h.landBoth
  split
  · exact h1
  · split
    · exact h1
    · have h2 (t : State) (n : ℕ) (x) (e : s1.faultRecord r.launch x es = (t, n)) : t.ModeOk := by
        have hx := s1.faultRecord_modeOk r.launch x es
        rw [e] at hx
        exact hx.mpr h1
      split
      rename_i t ridx e
      have ht := h2 t ridx _ e
      split_ifs
      · exact ht.abort
      · exact ht.abort
      · exact State.updWarp_modeOk_of (by simpa using ht) fun w hw => Warp.exitLanes_modeOk hw _
      · exact ht.enterContinuation
      · extract_lets s3 s4
        have h4 : s4.ModeOk := by simpa [s4, s3] using ht
        exact h4
      · extract_lets s3 s4
        have h4 : s4.ModeOk := by simpa [s4, s3] using ht
        exact h4.sendToLoupe
      · exact ht.abort

theorem State.ModeOk.settle {n : ℕ} {s : State} (h : s.ModeOk) {r : WarpRef} {actor : Bool} : (State.settle n s r actor).ModeOk := by
  induction n generalizing s actor with
  | zero => exact h
  | succ n ih =>
    unfold State.settle
    split
    · rename_i w l hw hl
      have hw := h.warp hw
      split
      · exact h
      · split
        · exact h.endWarp
        · extract_lets w1 s1
          have hw1 : w1.ModeOk := Warp.settle_modeOk hw actor
          have h1 : s1.ModeOk := h.setWarp hw1
          split
          · split
            · exact h1
            · rename_i w2 hw2
              extract_lets p s2 npc s3
              have h2 : s2.ModeOk := h1.setWarp (Warp.unstick_modeOk hw1 hw2)
              exact ih h2.deliverCore
          · exact h1
    · exact h

theorem State.ModeOk.deliver {s : State} (h : s.ModeOk) {r : WarpRef} {slot : Bool} {cls : FaultClass} {kind : FaultKind}
    {es : List LaneEntry} {fmask : LaneMask} {fpc npc : Word} : (s.deliver r slot cls kind es fmask fpc npc).ModeOk :=
  h.deliverCore.settle

theorem State.ModeOk.resume {s : State} (h : s.ModeOk) {r : WarpRef} {skip : Bool} {m : LaneMask} : (s.resume r skip m).ModeOk := by
  unfold State.resume
  split
  · rename_i w l hw hl
    have hw := h.warp hw
    split
    · exact h
    · rename_i f hf
      obtain ⟨h0, h1, hg⟩ := hw.frozenModes f hf
      extract_lets a word fmode
      split
      · exact h.abort
      · rename_i sregs redo back fr w1 w2 w3 hm
        have hm : modeLegal fmode = true := by simpa using hm
        have h1 : w1.ModeOk := ⟨(slotModes_map Path.rewait_modeOk _).mpr h0, (slotModes_map Path.rewait_modeOk _).mpr h1, hg, frozenModes_none⟩
        have h2 : w2.ModeOk := Warp.updPath_modeOk_of h1 fun p hp => by
          simp only [back]
          split <;> simpa [StackModes] using ⟨hm, hp.stack⟩
        exact State.ModeOk.settle (h.setWarp (Warp.exitLanes_modeOk h2 _))
  · exact h

/-! ### What an instruction does -/

theorem Ctx.ModeOk.parkAt {c : Ctx} (hc : c.ModeOk) {k : Park} : (c.parkAt c.s k).ModeOk := by simpa using hc.s

/-- An instruction that waits for splice results, or goes on. -/
theorem Ctx.ModeOk.drained {c : Ctx} (hc : c.ModeOk) {k : State} (hk : k.ModeOk) : (c.drained k).ModeOk := by
  unfold Ctx.drained
  split
  · exact hc.parkAt
  · exact hk

theorem Ctx.ModeOk.issueFault {c : Ctx} (hc : c.ModeOk) {k : FaultKind} {len : ℕ} : (c.issueFault k len).ModeOk :=
  hc.drained (State.ModeOk.deliver (by simpa using hc.s))

theorem State.ModeOk.complete {s : State} (h : s.ModeOk) {c : Ctx} {sh : Shape} {active : LaneMask} {ws : List (WTarget × Word)} {npc : Word} :
    (c.complete s sh active ws npc).ModeOk := by
  unfold Ctx.complete
  extract_lets dests s1 s2 s3
  have h2 : s2.ModeOk := by simpa [s2, s1] using h
  have h3 : s3.ModeOk := h2.retireTo
  simpa using h3

theorem Ctx.ModeOk.completeLanes {c : Ctx} (hc : c.ModeOk) {s : State} (h : s.ModeOk) {sh : Shape} {active : LaneMask} {out : LaneOut} :
    (c.completeLanes s sh active out).ModeOk := by
  unfold Ctx.completeLanes
  split
  · exact h.complete
  · extract_lets dests s1 s2 s3
    have h2 : s2.ModeOk := by simpa [s2, s1] using h
    have h3 : s3.ModeOk := h2.retireTo
    exact hc.drained (State.ModeOk.deliver (by simpa using h3))

theorem Ctx.ModeOk.softFault {c : Ctx} (hc : c.ModeOk) {sh : Shape} : (c.softFault sh).ModeOk := hc.completeLanes hc.s

theorem Ctx.ModeOk.sound {c : Ctx} (hc : c.ModeOk) {sh : Shape} {k : State} (hk : k.ModeOk) : (c.sound sh k).ModeOk := by
  unfold Ctx.sound
  split
  · exact hc.softFault
  · exact hk

theorem Ctx.ModeOk.guarded {c : Ctx} (hc : c.ModeOk) {sh : Shape} {k : State} (hk : k.ModeOk) : (c.guarded sh k).ModeOk := by
  unfold Ctx.guarded
  split
  · exact hc.softFault
  · exact hk

theorem Ctx.ModeOk.readFault {c : Ctx} (hc : c.ModeOk) {k : FaultKind} {sh : Shape} : (c.readFault k sh).ModeOk :=
  hc.sound (hc.drained (State.ModeOk.deliver (by simpa using hc.s)))

theorem Ctx.ModeOk.pathFault {c : Ctx} (hc : c.ModeOk) {s : State} (h : s.ModeOk) {k : FaultKind} {detail : ℕ} {addr : Word} {sh : Shape} :
    (c.pathFault s k detail addr sh).ModeOk :=
  hc.sound (hc.drained (State.ModeOk.deliver (by simpa using h)))

/-! ### Outcomes -/

/-- Every state that an outcome gives has only legal MODE values. -/
def Legal (o : Host.Outcome State Fault Refusal) : Prop := ∀ t, o = .next t → t.ModeOk

@[simp] theorem legal_next (s : State) : Legal (.next s) ↔ s.ModeOk := by simp [Legal]

@[simp] theorem legal_fault (f : Fault) : Legal (.fault f) := nofun

@[simp] theorem legal_refused (r : Refusal) : Legal (.refused r) := nofun

theorem State.ModeOk.withCtx {s : State} (h : s.ModeOk) {f : Ctx → State} (hf : ∀ c : Ctx, c.ModeOk → (f c).ModeOk) :
    Legal (withCtx s f) := by
  unfold Machine.withCtx
  split
  · simp
  · rename_i hc; exact (legal_next _).mpr (hf _ (h.ctx hc))

theorem State.ModeOk.issueOp {s : State} (h : s.ModeOk) {sh : Shape} {ok : Ctx → Bool} {f : Ctx → State}
    (hf : ∀ c : Ctx, c.ModeOk → (f c).ModeOk) : Legal (issueOp s sh ok f) := by
  refine h.withCtx fun c hc => ?_
  split_ifs
  · exact hc.issueFault
  · exact hc.issueFault
  · exact hf c hc

end Sys2Proof.Machine
end

section
/-! SUPPORT. The shared operations of instructions keep MODE values legal, one lemma each. -/

namespace Sys2Proof.Machine

theorem Ctx.ModeOk.landed {c : Ctx} (hc : c.ModeOk) : c.landed.ModeOk := by
  unfold Ctx.landed
  cases h : (c.s.land c.ref c.slot).ctxAt? c.ref c.slot with
  | none => exact hc
  | some x => exact (hc.s.land).ctxAt h

theorem Ctx.ModeOk.withState {c : Ctx} (hc : c.ModeOk) {t : State} (h : t.ModeOk) : ({ c with s := t } : Ctx).ModeOk := ⟨h, hc.w, hc.p⟩

/-! ### Lanes, scalars and control -/

section
variable {s : State} {sh : Shape}

theorem State.ModeOk.laneOpWith (h : s.ModeOk) {extra : Ctx → List ℕ} {ok : Ctx → Bool} {d : ℕ} {f : Ctx → ℕ → LaneRes} :
    Legal (laneOpWith s sh extra ok d f) :=
  h.issueOp fun _ hc => hc.guarded (hc.completeLanes (by simpa using hc.s))

theorem State.ModeOk.laneOp (h : s.ModeOk) {ok : Ctx → Bool} {d : ℕ} {f : Ctx → ℕ → LaneRes} : Legal (laneOp s sh ok d f) := h.laneOpWith

theorem State.ModeOk.laneWord (h : s.ModeOk) {ok : Ctx → Bool} {d : Field} {f : Ctx → ℕ → Word} : Legal (laneWord s sh ok d f) := h.laneOp

theorem Ctx.ModeOk.scalarDone {c : Ctx} (hc : c.ModeOk) {ws : List (ℕ × Word)} {npc : Word} : (c.scalarDone sh ws npc).ModeOk := by
  unfold Ctx.scalarDone
  refine hc.sound ?_
  extract_lets s1 s2 s3 s4
  have h3 : s3.ModeOk := by simpa [s3, s2, s1] using hc.s
  have h4 : s4.ModeOk := h3.retireTo
  simpa using h4

theorem State.ModeOk.scalarOp (h : s.ModeOk) {d : Field} {f : Ctx → Word} : Legal (scalarOp s sh d f) :=
  h.withCtx fun _ hc => hc.scalarDone

theorem Ctx.ModeOk.controlDone {c : Ctx} (hc : c.ModeOk) {t : State} (h : t.ModeOk) {dest : Option ℕ} {npc : Word} :
    (c.controlDone t sh dest npc).ModeOk := by
  unfold Ctx.controlDone
  refine hc.sound ?_
  extract_lets s1 s2
  have h2 : s2.ModeOk := State.ModeOk.retireTo (by simpa [s1] using h)
  simpa using h2

theorem Ctx.ModeOk.enterGroup {c : Ctx} (hc : c.ModeOk) {key : GroupKey} {retire : Bool} {k : Ctx → State}
    (hk : ∀ c : Ctx, c.ModeOk → (k c).ModeOk) : (c.enterGroup key retire k).ModeOk := by
  have hs : (c.s.setWarp (c.w.enter c.slot key c.active).1).ModeOk := hc.s.setWarp (Warp.enter_modeOk hc.w _ _ _)
  unfold Ctx.enterGroup
  split
  rename_i e
  rw [e] at hs
  extract_lets s1
  split
  · split
    · rename_i h; exact hk _ (hs.ctxAt h)
    · exact hs
  · rename_i s2 s3 _
    have h2 : s2.ModeOk := by simpa [s2] using hs
    have h3 : s3.ModeOk := by
      simp only [s3]
      split
      · exact h2.retireWarp
      · exact h2
    exact State.ModeOk.settle (by simpa using h3)

theorem State.ModeOk.scalarDiv (h : s.ModeOk) {m : Bool} {d a : Field} {b : Src} {sg q : Bool} : Legal (scalarDiv s m d a b sg q) := by
  refine h.withCtx fun c hc => ?_
  extract_lets r
  split
  · exact hc.readFault
  · exact hc.scalarDone

theorem State.ModeOk.jumpTo (h : s.ModeOk) {m : Bool} {a : Field} : Legal (jumpTo m a s) := by
  refine h.withCtx fun c hc => ?_
  extract_lets t
  split
  · exact hc.pathFault hc.s
  · exact hc.controlDone hc.s

theorem State.ModeOk.maskOp (h : s.ModeOk) {m : Bool} {d a : Field} {b : Src} {ok : Ctx → Bool} {f : Ctx → ℕ → CmpRes} :
    Legal (maskOp s m d a b ok f) :=
  h.issueOp fun _ hc => hc.guarded (hc.completeLanes (by simpa using hc.s))

/-! ### Warp-wide operations (08 R146) -/

theorem Ctx.ModeOk.runWide {c : Ctx} (hc : c.ModeOk) {p q bad : LaneMask} {body : WideBody} : (c.runWide sh p q bad body).ModeOk :=
  hc.completeLanes (by simpa using hc.s)

theorem Ctx.ModeOk.parkWide {c : Ctx} (hc : c.ModeOk) {u bad : LaneMask} {body : WideBody} : (c.parkWide sh u bad body).ModeOk := by
  have hw : (c.w.updPath c.slot fun p => { p with lanes := p.lanes &&& ~~~bad }).ModeOk := by simpa using hc.w
  have hk (c : Ctx) (hc : c.ModeOk) (bad : LaneMask) :
      (match c.p.carry with | some (p, q) => c.runWide sh p q bad body | none => c.s).ModeOk := by
    split
    · exact hc.runWide
    · exact hc.s
  unfold Ctx.parkWide
  extract_lets c1
  have h1 : c1.ModeOk := ⟨hc.s, hw, hc.p⟩
  split
  · exact h1.enterGroup fun c hc => hk c hc 0
  · have hv := Warp.enter_modeOk hw c.slot (.wide c.p.pc u) (c.active &&& ~~~bad)
    split
    rename_i w done e
    have hv : w.ModeOk := by rw [e] at hv; exact hv
    split
    · split
      · rename_i c' h
        have hs : (c.s.setWarp (w.updPath c.slot fun p => { p with lanes := p.lanes ||| bad })).ModeOk := hc.s.setWarp (by simpa using hv)
        exact hk c' (hs.ctxAt h) bad
      · exact hc.s
    · extract_lets s1
      have h1 : s1.ModeOk := hc.s.setWarp (Warp.setPath_modeOk hv (by simpa using hc.p))
      exact State.ModeOk.deliver (by simpa using h1.retireTo)

theorem Ctx.ModeOk.soundWide {c : Ctx} (hc : c.ModeOk) {k : State} (hk : k.ModeOk) : (c.soundWide sh k).ModeOk := by
  unfold Ctx.soundWide
  split
  · exact hc.softFault
  · exact hk

theorem State.ModeOk.wideOp (h : s.ModeOk) {ok : Ctx → Bool} {body : WideBody} : Legal (wideOp s sh ok body) := by
  refine h.issueOp fun c hc => hc.soundWide ?_
  split
  · exact hc.runWide
  · refine hc.drained ?_
    extract_lets c1 u0 u bad
    have h1 : c1.ModeOk := hc.landed
    split
    · exact h1.runWide
    · exact h1.parkWide

theorem State.ModeOk.wideWord (h : s.ModeOk) {d : Field} {src : Ctx → LaneMask → ℕ → List (ℕ × ℕ)} {f : Ctx → LaneMask → ℕ → Word} :
    Legal (wideWord s sh d src f) := h.wideOp

theorem State.ModeOk.indexedMove (h : s.ModeOk) {k : ℕ} {src dst : ℕ → ℕ} : Legal (indexedMove s sh k src dst) :=
  h.issueOp fun _ hc => hc.guarded (hc.completeLanes (by simpa using hc.s))

/-! ### Barriers -/

theorem Ctx.ModeOk.frameFirst {c : Ctx} (hc : c.ModeOk) {k : State} (hk : k.ModeOk) : (c.frameFirst k).ModeOk := by
  unfold Ctx.frameFirst
  split
  · simpa using hc.s
  · exact hk

theorem Ctx.ModeOk.returned {c : Ctx} (hc : c.ModeOk) : c.returned.ModeOk := by
  unfold Ctx.returned
  extract_lets isLoad done rest
  split
  · exact hc.s
  · rename_i src w _
    have hw : w.ModeOk := Warp.setPath_modeOk (by simpa using hc.w) (by simpa [src] using hc.p)
    simpa using hc.s.setWarp hw

theorem Ctx.ModeOk.atBarrier {c : Ctx} (hc : c.ModeOk) {m : Bool} {u : BarUnit} {arrive wait : Bool} : (c.atBarrier m u arrive wait).ModeOk := by
  unfold Ctx.atBarrier
  extract_lets b
  split
  · exact hc.parkAt
  · rename_i s1 rec' s2 _
    have h1 : s1.ModeOk := by
      simp only [s1]
      split
      · simpa using hc.returned
      · exact hc.s
    have hr : ((s1.retireTo c.ref c.slot c.active c.p.pc none 0 (c.next 4)).updPath c.ref c.slot fun p => p.mark m).ModeOk := by
      simpa using h1.retireTo
    have h2 : s2.ModeOk := by
      simp only [s2]
      generalize rec' = x
      split
      · split
        · simpa using h1
        · exact hr
      · exact hr
    split
    · simpa using h2.tryComplete
    · simpa using h2

theorem Ctx.ModeOk.atReplay {c : Ctx} (hc : c.ModeOk) {rp : BarpReplay} : (c.atReplay rp).ModeOk := by
  unfold Ctx.atReplay
  extract_lets g arrive s1 s2 s3
  have h3 : s3.ModeOk := by simpa [s3, s2, s1] using hc.returned
  simpa using h3.tryReplay

theorem Ctx.ModeOk.meetBarrier {c : Ctx} (hc : c.ModeOk) {m : Bool} {u : BarUnit} {arrive wait : Bool} :
    (c.meetBarrier m u arrive wait).ModeOk := by
  unfold Ctx.meetBarrier
  split
  · exact hc.atReplay
  · exact hc.atBarrier

theorem State.ModeOk.barrierOp (h : s.ModeOk) {m : Bool} {u : BarUnit} {arrive wait : Bool} : Legal (barrierOp s m u arrive wait) := by
  refine h.withCtx fun c hc => ?_
  split_ifs
  · exact hc.issueFault
  · exact hc.frameFirst hc.meetBarrier
  · exact hc.drained (hc.landed.enterGroup fun _ h => h.frameFirst h.meetBarrier)

/-! ### Memory -/

theorem Ctx.ModeOk.redraw {c : Ctx} (hc : c.ModeOk) {k : Ctx → State} (hk : ∀ c : Ctx, c.ModeOk → (k c).ModeOk) : (c.redraw k).ModeOk := by
  unfold Ctx.redraw
  split
  · extract_lets t
    have ht : t.ModeOk := hk _ (by
      unfold Ctx.redrawn
      split
      · exact ⟨by simpa using hc.s, hc.w, hc.p⟩
      · exact hc)
    simpa using ht
  · exact hk c hc

theorem Ctx.ModeOk.watched {c : Ctx} (hc : c.ModeOk) {k : AccKind} {as : List Watched} {locked : List Word} {t : State}
    (h : c.watch k as locked = some t) : t.ModeOk := (Ctx.watch_modeOk h).mpr hc.s

theorem State.ModeOk.memOp (h : s.ModeOk) {ok : Ctx → Bool} {k : AccKind} {n : ℕ} {addr : Ctx → ℕ → Word}
    {run : Ctx → List Access → State × List (WTarget × Word)} (hrun : ∀ c as, c.ModeOk → (run c as).1.ModeOk) :
    Legal (memOp s sh ok k n addr run) := by
  refine h.issueOp fun c hc => hc.guarded (hc.redraw fun c hc => ?_)
  extract_lets act soft
  split
  rename_i as fs _
  split
  · simpa using hc.s
  · have hr := hrun c as hc
    split
    rename_i t ws e
    have ht : t.ModeOk := by rw [e] at hr; exact hr
    split
    · rename_i h; exact hc.watched h
    · exact hc.completeLanes (by simpa using ht)

theorem State.ModeOk.loadOp (h : s.ModeOk) {m : Bool} {d a : Field} {b : Src} {n k : ℕ} {conv : List Byte → List Word} :
    Legal (loadOp s m d a b n k conv) := h.memOp fun _ _ hc => hc.s

theorem State.ModeOk.storeOp (h : s.ModeOk) {m : Bool} {d a : Field} {b : Src} {n k : ℕ} : Legal (storeOp s m d a b n k) :=
  h.memOp fun _ _ hc => by simpa using hc.s

theorem State.ModeOk.atomicOp (h : s.ModeOk) {m rd : Bool} {d a : Field} {b : Src} {ok : Ctx → Bool} {new : Ctx → ℕ → Word → Word} :
    Legal (atomicOp s m rd d a b ok new) :=
  h.memOp fun _ _ hc => by simpa using hc.s

theorem State.ModeOk.redOp (h : s.ModeOk) {m : Bool} {a : Field} {b : Src} {ok : Ctx → Bool} {o : RedOp} : Legal (redOp s m a b ok o) :=
  h.memOp fun _ _ hc => by simpa using hc.s

theorem State.ModeOk.scalarMem (h : s.ModeOk) {k : AccKind} {n : ℕ} {a : Field} {b : Src}
    {run : Ctx → Access → State × List (WTarget × Word)} (hrun : ∀ c x, c.ModeOk → (run c x).1.ModeOk) :
    Legal (scalarMem s sh k n a b run) := by
  refine h.withCtx fun c hc => hc.sound (hc.redraw fun c hc => ?_)
  extract_lets x
  split
  · exact hc.pathFault hc.s
  · extract_lets acc
    split
    · exact hc.softFault
    · split
      · simpa using hc.s
      · have hr := hrun c acc hc
        split
        rename_i t ws e
        have ht : t.ModeOk := by rw [e] at hr; exact hr
        split
        · rename_i h; exact hc.watched h
        · exact State.ModeOk.complete (by simpa using ht)

theorem State.ModeOk.scalarLoad (h : s.ModeOk) {m : Bool} {d a : Field} {b : Src} {k : ℕ} : Legal (scalarLoad s m d a b k) :=
  h.scalarMem fun _ _ hc => hc.s

theorem State.ModeOk.scalarStore (h : s.ModeOk) {m : Bool} {d a : Field} {b : Src} {k : ℕ} : Legal (scalarStore s m d a b k) :=
  h.scalarMem fun _ _ hc => by simpa using hc.s

theorem Ctx.ModeOk.waitRead {c : Ctx} (hc : c.ModeOk) {m : Bool} {cmp : ℕ} {a : Field} {x v t : Word} : (c.waitRead m cmp a x v t).ModeOk := by
  unfold Ctx.waitRead
  extract_lets sh start
  split
  · exact hc.pathFault hc.s
  · extract_lets acc w
    split
    · exact hc.softFault
    · split
      · rename_i h; simpa using hc.watched h
      · split_ifs
        · exact hc.controlDone hc.s
        · exact hc.pathFault hc.s
        · simpa +zetaDelta using hc.s

/-! ### Engine instructions -/

theorem State.ModeOk.issued (h : s.ModeOk) {c : Ctx} : (c.issued s sh).ModeOk := h.complete

theorem State.ModeOk.issueWork (h : s.ModeOk) {c : Ctx} {work : Work} {locks : List Lock} {external : Bool} :
    (c.issueOp s sh work locks external).ModeOk := by
  unfold Ctx.issueOp
  extract_lets s1
  have h1 : s1.ModeOk := by simpa [s1] using h
  split
  · exact State.ModeOk.issued (by simpa using h1)
  · simpa using h1

theorem Ctx.ModeOk.engineIssue {c : Ctx} (hc : c.ModeOk) {work : Work} {external : Bool} {v : Except (FaultKind × Word) (List Lock)} :
    (c.engineIssue sh work external v).ModeOk := by
  refine hc.sound (hc.drained ?_)
  split
  · exact State.ModeOk.issued (by simpa using hc.s)
  · exact hc.s.issueWork

end

end Sys2Proof.Machine
end

section
/-! SUPPORT. Engine operations, splices, collectives and late faults keep MODE values legal. -/

namespace Sys2Proof.Machine

section
variable {s : State}

/-! ### Engine operations -/

theorem State.ModeOk.registerWaiting (h : s.ModeOk) {core : ℕ} {os : List EngineOp} : (s.registerWaiting core os).ModeOk := by
  induction os generalizing s with
  | nil => exact h
  | cons o r ih =>
    unfold State.registerWaiting
    split
    · exact ih (State.ModeOk.endWaits (by simpa using h))
    · exact ih h

theorem State.ModeOk.postWaitingMma (h : s.ModeOk) {o : EngineOp} : (s.postWaitingMma o).ModeOk := by
  unfold State.postWaitingMma
  split
  · extract_lets s1
    have h1 : s1.ModeOk := by simpa [s1] using h
    split
    · exact State.ModeOk.endWaits (by simpa using h1)
    · exact h1
  · exact h

theorem State.ModeOk.postWaiting (h : s.ModeOk) {os : List EngineOp} : (s.postWaiting os).ModeOk := by
  induction os generalizing s with
  | nil => exact h
  | cons o r ih =>
    unfold State.postWaiting
    split
    · exact ih h
    · exact ih h.postWaitingMma

theorem State.ModeOk.finishOp (h : s.ModeOk) {id : ℕ} {err : Option BatchError} : (s.finishOp id err).ModeOk := by
  unfold State.finishOp
  split
  · exact h
  · extract_lets tripod x s1 s2 s3 s4 s5
    have h1 : s1.ModeOk := by simpa [s1, x] using h
    have h2 : s2.ModeOk := by
      simp only [s2]
      split <;> simpa using h1
    have h4 : s4.ModeOk := by
      have h3 : s3.ModeOk := by simpa [s3] using h2
      simp only [s4]
      split
      · exact h3.registerWaiting
      · exact h3
    have h5 : s5.ModeOk := h4.postWaiting
    split
    · simpa using h5
    · exact h5

theorem State.ModeOk.endWork (h : s.ModeOk) {l : Launch} {o : EngineOp} {n : ℕ} {f : Option (FaultKind × ℕ)} : (s.endWork l o n f).ModeOk :=
  State.ModeOk.finishOp (by simpa using h)

/-! ### Matrix instructions -/

theorem State.ModeOk.mmaDone (h : s.ModeOk) {c : Ctx} (hc : c.ModeOk) {sh : Shape} {soft : LaneMask} : (c.mmaDone s sh soft).ModeOk := by
  unfold Ctx.mmaDone
  split
  · exact h.issued
  · exact hc.completeLanes h

theorem State.ModeOk.mmaBegin (h : s.ModeOk) {c : Ctx} (hc : c.ModeOk) {sh : Shape} {j : MmaJob} {qs : List (ℕ × Lock)} {soft : LaneMask} :
    (c.mmaBegin s sh j qs soft).ModeOk := by
  unfold Ctx.mmaBegin
  extract_lets j s1
  have h1 : s1.ModeOk := by simpa [s1] using h
  split
  · exact h1.mmaDone hc
  · rename_i o _
    have hm := c.mmaLatch_modeOk s1 o j
    split
    rename_i j2 s2 e
    have h2 : s2.ModeOk := by rw [e] at hm; exact hm.mpr h1
    extract_lets s3
    have h3 : s3.ModeOk := by simpa [s3] using h2
    split
    · exact h3.mmaDone hc
    · simpa using h3

theorem State.ModeOk.endMma (h : s.ModeOk) {id : ℕ} : (s.endMma id).ModeOk := by
  unfold State.endMma
  split
  · exact h
  · extract_lets e
    split
    · split
      · exact h.finishOp
      · exact h
    · exact h

theorem State.ModeOk.endMmas (h : s.ModeOk) {ids : List ℕ} : (s.endMmas ids).ModeOk := by
  induction ids generalizing s with
  | nil => exact h
  | cons o r ih => exact ih h.endMma

theorem State.ModeOk.sliceArrives (h : s.ModeOk) {r : Request} {rp : Replay} {k : ℕ × ℕ × ℕ} : (s.sliceArrives r rp k).ModeOk := by
  unfold State.sliceArrives
  extract_lets f d site others v s1 x s2 rp' s3
  have hv : v.s.ModeOk := by simpa [v] using h
  split
  · exact State.ModeOk.endMma (by simpa [s1] using hv)
  · have h2 : s2.ModeOk := by simpa [s2] using hv
    split
    · exact State.ModeOk.endMma (by simpa [s3] using h2)
    · simpa using h2

/-! ### Splices -/

theorem State.ModeOk.applySplice (h : s.ModeOk) {q : SpliceReq} : (s.applySplice q).ModeOk := by
  unfold State.applySplice
  extract_lets x s1 s2 sh
  have h2 : s2.ModeOk := by simpa [s2, s1, x] using h
  split
  · exact h2
  · rename_i c hc
    have hc := h2.ctxAt hc
    extract_lets t
    clear_value t
    have hw := s2.spliceWork_modeOk t q.work
    split
    rename_i r s3 e
    have h3 : s3.ModeOk := by rw [e] at hw; exact hw.mpr h2
    extract_lets s4
    have h4 : s4.ModeOk := by
      simp only [s4]
      split
      · exact h3
      · simpa using h3
    split
    · simpa using h4
    · split
      · split
        · exact hc.pathFault h4
        · simpa using h4
      · exact hc.pathFault h4
      · exact h4.waitDone
      · exact hc.completeLanes h4

theorem Ctx.ModeOk.sendSplice {c : Ctx} (hc : c.ModeOk) {sh : Shape} {dest : Option ℕ} {soft : LaneMask} {k : SpliceWork} :
    (c.sendSplice sh dest soft k).ModeOk := by
  unfold Ctx.sendSplice
  extract_lets parks s1 q x s2 s3 s4
  have h2 : s2.ModeOk := by simpa [s2, s1, x] using hc.s
  have h4 : s4.ModeOk := by simpa [s4, s3] using h2
  split
  · simpa using h4
  · rename_i s5 s6 _
    have h6 : s6.ModeOk := State.ModeOk.retireTo (by simpa [s5] using h4)
    simpa using h6

theorem State.ModeOk.spliceRead (h : s.ModeOk) {m : Bool} {d a : Field} {k : ℕ → List (ℕ × Word) → SpliceWork} : Legal (spliceRead m d a k s) :=
  h.issueOp fun _ hc => hc.guarded hc.sendSplice

theorem Ctx.ModeOk.relabIssue {c : Ctx} (hc : c.ModeOk) {sh : Shape} {w : Staging} : (c.relabIssue sh w).ModeOk := by
  unfold Ctx.relabIssue
  split
  · exact hc.parkAt
  · split
    · exact hc.engineIssue
    · exact hc.engineIssue

theorem Ctx.ModeOk.copyIssue {c : Ctx} (hc : c.ModeOk) {sh : Shape} {w : Staging} : (c.copyIssue sh w).ModeOk := by
  unfold Ctx.copyIssue
  split
  · exact hc.engineIssue
  · exact hc.engineIssue

theorem State.ModeOk.commitSplices (h : s.ModeOk) {xs : List (WarpRef × ℕ)} : (s.commitSplices xs).ModeOk := by
  induction xs generalizing s with
  | nil => exact h
  | cons x r ih =>
    have h1 : (s.updWarp x.1 fun w => { w with frame := { w.frame with splice := none } }).ModeOk := by simpa using h
    unfold State.commitSplices
    simp only []
    split
    · exact ih h1
    · exact ih h1.applySplice

/-! ### Steps of collectives -/

theorem Ctx.failStep_modeOk {c : Ctx} (hc : c.s.ModeOk) {sh : Shape} {w : Staging} {own : Option Chain} {k : FaultKind} :
    (c.failStep sh w own k).ModeOk := by
  unfold Ctx.failStep
  extract_lets s1
  have h1 : s1.ModeOk := by
    simp only [s1]
    split
    · exact hc
    · simpa using hc
  exact State.ModeOk.issued (by simpa using h1)

theorem Ctx.stepAgain_modeOk {c : Ctx} (hc : c.s.ModeOk) {sh : Shape} {w : Staging} : (c.stepAgain sh w).ModeOk := by
  unfold Ctx.stepAgain
  extract_lets same
  split
  · exact State.ModeOk.issued (by simpa using hc)
  · exact hc.issued

theorem Ctx.ModeOk.stepIssue {c : Ctx} (hc : c.ModeOk) {sh : Shape} {w : Staging} : (c.stepIssue sh w).ModeOk := by
  have ht := c.s.toControl_modeOk c.b.die
  unfold Ctx.stepIssue
  split
  · rename_i s1 e
    exact Ctx.stepAgain_modeOk (c := { c with s := s1 }) (by rw [e] at ht; exact ht.mpr hc.s)
  · rename_i s1 e
    have h1 : s1.ModeOk := by rw [e] at ht; exact ht.mpr hc.s
    extract_lets c1 own g hd c2 id new s2 s3
    have hc1 : c1.s.ModeOk := by simpa [c1] using h1
    split
    · exact Ctx.failStep_modeOk hc1
    · split
      · exact Ctx.failStep_modeOk hc1
      · split
        · exact Ctx.failStep_modeOk hc1
        · have hc2 : c2.s.ModeOk := by simpa [c2] using hc1
          split
          · exact Ctx.failStep_modeOk hc2
          · exact State.ModeOk.issueWork (by simpa [s3, s2] using hc2)

theorem State.ModeOk.endStepOp (h : s.ModeOk) {o : EngineOp} {err : Option BatchError} : (s.endStepOp o err).ModeOk := by
  unfold State.endStepOp
  extract_lets world s1
  have h1 : s1.ModeOk := by
    simp only [s1]
    split <;> simpa using h
  exact State.ModeOk.finishOp (by simpa using h1)

theorem State.ModeOk.failOps (h : s.ModeOk) {k : FaultKind} {addr : ℕ} {os : List EngineOp} : (s.failOps k addr os).ModeOk := by
  induction os generalizing s with
  | nil => exact h
  | cons o r ih => exact ih h.endStepOp

theorem State.ModeOk.failFrom (h : s.ModeOk) {id step : ℕ} {k : FaultKind} {addr : ℕ} : (s.failFrom id step k addr).ModeOk := by
  unfold State.failFrom
  extract_lets last s1 s2
  have h2 : s2.ModeOk := State.ModeOk.failOps (by simpa [s1] using h)
  simpa using h2

theorem State.ModeOk.failChain (h : s.ModeOk) {id : ℕ} {k : FaultKind} {addr : ℕ} : (s.failChain id k addr).ModeOk := h.failFrom

theorem State.ModeOk.failMatch (h : s.ModeOk) {x : StepCtx} : (s.failMatch x).ModeOk := h.failChain

theorem State.ModeOk.absorb (h : s.ModeOk) {n id : ℕ} : (s.absorb n id).ModeOk := by
  induction n generalizing s with
  | zero => exact h
  | succ n ih =>
    unfold State.absorb
    split
    · exact h
    · extract_lets want
      split
      · exact h
      · split
        · exact State.ModeOk.failMatch (by simpa using h)
        · extract_lets v s1 s2
          exact ih (by simpa [s2, s1] using h)

theorem State.ModeOk.beginStep (h : s.ModeOk) {x : StepCtx} : (s.beginStep x).ModeOk := by
  unfold State.beginStep
  split
  · exact h.failChain
  · split
    · extract_lets r data s1
      have hr : r.s.ModeOk := by simpa [r] using h
      split
      · exact hr.failChain
      · exact State.ModeOk.absorb (by simpa [s1] using hr)
    · simpa using h

theorem State.ModeOk.startSteps (h : s.ModeOk) {os : List EngineOp} : (s.startSteps os).ModeOk := by
  induction os generalizing s with
  | nil => exact h
  | cons o r ih =>
    unfold State.startSteps
    split
    · exact ih h
    · split
      · exact ih (State.ModeOk.beginStep (by simpa using h))
      · exact ih h

theorem State.ModeOk.runCollective (h : s.ModeOk) : s.runCollective.ModeOk := by
  unfold State.runCollective
  split
  · exact h
  · exact State.ModeOk.startSteps (by simpa using h)

theorem State.ModeOk.endStep (h : s.ModeOk) {x : StepCtx} {ws : List Word} : (s.endStep x ws).ModeOk := by
  unfold State.endStep
  split
  · have hw := s.writeVa_modeOk none x.o.mmu x.l.record.world (some x.o.id) x.w.dst (outputBytes x.w.stOut ws)
    split
    rename_i f s1 e
    have h1 : s1.ModeOk := by rw [e] at hw; exact hw.mpr h
    split
    · exact h1.failChain
    · simpa using h1.endStepOp
  · exact State.ModeOk.endStepOp (by simpa using h)

theorem State.ModeOk.takeHeader (h : s.ModeOk) {g : Segment} : (s.takeHeader g).ModeOk := by
  unfold State.takeHeader
  split
  · exact h.failFrom
  · simpa using h

theorem State.ModeOk.takeSegment (h : s.ModeOk) {g : Segment} : (s.takeSegment g).ModeOk := by
  unfold State.takeSegment
  split
  · exact h
  · extract_lets s1
    have h1 : s1.ModeOk := by simpa [s1] using h
    split
    · exact h1.takeHeader
    · split
      · exact h1
      · rename_i s2 running _ _
        have h2 : s2.ModeOk := by simpa [s2] using h1
        clear_value running
        split
        · exact h2.absorb
        · exact h2

theorem State.ModeOk.failPortSteps (h : s.ModeOk) {os : List EngineOp} : (s.failPortSteps os).ModeOk := by
  induction os generalizing s with
  | nil => exact h
  | cons o r ih =>
    unfold State.failPortSteps
    split
    · exact ih h
    · split
      · exact ih h.failChain
      · exact ih h

theorem State.ModeOk.takeDown (h : s.ModeOk) {p : ℕ} : (s.takeDown p).ModeOk := State.ModeOk.failPortSteps (by simpa using h)

/-! ### Late faults and transfers -/

theorem State.ModeOk.leaveAll (h : s.ModeOk) {rs : List WarpRef} : (s.leaveAll rs).ModeOk := by
  induction rs generalizing s with
  | nil => exact h
  | cons r rs ih => exact ih h.leaveBarriers

theorem State.ModeOk.transferAfter (h : s.ModeOk) {c : Ctx} (hc : c.ModeOk) {m : Bool} : (c.transferAfter s m).ModeOk := by
  refine hc.drained ?_
  split
  · exact (hc.controlDone h).sendToLoupe
  · simpa using h.sendToLoupe

theorem Ctx.ModeOk.privileged {c : Ctx} (hc : c.ModeOk) {len : ℕ} {k : State} (hk : k.ModeOk) : (c.privileged len k).ModeOk := by
  unfold Ctx.privileged
  split
  · exact hk
  · exact hc.issueFault

theorem State.ModeOk.deliverLate (h : s.ModeOk) {w : Warp} {slot : Bool} {p : Path} {e : LateFault} : (s.deliverLate w slot p e).ModeOk := by
  unfold State.deliverLate
  extract_lets s1 m
  have h1 : s1.ModeOk := by simpa [s1] using h
  split
  · exact h1
  · exact State.ModeOk.deliver (by simpa using h1)

theorem State.ModeOk.runLate (h : s.ModeOk) {n : ℕ} : (State.runLate n s).ModeOk := by
  induction n generalizing s with
  | zero => exact h
  | succ n ih =>
    unfold State.runLate
    split
    · exact h
    · exact ih h.deliverLate

end

end Sys2Proof.Machine
end

section
/-! SUPPORT. Transfers, launches, saves, recovery and bring-up keep MODE values legal. -/

namespace Sys2Proof.Machine

section
variable {s : State}

/-! ### Loupe cores -/

theorem State.ModeOk.arriveLoupe (h : s.ModeOk) {r : WarpRef} {c k : ℕ} : (s.arriveLoupe r c k).ModeOk := by
  unfold State.arriveLoupe
  extract_lets d n pace s1 sched s2 s3
  have h1 : s1.ModeOk := by simpa [s1] using h
  have h2 : s2.ModeOk := by simpa [s2] using h1.landBoth
  have h3 : s3.ModeOk := by simpa [s3] using h2
  split
  · exact h3
  · extract_lets s4
    have h4 : s4.ModeOk := by simpa [s4] using h3
    split
    · simpa using h4
    · exact h4

theorem State.ModeOk.sendHome (h : s.ModeOk) {r : WarpRef} : (s.sendHome r).ModeOk := by
  unfold State.sendHome
  split
  · exact h
  · simpa using h.landBoth

theorem State.ModeOk.arriveHome (h : s.ModeOk) {r : WarpRef} {b : Block} : (s.arriveHome r b).ModeOk := by
  simpa [State.arriveHome] using h.landBoth

theorem State.ModeOk.transferOrSkip (h : s.ModeOk) {r : WarpRef} : (s.transferOrSkip r).ModeOk := by
  unfold State.transferOrSkip
  simp only []
  split
  · exact h.sendToLoupe
  · simpa using h

theorem State.ModeOk.takeSample (h : s.ModeOk) {l : Launch} {d block : ℕ} : (s.takeSample l d block).ModeOk := by
  unfold State.takeSample
  split
  · extract_lets s1
    have h1 : s1.ModeOk := by simpa [s1] using h
    split
    · exact h1.transferOrSkip
    · exact h1
  · exact h

theorem State.ModeOk.debugTransfer (h : s.ModeOk) {w : Warp} : (s.debugTransfer w).ModeOk := by
  unfold State.debugTransfer
  split
  · exact State.ModeOk.sendToLoupe (by simpa using h)
  · exact h.sendToLoupe

theorem State.ModeOk.dropSlotWait (h : s.ModeOk) {r : WarpRef} {place : WarpPlace} : (s.dropSlotWait r place).ModeOk := by
  simpa [State.dropSlotWait] using h.endSlotWaits

theorem State.ModeOk.debugRelease (h : s.ModeOk) {w : Warp} : (s.debugRelease w).ModeOk := by
  unfold State.debugRelease
  extract_lets s1 s2
  have h1 : s1.ModeOk := by simpa [s1] using h
  have h2 : s2.ModeOk := by
    simp only [s2]
    split
    · exact h1.sendHome
    · exact h1.dropSlotWait
    · exact h1.dropSlotWait
    · exact h1
  split
  · exact h2.abort
  · exact h2

/-! ### Launches -/

theorem SavesModes.filter {zs : List Snapshot} (h : SavesModes zs) (p : Snapshot → Bool) : SavesModes (zs.filter p) :=
  fun z hz => h z (List.mem_of_mem_filter hz)

theorem WarpsModes.filter {ws : List Warp} (h : WarpsModes ws) (p : Warp → Bool) : WarpsModes (ws.filter p) :=
  fun w hw => h w (List.mem_of_mem_filter hw)

theorem WarpsModes.append {ws vs : List Warp} (h : WarpsModes ws) (hv : WarpsModes vs) : WarpsModes (ws ++ vs) := by
  intro w hw
  obtain hw | hw := List.mem_append.mp hw
  · exact h w hw
  · exact hv w hw

theorem State.ModeOk.warpsModes (h : s.ModeOk) : WarpsModes s.x.warps := h.warps

theorem State.ModeOk.savesModes (h : s.ModeOk) : SavesModes s.ctl.saves := h.saves

theorem State.ModeOk.diesModes (h : s.ModeOk) : DiesModes s.x.dies := h.negatives

theorem State.ModeOk.completeLaunch (h : s.ModeOk) {uid : ℕ} {st : Status} : (s.completeLaunch uid st).ModeOk := by
  unfold State.completeLaunch
  split
  · exact h
  · simp only [completeEntry_modeOk, updLaunch_modeOk]
    exact State.modeOk_iff.mpr ⟨h.warpsModes, h.savesModes.filter _, h.diesModes⟩

theorem State.ModeOk.settleLaunch (h : s.ModeOk) {uid : ℕ} : (s.settleLaunch uid).ModeOk := by
  unfold State.settleLaunch
  split
  · exact h
  · extract_lets resident
    split
    · exact h
    · split
      · exact h
      · split
        · exact h.completeLaunch
        · split
          · exact h.completeLaunch
          · exact h

theorem State.ModeOk.dropBlockWork (h : s.ModeOk) {launch block : ℕ} {locks : Bool} : (s.dropBlockWork launch block locks).ModeOk := by
  unfold State.dropBlockWork
  exact State.modeOk_iff.mpr ⟨h.warpsModes.filter _, h.savesModes, h.diesModes⟩

theorem State.ModeOk.removeBlocks (h : s.ModeOk) {l : Launch} {bs : List Block} {nums spans : List ℕ} : (s.removeBlocks l bs nums spans).ModeOk := by
  have h1 : ((s.dropOpsOf bs).forgetHits bs).ModeOk := by simpa using h
  unfold State.removeBlocks
  exact State.modeOk_iff.mpr ⟨h1.warpsModes.filter _, h1.savesModes, h1.diesModes⟩

theorem DiesModes.forget {t : Table Die} (h : DiesModes t) (p : Negative → Bool) :
    DiesModes (t.map fun (x : Nat × Die) => (x.1, { x.2 with negative := x.2.negative.filter p })) := by
  intro d hd n hn
  obtain ⟨e, he, rfl⟩ := List.mem_map.mp hd
  exact h e he n (Option.mem_filter_iff.mp hn).1

theorem State.ModeOk.forgetNegatives (h : s.ModeOk) {uid : ℕ} : (s.forgetNegatives uid).ModeOk :=
  State.modeOk_iff.mpr ⟨h.warpsModes, h.savesModes, h.diesModes.forget _⟩

theorem State.ModeOk.loseNegativesOn (h : s.ModeOk) {d : ℕ} : (s.loseNegativesOn d).ModeOk :=
  State.modeOk_iff.mpr ⟨h.warpsModes, h.savesModes, h.diesModes.forget _⟩

theorem State.ModeOk.addWarp (h : s.ModeOk) {w : Warp} (hw : w.ModeOk) : ({ s with x := { s.x with warps := s.x.warps ++ [w] } } : State).ModeOk :=
  State.modeOk_iff.mpr ⟨h.warpsModes.append (by simpa [WarpsModes] using hw), h.savesModes, h.diesModes⟩

theorem State.ModeOk.startWarps (h : s.ModeOk) {b : Block} {entry : ℕ} {ws : List ℕ} : (s.startWarps b entry ws).ModeOk := by
  induction ws generalizing s with
  | nil => exact h
  | cons w ws ih => exact ih (h.addWarp (Warp.fresh_modeOk _ _ _ _))

theorem State.ModeOk.placeBlocks (h : s.ModeOk) {l : Launch} {j : ℕ} {p : Placement} {xs : List (ℕ × ℕ)} : (s.placeBlocks l j p xs).ModeOk := by
  induction xs generalizing s with
  | nil => exact h
  | cons x rest ih =>
    unfold State.placeBlocks
    extract_lets r id v b s1 x s2
    have hv : v.s.ModeOk := by simpa [v] using h
    split
    · rename_i k _ _
      have h1 : ((v.s.dispatcherRecord l.uid k id).abort l.uid .faulted).ModeOk := State.ModeOk.abort (by simpa using hv)
      simpa using h1
    · have h1 : s1.ModeOk := by simpa [s1] using hv
      have h2 : s2.ModeOk := by simpa [s2, x] using h1
      exact ih h2.startWarps.takeSample

theorem State.ModeOk.placeCluster (h : s.ModeOk) {l : Launch} {j : ℕ} {p : Placement} : (s.placeCluster l j p).ModeOk :=
  State.ModeOk.placeBlocks (by simpa using h)

theorem State.ModeOk.placeAll (h : s.ModeOk) {uid : ℕ} {xs : List (ℕ × Placement)} {t : State} (ht : s.placeAll uid xs = some t) : t.ModeOk := by
  induction xs generalizing s with
  | nil => cases ht; exact h
  | cons x rest ih =>
    unfold State.placeAll at ht
    split at ht
    · cases ht
    · split_ifs at ht
      · cases ht; exact h
      · exact ih h.placeCluster ht

/-! ### Pre-emption -/

theorem State.ModeOk.snapshot (h : s.ModeOk) {l : Launch} {unit : ℕ} {bs : List Block} {cs : List LaunchCluster} {ks : List Span} :
    WarpsModes (s.snapshot l unit bs cs ks).warps := by
  intro w hw
  obtain ⟨v, hv, rfl⟩ := List.mem_map.mp hw
  simpa using h.warps v (List.mem_of_mem_filter hv)

theorem State.ModeOk.flushOrSave (h : s.ModeOk) {l : Launch} {b : Block} : (s.flushOrSave l b).ModeOk := by
  unfold State.flushOrSave
  split
  · simpa using h
  · simpa using h.landAll

theorem State.ModeOk.flushOrSaveAll (h : s.ModeOk) {l : Launch} {bs : List Block} : (s.flushOrSaveAll l bs).ModeOk :=
  h.foldl fun _ _ h => h.flushOrSave

theorem State.ModeOk.chooseMethod (h : s.ModeOk) {l : Launch} {rate : ℕ} {b : Block} : (s.chooseMethod l rate b).ModeOk := by
  unfold State.chooseMethod
  split
  · exact h
  · extract_lets g
    split_ifs
    · exact h
    · simpa using h
    · exact h.flushOrSaveAll

theorem State.ModeOk.chooseMethods (h : s.ModeOk) {l : Launch} {rate : ℕ} {bs : List Block} : (s.chooseMethods l rate bs).ModeOk := by
  induction bs generalizing s with
  | nil => exact h
  | cons b bs ih => exact ih h.chooseMethod

theorem State.ModeOk.startAgain (h : s.ModeOk) {l : Launch} {b : Block} : (s.startAgain l b).ModeOk := by
  unfold State.startAgain
  extract_lets r v
  have hv : v.s.ModeOk := by simpa [v] using h
  split
  · exact State.ModeOk.abort (by simpa using hv)
  · exact State.ModeOk.startWarps (by simpa using hv)

theorem State.ModeOk.restoreBlock (h : s.ModeOk) {l : Launch} {z : Snapshot} (hz : WarpsModes z.warps) {b : Block} : (s.restoreBlock l z b).ModeOk := by
  unfold State.restoreBlock
  split
  · exact h
  · extract_lets x s1 ws move os x2 s2
    have h2 : s2.ModeOk := by simpa [s2, s1, x, x2] using h
    split
    · exact h2.startAgain
    · refine h2.foldl_mem fun w hw s hs => hs.addWarp ?_
      simpa using hz w (List.mem_of_mem_filter hw)

theorem State.ModeOk.restoreCluster (h : s.ModeOk) {l : Launch} {z : Snapshot} (hz : WarpsModes z.warps) {c : LaunchCluster} {p : Placement} {t : State}
    (ht : s.restoreCluster l z c p = some t) : t.ModeOk := by
  unfold State.restoreCluster at ht
  extract_lets x s1 y bs at ht
  have hy : y.1.ModeOk := by
    have h1 : s1.ModeOk := by simpa [s1, x] using h
    simp only [y]
    split
    · simpa using h1
    · exact h1
  split_ifs at ht
  cases ht
  simpa using hy.foldl fun _ _ h => h.restoreBlock hz

theorem State.ModeOk.restoreAll (h : s.ModeOk) {l : Launch} {z : Snapshot} (hz : WarpsModes z.warps) {xs : List (LaunchCluster × Placement)} {t : State}
    (ht : s.restoreAll l z xs = some t) : t.ModeOk := by
  induction xs generalizing s with
  | nil => cases ht; exact h
  | cons x r ih =>
    unfold State.restoreAll at ht
    split_ifs at ht
    · cases ht; exact h
    · obtain ⟨u, hu, ht⟩ := Option.bind_eq_some_iff.mp ht
      exact ih (State.ModeOk.restoreCluster (by simpa using h) hz hu) ht

theorem State.ModeOk.flushBlock (h : s.ModeOk) {l : Launch} {b : Block} : (s.flushBlock l b).ModeOk := by
  unfold State.flushBlock
  extract_lets s1 s2
  have h1 : s1.ModeOk := by simpa [s1] using h
  have h2 : s2.ModeOk := by simpa [s2] using h1.dropBlockWork
  simpa using h2

theorem State.ModeOk.releaseBlock (h : s.ModeOk) {l : Launch} {b : Block} : (s.releaseBlock l b).ModeOk := by
  unfold State.releaseBlock
  extract_lets s1 n s2 s3 s4
  have h2 : s2.ModeOk := State.ModeOk.dropBlockWork (by simpa [s1] using h)
  exact State.ModeOk.settleLaunch (by simpa [s4, s3] using h2)

theorem State.ModeOk.queueChecks (h : s.ModeOk) {l : Launch} : (s.queueChecks l).ModeOk := by
  have hb (k) (t : State) (e : (if l.record.faultVa = 0 ∨ l.record.faultVa % 8 ≠ 0 then (.ok [], s) else
      s.bufferFrames l.iface l.record : Except FaultKind (Table Nat) × State) = (k, t)) : t.ModeOk := by
    split at e
    · cases e; exact h
    · have hx := s.bufferFrames_modeOk l.iface l.record
      rw [e] at hx
      exact hx.mpr h
  unfold State.queueChecks
  extract_lets r good
  split
  · rename_i k t e
    have ht := hb _ t e
    extract_lets kind
    exact State.ModeOk.completeLaunch (by simpa using ht)
  · rename_i tb t e
    have ht := hb _ t e
    extract_lets s1
    have h1 : s1.ModeOk := by simpa [s1] using ht
    split
    · exact State.ModeOk.completeLaunch (by simpa using h1)
    · split
      · exact h1.completeLaunch
      · exact h1

/-! ### Recovery and bring-up -/

theorem State.ModeOk.loseLaunch (h : s.ModeOk) {l : Launch} : (s.loseLaunch l).ModeOk := by
  unfold State.loseLaunch
  extract_lets bs s1 s2 s3
  have h1 : s1.ModeOk := by simpa [s1] using h
  have h2 : s2.ModeOk := h1.foldl fun _ _ h => h.dropBlockWork
  exact State.ModeOk.completeLaunch (by simpa [s3] using h2)

/-- A die after a change that keeps or drops its negative. -/
theorem State.ModeOk.updDie (h : s.ModeOk) {d : ℕ} {f : Die → Die}
    (hf : ∀ n, (f (s.die d)).negative = some n → WarpsModes n.snap.warps) : (s.updDie d f).ModeOk := by
  refine State.modeOk_iff.mpr ⟨h.warpsModes, h.savesModes, fun e he n hn => ?_⟩
  obtain rfl | he := mem_tput he
  · exact hf n hn
  · exact h.diesModes e he n hn

theorem State.ModeOk.loseDie (h : s.ModeOk) {d : ℕ} : (s.loseDie d).ModeOk :=
  State.ModeOk.updDie (by simpa using h) nofun

theorem State.ModeOk.loseDies (h : s.ModeOk) {w : ℕ} {ds : List ℕ} : (s.loseDies w ds).ModeOk := by
  induction ds generalizing s with
  | nil => exact h
  | cons d ds ih =>
    refine ih ?_
    split
    · exact h.loseDie
    · exact h

theorem State.ModeOk.refuseOp (h : s.ModeOk) {m : DieMessage} : (s.refuseOp m).ModeOk := by
  unfold State.refuseOp
  split
  · exact h
  · split
    · split
      · exact h
      · exact h.endWork
    · exact h

theorem State.ModeOk.writeNegative (h : s.ModeOk) {l : Launch} {d : ℕ} : (s.writeNegative l d).ModeOk := by
  unfold State.writeNegative
  split
  · exact h
  · rename_i host _
    extract_lets z s1
    have h1 : s1.ModeOk := by simpa [s1] using h
    have h2 : (s1.updDie d fun x => { x with negative := some ⟨host, z⟩ }).ModeOk := h1.updDie fun n hn => by
      cases hn; exact h.snapshot
    exact (State.updCtl_modeOk _ rfl).mpr h2

theorem State.ModeOk.writeNegatives (h : s.ModeOk) {l : Launch} {ds : List ℕ} : (s.writeNegatives l ds).ModeOk := by
  simpa [State.writeNegatives] using h.foldl fun _ _ h => h.writeNegative

theorem State.ModeOk.loseBlocksOn (h : s.ModeOk) {l : Launch} {d : ℕ} : (s.loseBlocksOn l d).ModeOk := h.removeBlocks

theorem State.ModeOk.loseDieOf (h : s.ModeOk) {l : Launch} {d : ℕ} : (s.loseDieOf l d).ModeOk := by
  unfold State.loseDieOf
  extract_lets s1 s2 steps held husk s3 x s4
  have h2 : s2.ModeOk := by
    have h1 : s1.ModeOk := by simpa [s1] using h
    simpa [s2] using h1.abort
  have h3 : s3.ModeOk := h2.loseBlocksOn
  exact State.ModeOk.settleLaunch (by simpa [s4, x] using h3)

theorem State.ModeOk.restoreNegative (h : s.ModeOk) {l : Launch} {d : ℕ} {z : Snapshot} (hz : WarpsModes z.warps) :
    (s.restoreNegative l d z).ModeOk := by
  unfold State.restoreNegative
  extract_lets steps s1 x s2 s3
  have h1 : s1.ModeOk := h.loseBlocksOn
  have h2 : s2.ModeOk := State.modeOk_iff.mpr ⟨h1.warpsModes.append hz, h1.savesModes, h1.diesModes⟩
  have h3 : s3.ModeOk := by simpa [s3] using h2
  simpa using h3

theorem State.ModeOk.recoverable (h : s.ModeOk) {l : Launch} {d : ℕ} {z : Snapshot} (hz : s.recoverable l d = some z) : WarpsModes z.warps := by
  unfold State.recoverable at hz
  extract_lets x at hz
  split at hz
  · cases hz
  · rename_i n hn
    split at hz
    · cases hz
      have hd : (s.die d).negative = some n := hn
      unfold State.die at hd
      cases hg : tget s.x.dies d with
      | none => rw [hg] at hd; cases hd
      | some y => rw [hg] at hd; exact h.diesModes _ (mem_of_tget hg) n hd
    · cases hz

theorem State.train_modeOk {env : PowerEnv} {m : DefectMap} {firmware : BitVec 384} : (s.train env m firmware).ModeOk := by
  refine State.modeOk_iff.mpr ⟨fun _ hw => (nomatch hw), fun _ hz => (nomatch hz), fun e he n hn => ?_⟩
  obtain ⟨d, -, rfl⟩ := List.mem_map.mp he
  cases hn

theorem State.stuck_modeOk {firmware : BitVec 384} : (s.stuck firmware).ModeOk :=
  State.modeOk_iff.mpr ⟨fun _ hw => (nomatch hw), fun _ hz => (nomatch hz), fun _ he => (nomatch he)⟩

theorem State.bringUp_modeOk {env : PowerEnv} {firmware : BitVec 384} : (s.bringUp env firmware).ModeOk := by
  unfold State.bringUp
  split
  · exact State.train_modeOk
  · exact State.stuck_modeOk

end

end Sys2Proof.Machine
end

section
/-! SUPPORT. Instructions keep MODE values legal (03 R55): those that are more than one shared operation. -/

namespace Sys2Proof.Machine

section
variable {s : State}

/-! ### Control -/

theorem execJoin_legal (h : s.ModeOk) {m : Bool} {a : Field} : Legal (execJoin m a s) := by
  refine h.withCtx fun c0 h0 => h0.drained ?_
  extract_lets c
  have hc : c.ModeOk := h0.landed
  exact hc.sound (hc.enterGroup fun c' h' => by simpa using h'.s.retireTo)

theorem execExit_legal (h : s.ModeOk) {m : Bool} : Legal (execExit m s) := by
  refine h.withCtx fun c hc => hc.drained ?_
  extract_lets s1 s2 s3
  have h2 : s2.ModeOk := hc.s.land.retireTo
  have h3 : s3.ModeOk := State.updWarp_modeOk_of h2 fun w hw => by simpa using Warp.exitLanes_modeOk hw c.p.lanes
  exact State.ModeOk.settle (by simpa using h3)

/-- SETMODE writes a legal value only (03 R55). -/
theorem execSetmode_legal (h : s.ModeOk) {m : Bool} {b : Src} : Legal (execSetmode m b s) := by
  refine h.withCtx fun c hc => ?_
  extract_lets v
  split
  · rename_i hv
    have h1 : (c.s.updPath c.ref c.slot fun p => { p with mode := v }).ModeOk :=
      State.updPath_modeOk_of hc.s fun p hp => (Path.modeOk_mk ..).mpr ⟨hv, hp.stack⟩
    exact hc.controlDone h1
  · exact hc.pathFault hc.s

theorem execSetix_legal (h : s.ModeOk) {m : Bool} {b : Src} : Legal (execSetix m b s) :=
  h.withCtx fun _ hc => hc.controlDone (by simpa using hc.s)

theorem execBrd_legal (h : s.ModeOk) {m : Bool} {d a : Field} {lit : Word} : Legal (execBrd m d a lit s) := by
  refine h.issueOp fun c0 h0 => h0.drained ?_
  extract_lets c act soft t n target finish
  have hc : c.ModeOk := h0.landed
  have hf (w : Warp) (npc : Word) (slot : Bool) (rest : Word) (hw : w.ModeOk) : (finish w npc slot rest).ModeOk := by
    simp only [finish]
    have h1 : ((c.s.setWarp (w.commit (.s d.toNat) c.p.lanes)).filmed c.ref [(sRd d, c.p.pc)]).ModeOk := by
      simpa using hc.s.setWarp ((Warp.commit_modeOk w _ _).mpr hw)
    split
    · simpa using h1.retireTo
    · exact State.ModeOk.deliver (by simpa using h1.retireTo)
  refine hc.guarded ?_
  split
  · exact hf _ _ _ _ hc.w
  · split
    · exact hf _ _ _ _ hc.w
    · split
      · rename_i w hw
        exact hf _ _ _ _ (by simpa using Warp.split_modeOk hc.w hc.p hw)
      · exact hc.pathFault hc.s

/-! ### Lanes and registers -/

theorem execVreadl_legal (h : s.ModeOk) {m : Bool} {d a : Field} {b : Src} : Legal (execVreadl m d a b s) :=
  h.issueOp fun _ hc => hc.sound (hc.completeLanes (by simpa using hc.s))

theorem execVqswap_legal (h : s.ModeOk) {m : Bool} {d a : Field} {b : Src} : Legal (execVqswap m d a b s) :=
  h.issueOp fun _ hc => hc.soundWide (hc.drained hc.landed.runWide)

theorem execVwritel_legal (h : s.ModeOk) {m : Bool} {d a : Field} {b : Src} : Legal (execVwritel m d a b s) :=
  h.issueOp fun _ hc => hc.guarded (hc.sound hc.s.complete)

theorem execVspill_legal (h : s.ModeOk) {m : Bool} {a : Field} : Legal (execVspill m a s) := by
  refine h.issueOp fun c hc => ?_
  extract_lets soft
  split
  · exact hc.pathFault hc.s
  · exact hc.completeLanes (by simpa +zetaDelta using hc.s)

theorem execVfill_legal (h : s.ModeOk) {m : Bool} {d : Field} : Legal (execVfill m d s) := by
  refine h.issueOp fun c hc => ?_
  split
  · exact hc.pathFault hc.s
  · exact hc.guarded (hc.completeLanes (by simpa using hc.s))

/-! ### Frames and waits -/

theorem execWaitf_legal (h : s.ModeOk) {m : Bool} {d a : Field} {lit : Word} : Legal (execWaitf m d a lit s) :=
  h.withCtx fun _ hc => hc.frameFirst (hc.sound (hc.redraw fun _ hc => hc.waitRead))

theorem execFence_legal (h : s.ModeOk) {m : Bool} : Legal (execFence m s) := by
  refine h.withCtx fun c hc => ?_
  split
  · exact hc.controlDone hc.s
  · exact hc.parkAt

theorem execFramend_legal (h : s.ModeOk) {m : Bool} : Legal (execFramend m s) := by
  refine h.withCtx fun c hc => ?_
  simpa using hc.controlDone hc.s

theorem execPublish_legal (h : s.ModeOk) {m : Bool} {b : Src} : Legal (execPublish m b s) := by
  refine h.withCtx fun c hc => hc.frameFirst (hc.sound ?_)
  split
  · exact hc.pathFault hc.s
  · split
    · exact hc.pathFault hc.s
    · simpa using hc.s

theorem execEcw_legal (h : s.ModeOk) {m : Bool} {d a : Field} : Legal (execEcw m d a s) :=
  h.withCtx fun _ hc => hc.controlDone (by simpa using hc.s)

theorem execEgo_legal (h : s.ModeOk) {m : Bool} {d : Field} : Legal (execEgo m d s) := by
  refine h.withCtx fun c hc => ?_
  extract_lets sh w
  split
  · exact hc.parkAt
  · split
    · exact hc.copyIssue
    · exact hc.relabIssue
    · exact hc.stepIssue

theorem execBclose_legal (h : s.ModeOk) {m : Bool} {d : Field} : Legal (execBclose m d s) := by
  refine h.withCtx fun c hc => ?_
  split
  · exact hc.parkAt
  · exact State.ModeOk.complete (by simpa using hc.s)

theorem execWaitb_legal (h : s.ModeOk) {m : Bool} {b : Src} : Legal (execWaitb m b s) := by
  refine h.withCtx fun c hc => ?_
  obtain ⟨n, sh⟩ := c.waitsFor m b
  refine hc.sound ?_
  split
  · exact hc.pathFault hc.s
  · split
    · simpa using hc.s
    · extract_lets k s1 s2 s3
      have h1 : s1.ModeOk := by simpa [s1] using hc.s
      split
      · have h2 : s2.ModeOk := hc.controlDone h1
        simpa using h2
      · exact hc.drained (State.ModeOk.deliver (by simpa [s3] using h1))

theorem execBpoll_legal (h : s.ModeOk) {m : Bool} {d : Field} {b : Src} : Legal (execBpoll m d b s) := by
  refine h.withCtx fun c hc => ?_
  obtain ⟨n, sh⟩ := c.waitsFor m b
  refine hc.sound ?_
  split
  · exact hc.pathFault hc.s
  · split
    · simpa using hc.s
    · simpa using hc.s.complete

/-! ### Engines and splices -/

theorem execMzero_legal (h : s.ModeOk) {m : Bool} {d : Field} : Legal (execMzero m d s) := by
  refine h.withCtx fun c hc => ?_
  extract_lets n v
  clear_value v
  split
  · exact hc.engineIssue
  · exact hc.drained (hc.withState (by simpa using hc.s)).engineIssue

theorem execSpinit_legal (h : s.ModeOk) {m : Bool} {a : Field} : Legal (execSpinit m a s) := by
  refine h.withCtx fun c hc => hc.sound ?_
  split
  · exact hc.pathFault hc.s
  · extract_lets s1
    have h1 : s1.ModeOk := by simpa [s1] using hc.s
    split
    · exact hc.drained (hc.withState h1).engineIssue
    · exact h1.issued

theorem execUnite_legal (h : s.ModeOk) {m : Bool} {d a : Field} {b : Src} : Legal (execUnite m d a b s) :=
  h.issueOp fun _ hc => hc.guarded hc.sendSplice

theorem execMma_legal (h : s.ModeOk) {m : Bool} {acc : BitVec 4} {adesc : BitVec 6} {fslot : BitVec 3} {shape : BitVec 2} {fvec : BitVec 6} :
    Legal (execMma m acc adesc fslot shape fvec s) := by
  refine h.issueOp fun c hc => hc.sound (hc.drained ?_)
  split
  · exact State.ModeOk.mmaDone (by simpa using hc.s) hc
  · exact State.ModeOk.mmaBegin (by simpa using hc.s) hc

/-! ### Faults, loupes and privilege -/

theorem execResume_legal (h : s.ModeOk) {m : Bool} {d a : Field} : Legal (execResume m d a s) := by
  refine h.withCtx fun c0 h0 => h0.drained ?_
  extract_lets c
  have hc : c.ModeOk := h0.landed
  split
  · exact hc.pathFault hc.s
  · exact hc.sound (by simpa using hc.s.retireWarp.resume)

theorem execYield_legal (h : s.ModeOk) {m : Bool} : Legal (execYield m s) := by
  refine h.withCtx fun c hc => ?_
  simpa using hc.controlDone hc.s

theorem execLoupe_legal (h : s.ModeOk) {m : Bool} : Legal (execLoupe m s) := by
  refine h.withCtx fun c hc => ?_
  split
  · exact hc.s.transferAfter hc
  · exact hc.controlDone hc.s

theorem execDbgbrk_legal (h : s.ModeOk) {m : Bool} : Legal (execDbgbrk m s) := by
  refine h.withCtx fun c hc => ?_
  extract_lets b
  split_ifs
  · simpa +zetaDelta using hc.s
  · exact State.ModeOk.transferAfter (by simpa using hc.s) hc
  · exact hc.controlDone hc.s

theorem execPrgn_legal (h : s.ModeOk) {m : Bool} {d : Field} : Legal (execPrgn m d s) := by
  refine h.withCtx fun c hc => ?_
  simpa using hc.controlDone hc.s

theorem execPrgx_legal (h : s.ModeOk) {m : Bool} : Legal (execPrgx m s) :=
  h.withCtx fun _ hc => by simpa using hc.controlDone hc.s

theorem execSset_legal (h : s.ModeOk) {m : Bool} {d : Field} {b : Src} : Legal (execSset m d b s) := by
  refine h.withCtx fun c hc => hc.privileged (hc.sound ?_)
  split
  · split
    · exact hc.controlDone (by simpa using hc.s)
    · exact hc.pathFault hc.s
  · split
    · exact hc.controlDone (by simpa using hc.s)
    · exact hc.pathFault hc.s

theorem execSelftest_legal (h : s.ModeOk) {m : Bool} {d : Field} {b : Src} : Legal (execSelftest m d b s) := by
  refine h.withCtx fun c hc => hc.privileged (hc.sound ?_)
  split_ifs
  · exact hc.pathFault hc.s
  · exact hc.pathFault hc.s
  · exact hc.drained (by simpa +zetaDelta using hc.s)

/-! ### The matrix engine's arbiter -/

theorem execMrtGrant_legal (h : s.ModeOk) {die site : ℕ} : Legal (execMrtGrant die site s) := by
  unfold execMrtGrant
  extract_lets e reqs ready
  split
  · exact legal_fault _
  · extract_lets f bad
    split
    · rename_i hit s1 _ _ _
      have h1 : s1.ModeOk := by simpa [s1] using h
      exact (legal_next _).mpr h1.endMmas.postWaiting
    · exact (legal_next _).mpr (by simpa using h)

theorem execPriorityAging_legal (h : s.ModeOk) {iface q : ℕ} : Legal (execPriorityAging iface q s) := by
  unfold execPriorityAging
  extract_lets x
  split
  · simpa using h
  · exact legal_fault _

end

end Sys2Proof.Machine
end

section
/-! SUPPORT. Events keep MODE values legal: those that happen to warps, engines, dies and queues without an instruction. -/

namespace Sys2Proof.Machine

section
variable {s : State}

/-! ### Waits end -/

theorem execWaitfWake_legal (h : s.ModeOk) {w : WarpRef} {slot : Bool} : Legal (execWaitfWake w slot s) := by
  unfold execWaitfWake
  repeat' split
  all_goals simp [h]

theorem execWaitfTimeout_legal (h : s.ModeOk) {w : WarpRef} {slot : Bool} : Legal (execWaitfTimeout w slot s) := by
  unfold execWaitfTimeout
  split
  · exact legal_fault _
  · rename_i c hc
    split
    · split
      · exact (legal_next _).mpr (h.ctxAt hc).waitRead
      · exact legal_fault _
    · exact legal_fault _

theorem execFenceComplete_legal (h : s.ModeOk) {w : WarpRef} {slot : Bool} : Legal (execFenceComplete w slot s) := by
  unfold execFenceComplete
  repeat' split
  all_goals simp [h.waitDone]

theorem execPublishComplete_legal (h : s.ModeOk) {w : WarpRef} {slot : Bool} : Legal (execPublishComplete w slot s) := by
  unfold execPublishComplete
  split
  · exact legal_fault _
  · rename_i c _
    have ht := s.toControl_modeOk c.b.die
    split
    · split
      · simp [h]
      · split
        · rename_i t e
          rw [e] at ht
          exact (legal_next _).mpr (ht.mpr h).waitDone
        · rename_i t e
          rw [e] at ht
          have ht := ht.mpr h
          split
          · exact legal_fault _
          · exact (legal_next _).mpr (State.ModeOk.waitDone (by simpa using ht))
    · exact legal_fault _

theorem execYieldExpiry_legal (h : s.ModeOk) {w : WarpRef} {slot : Bool} : Legal (execYieldExpiry w slot s) := by
  unfold execYieldExpiry
  repeat' split
  all_goals simp [h]

theorem execSelftestDone_legal (h : s.ModeOk) {w : WarpRef} {slot : Bool} {r : SelftestResult} : Legal (execSelftestDone w slot r s) := by
  unfold execSelftestDone
  split
  · exact legal_fault _
  · split
    · extract_lets clocks ws s1 s2
      have h1 : s1.ModeOk := by simpa [s1] using h
      have h2 : s2.ModeOk := by
        simp only [s2]
        split
        · exact h1.endFrozen
        · exact h1.waitDoneWith
      simpa using h2
    · exact legal_fault _

theorem execWriteLanding_legal (h : s.ModeOk) {w : WarpRef} {slot : Bool} {k : ℕ} : Legal (execWriteLanding w slot k s) := by
  unfold execWriteLanding
  repeat' split
  all_goals simp [h.landOne]

theorem execPathStarvation_legal (h : s.ModeOk) {w : WarpRef} {slot : Bool} : Legal (execPathStarvation w slot s) := by
  unfold execPathStarvation
  repeat' split
  all_goals simp [h]

/-! ### Engines -/

theorem execCopyEngineCompletion_legal (h : s.ModeOk) {op : ℕ} : Legal (execCopyEngineCompletion op s) := by
  unfold execCopyEngineCompletion
  split
  · exact legal_fault _
  · rename_i c _
    split
    · rename_i w _
      split
      · have hx : (if w.sealed then (s.copySealed c w, 0) else s.copyRows c w w.rows 0).1.2.ModeOk := by
          split <;> simpa using h
        split
        rename_i e
        rw [e] at hx
        exact (legal_next _).mpr (State.ModeOk.endWork hx)
      · exact legal_fault _
    · exact legal_fault _

theorem execMainMemoryAtomicCompletion_legal (h : s.ModeOk) {op : ℕ} : Legal (execMainMemoryAtomicCompletion op s) := by
  unfold execMainMemoryAtomicCompletion
  split
  · exact legal_fault _
  · rename_i c _
    split
    · rename_i w _
      have hx := s.atomicRmw_modeOk c w
      split
      · split
        rename_i e
        rw [e] at hx
        exact (legal_next _).mpr (State.ModeOk.endWork (hx.mpr h))
      · exact legal_fault _
    · exact legal_fault _

theorem execStationaryLoadCompletion_legal (h : s.ModeOk) {op : ℕ} : Legal (execStationaryLoadCompletion op s) := by
  unfold execStationaryLoadCompletion
  split
  · exact legal_fault _
  · rename_i c _
    split
    · rename_i _ w _
      have hx := s.loadTile_modeOk c w
      split
      · split
        rename_i e
        rw [e] at hx
        exact (legal_next _).mpr (State.ModeOk.endWork (hx.mpr h))
      · exact legal_fault _
    · exact legal_fault _

theorem execPassCompletion_legal (h : s.ModeOk) {die site pass : ℕ} : Legal (execPassCompletion die site pass s) := by
  unfold execPassCompletion
  split
  · exact legal_fault _
  · split
    · exact legal_fault _
    · exact (legal_next _).mpr (State.ModeOk.postWaiting (State.ModeOk.endMmas (by simpa using h)))

theorem execFilterEntryRead_legal (h : s.ModeOk) {op : ℕ} : Legal (execFilterEntryRead op s) := by
  unfold execFilterEntryRead
  split
  · exact legal_fault _
  · rename_i c _
    split
    · exact legal_fault _
    · rename_i j _
      have hx := s.readLatches_modeOk c j j.ids
      split_ifs
      · exact legal_fault _
      · simp [h]
      · exact legal_fault _
      · split
        rename_i e
        rw [e] at hx
        simp [hx.mpr h]

theorem execFilterSliceArrival_legal (h : s.ModeOk) {op row k : ℕ} : Legal (execFilterSliceArrival op row k s) := by
  unfold execFilterSliceArrival
  simp only []
  repeat' split
  all_goals simp [h.sliceArrives]

theorem execStripOperationCompletion_legal (h : s.ModeOk) {op : ℕ} : Legal (execStripOperationCompletion op s) := by
  unfold execStripOperationCompletion
  split
  · exact legal_fault _
  · rename_i c _
    extract_lets e
    split
    · exact legal_fault _
    · split
      · exact (legal_next _).mpr (State.ModeOk.finishOp (by simpa using h))
      · extract_lets st soft err s1 s2
        have h1 : s1.ModeOk := by
          simp only [s1]
          generalize soft = x
          split
          · simpa using h
          · exact h
        exact (legal_next _).mpr (State.ModeOk.finishOp (by simpa [s2] using h1))
      · exact legal_fault _

theorem execSpliceApply_legal (h : s.ModeOk) {req : ℕ} : Legal (execSpliceApply req s) := by
  unfold execSpliceApply
  simp only []
  repeat' split
  all_goals simp [h.applySplice]

theorem execSpinitInitCompletion_legal (h : s.ModeOk) {op : ℕ} : Legal (execSpinitInitCompletion op s) := by
  unfold execSpinitInitCompletion
  split
  · exact legal_fault _
  · split
    · split
      · split
        · exact legal_fault _
        · exact (legal_next _).mpr (State.ModeOk.endWork (by simpa using h))
      · exact legal_fault _
    · exact legal_fault _

theorem execRelabCompletion_legal (h : s.ModeOk) {op : ℕ} : Legal (execRelabCompletion op s) := by
  unfold execRelabCompletion
  split
  · exact legal_fault _
  · rename_i c _
    split
    · rename_i w _
      split
      · rename_i t _ _
        have hx := s.runRelab_modeOk t c.o w
        split
        · exact (legal_next _).mpr h.endWork
        · split
          · exact legal_fault _
          · split
            rename_i e
            rw [e] at hx
            exact (legal_next _).mpr (State.ModeOk.endWork (hx.mpr h))
      · exact legal_fault _
    · exact legal_fault _

theorem execBankPeriodicCheck_legal (h : s.ModeOk) {die site : ℕ} {wrong : DWord} : Legal (execBankPeriodicCheck die site wrong s) := by
  unfold execBankPeriodicCheck
  repeat' split
  all_goals simp [h]

/-! ### Collectives -/

theorem State.stepResult_modeOk {x : StepCtx} {ws : List Word} {t : State} (h : s.ModeOk) (hr : s.stepResult x = some (.ok (ws, t))) :
    t.ModeOk := by
  unfold State.stepResult at hr
  split at hr
  · split at hr
    · cases hr
    · split_ifs at hr
      · cases hr
      · simp only [Option.some.injEq, Except.ok.injEq, Prod.mk.injEq] at hr
        simpa [← hr.2] using h
  · split_ifs at hr
    cases hr
    exact h
  · split_ifs at hr
    cases hr
    exact h

theorem execCollectiveStepCompletion_legal (h : s.ModeOk) {op : ℕ} : Legal (execCollectiveStepCompletion op s) := by
  unfold execCollectiveStepCompletion
  split
  · exact legal_fault _
  · split
    · exact legal_fault _
    · split
      · exact legal_fault _
      · extract_lets s1
        have h1 : s1.ModeOk := by
          simp only [s1]
          split
          · simpa using h
          · exact h
        exact (legal_next _).mpr h1.failMatch.runCollective
      · rename_i hr
        exact (legal_next _).mpr (State.stepResult_modeOk h hr).endStep.runCollective

theorem execCollectiveTimeout_legal (h : s.ModeOk) {op : ℕ} : Legal (execCollectiveTimeout op s) := by
  unfold execCollectiveTimeout
  repeat' split
  all_goals simp [h.failChain.runCollective]

theorem execSegmentDiscard_legal (h : s.ModeOk) {k : ℕ} : Legal (execSegmentDiscard k s) := by
  unfold execSegmentDiscard
  split
  · exact legal_fault _
  · split
    · exact (legal_next _).mpr (State.ModeOk.runCollective (by simpa using h))
    · exact legal_fault _

theorem execFlitArrival_legal (h : s.ModeOk) {port : ℕ} {flit : Flit} : Legal (execFlitArrival port flit s) := by
  unfold execFlitArrival
  split
  · exact legal_fault _
  · split
    · split
      · exact (legal_next _).mpr h.takeDown
      · simp [h]
    · extract_lets s1
      have h1 : s1.ModeOk := by simpa [s1] using h
      split
      · refine (legal_next _).mpr ?_
        split
        · exact h1.takeSegment
        · exact h1
      · simp [h1]

/-! ### Batches and frames -/

theorem execBatchCompletion_legal (h : s.ModeOk) {w : WarpRef} : Legal (execBatchCompletion w s) := by
  unfold execBatchCompletion
  repeat' split
  all_goals simp [h]

theorem execFrameCommit_legal (h : s.ModeOk) {launch block : ℕ} : Legal (execFrameCommit launch block s) := by
  unfold execFrameCommit
  split
  · rename_i l n _ _
    extract_lets ws reqs held
    split
    · exact legal_fault _
    · rename_i s1 next x s2 s3 _
      have h1 : s1.ModeOk := by simpa [s1] using h
      have h2 : s2.ModeOk := by
        refine State.modeOk_iff.mpr ⟨(warpsModes_map s1.x.warps fun w => ?_).mpr h1.warpsModes, h1.savesModes, h1.diesModes⟩
        simp only [next]
        split
        · simp
        · rfl
      have h3 : s3.ModeOk := by simpa [s3] using h2
      exact (legal_next _).mpr h3.commitSplices.leaveAll
  · exact legal_fault _

/-! ### Loupe cores -/

theorem execTransferComplete_legal (h : s.ModeOk) {w : WarpRef} : Legal (execTransferComplete w s) := by
  unfold execTransferComplete
  repeat' split
  all_goals simp [h.arriveLoupe, h.sendToLoupe, h.arriveHome]

theorem execStallWatchdog_legal (h : s.ModeOk) {w : WarpRef} : Legal (execStallWatchdog w s) := by
  unfold execStallWatchdog
  simp only []
  repeat' split
  all_goals simp [h.transferOrSkip]

theorem execPredicateStart_legal (h : s.ModeOk) {die : ℕ} : Legal (execPredicateStart die s) := by
  unfold execPredicateStart
  repeat' split
  all_goals simp [h]

theorem execPredicateReturn_legal (h : s.ModeOk) {die : ℕ} {a0 : Word} {stores : List (ℕ × Byte)} :
    Legal (execPredicateReturn die a0 stores s) := by
  unfold execPredicateReturn
  repeat' split
  all_goals simp [h]

theorem execPredicateOverrun_legal (h : s.ModeOk) {die : ℕ} {stores : List (ℕ × Byte)} : Legal (execPredicateOverrun die stores s) := by
  unfold execPredicateOverrun
  simp only []
  repeat' split
  all_goals simp [h]

theorem execPredicateException_legal (h : s.ModeOk) {die : ℕ} {stores : List (ℕ × Byte)} :
    Legal (execPredicateException die stores s) := by
  unfold execPredicateException
  repeat' split
  all_goals simp [h]

theorem execLogDoorbell_legal (h : s.ModeOk) {die : ℕ} {stores : List (ℕ × Byte)} : Legal (execLogDoorbell die stores s) := by
  unfold execLogDoorbell
  repeat' split
  all_goals simp [h]

/-! ### Launches -/

theorem State.chooseLaunch_modeOk (h : s.ModeOk) {x : ℕ × ℕ} {t : State} (hc : s.chooseLaunch = some (x, t)) : t.ModeOk := by
  unfold State.chooseLaunch at hc
  simp only [] at hc
  split at hc
  · cases hc
  · split at hc
    · cases hc
    · cases hc
      simpa using h

theorem execLaunchQueueExit_legal (h : s.ModeOk) : Legal (execLaunchQueueExit s) := by
  unfold execLaunchQueueExit
  split
  · exact legal_fault _
  · split
    · exact legal_fault _
    · rename_i t hc
      have ht := State.chooseLaunch_modeOk h hc
      extract_lets n l x s1
      have h1 : s1.ModeOk := by simpa [s1, x] using ht
      exact (legal_next _).mpr (State.ModeOk.queueChecks (by simpa using h1))

theorem execDependenceResolution_legal (h : s.ModeOk) {launch : ℕ} : Legal (execDependenceResolution launch s) := by
  unfold execDependenceResolution
  simp only []
  repeat' split
  all_goals simp [h, h.completeLaunch]

theorem execLaunchDispatch_legal (h : s.ModeOk) {launch : ℕ} : Legal (execLaunchDispatch launch s) := by
  unfold execLaunchDispatch
  split
  · exact legal_fault _
  · split
    · exact legal_fault _
    · extract_lets r v
      have hv : v.s.ModeOk := by simpa [v] using h
      split
      · exact (legal_next _).mpr (State.ModeOk.completeLaunch (by simpa using hv))
      · simp +zetaDelta [h]

theorem execBlockPlacement_legal (h : s.ModeOk) {launch cluster : ℕ} {sites : List Placement} :
    Legal (execBlockPlacement launch cluster sites s) := by
  unfold execBlockPlacement
  split
  · exact legal_fault _
  · split
    · exact legal_fault _
    · split
      · exact legal_fault _
      · split
        · rename_i ht
          exact (legal_next _).mpr (h.placeAll ht).settleLaunch
        · exact legal_fault _

theorem execBlockRelease_legal (h : s.ModeOk) {launch block : ℕ} : Legal (execBlockRelease launch block s) := by
  unfold execBlockRelease
  repeat' split
  all_goals simp [h.releaseBlock]

/-! ### Pre-emption -/

theorem execPreemption_legal (h : s.ModeOk) {launch unit rate : ℕ} : Legal (execPreemption launch unit rate s) := by
  unfold execPreemption
  simp only []
  repeat' split
  all_goals simp [h.chooseMethods]

theorem execDrainLimitExpiry_legal (h : s.ModeOk) {launch block : ℕ} : Legal (execDrainLimitExpiry launch block s) := by
  unfold execDrainLimitExpiry
  repeat' split
  all_goals simp [h.flushOrSaveAll]

theorem execSaveComplete_legal (h : s.ModeOk) {launch unit : ℕ} : Legal (execSaveComplete launch unit s) := by
  unfold execSaveComplete
  split
  · exact legal_fault _
  · rename_i l _
    extract_lets bs
    split
    · rename_i s1 s2 cs ks z s3 s4 _
      have h2 : s2.ModeOk := State.ModeOk.foldl h.landAll fun _ _ h => h.flushBlock
      have h3 : s3.ModeOk := h2.removeBlocks
      have h4 : s4.ModeOk := by
        refine State.modeOk_iff.mpr ⟨h3.warpsModes, ?_, h3.diesModes⟩
        intro y hy
        obtain hy | hy := List.mem_append.mp hy
        · exact h3.savesModes y hy
        · rw [List.mem_singleton.mp hy]
          exact h2.snapshot
      simpa using h4.forgetNegatives
    · exact legal_fault _

theorem execRestore_legal (h : s.ModeOk) {launch unit : ℕ} {sites : List Placement} : Legal (execRestore launch unit sites s) := by
  unfold execRestore
  split
  · rename_i l z _ hz
    have hz : WarpsModes z.warps := h.savesModes z (List.mem_of_find?_eq_some hz)
    split
    · exact legal_fault _
    · extract_lets s1 s2 x s3
      have h1 : s1.ModeOk := State.modeOk_iff.mpr ⟨h.warpsModes, h.savesModes.filter _, h.diesModes⟩
      have h2 : s2.ModeOk := by simpa [s2] using h1
      have h3 : s3.ModeOk := by simpa [s3, x] using h2
      split
      · rename_i ht
        have ht := h3.restoreAll hz ht
        exact (legal_next _).mpr (State.ModeOk.settleLaunch (by simpa using ht))
      · exact legal_fault _
  · exact legal_fault _

/-! ### Sessions, dies and power -/

theorem whenUp_legal {name : String} {k : Host.Outcome State Fault Refusal} (hk : Legal k) : Legal (whenUp s name k) := by
  unfold whenUp
  split
  · exact hk
  · exact legal_fault _

theorem execHeartbeatDeadline_legal (h : s.ModeOk) {iface : ℕ} : Legal (execHeartbeatDeadline iface s) := by
  unfold execHeartbeatDeadline
  split
  · exact legal_fault _
  · split
    · exact legal_fault _
    · extract_lets s1 s2 s3 s4
      have h2 : s2.ModeOk := State.ModeOk.loseDies (h.foldl fun _ _ h => h.loseLaunch)
      exact (legal_next _).mpr (by simpa [s4, s3] using h2)

theorem execNegativeComplete_legal (h : s.ModeOk) {launch : ℕ} : Legal (execNegativeComplete launch s) := by
  unfold execNegativeComplete
  split
  · exact legal_fault _
  · extract_lets ds
    split
    · rename_i refs s1 s2 _
      have h1 : s1.ModeOk := h.landAll.writeNegatives
      exact (legal_next _).mpr (State.ModeOk.releaseWaiters (by simpa [s2] using h1))
    · exact legal_fault _

theorem execDieRecoveryComplete_legal (h : s.ModeOk) {die : ℕ} : Legal (execDieRecoveryComplete die s) := by
  unfold execDieRecoveryComplete
  split
  · exact legal_fault _
  · exact (legal_next _).mpr (State.ModeOk.releaseWaiters (by simpa using h))

theorem execDiePortMessage_legal (h : s.ModeOk) {msg : DieMessage} : Legal (execDiePortMessage msg s) := by
  refine whenUp_legal ?_
  split
  · exact legal_fault _
  · split
    · exact (legal_next _).mpr (State.ModeOk.refuseOp (by simpa using h))
    · split
      · simp [h]
      · simp [h]

theorem execFatalDieError_legal (h : s.ModeOk) {die : ℕ} {resetOk : Bool} : Legal (execFatalDieError die resetOk s) := by
  refine whenUp_legal ?_
  split
  · exact legal_fault _
  · extract_lets s1 ls cover lost kept s2 s3 held s4
    have h1 : s1.ModeOk := by simpa [s1] using h
    have h2 : s2.ModeOk := h1.foldl fun _ _ h => h.loseDieOf
    have h3 : s3.ModeOk := State.ModeOk.loseNegativesOn (by simpa using h2)
    have hk (l : Launch) (z : Snapshot) (e : kept = some (l, z)) : WarpsModes z.warps := by
      obtain ⟨l', -, e'⟩ := List.mem_filterMap.mp (List.mem_of_mem_head? e)
      obtain ⟨z', hz, e'⟩ := Option.map_eq_some_iff.mp e'
      cases e'
      simp only [cover] at hz
      split at hz
      · exact h1.recoverable hz
      · cases hz
    clear_value kept
    split
    · rename_i l z
      have h4 := h3.restoreNegative (l := l) (d := die) (hk l z rfl)
      exact (legal_next _).mpr (by simpa using h4)
    · have h4 : s4.ModeOk := h3.updDie nofun
      exact (legal_next _).mpr (by simpa using h4)

theorem execWorldLatch_legal (h : s.ModeOk) {die world : ℕ} : Legal (execWorldLatch die world s) := by
  refine whenUp_legal ?_
  split <;> simp [h]

theorem execPowerOn_legal {env : PowerEnv} : Legal (execPowerOn env s) := by
  unfold execPowerOn
  split_ifs
  · exact legal_fault _
  · exact (legal_next _).mpr State.bringUp_modeOk
  · exact (legal_next _).mpr State.stuck_modeOk

theorem execPackageReset_legal {env : PowerEnv} : Legal (execPackageReset env s) := by
  refine whenUp_legal ?_
  split
  · exact (legal_next _).mpr State.bringUp_modeOk
  · exact legal_fault _

theorem execModulePowerRemoval_legal : Legal (execModulePowerRemoval s) := by
  have h : (s.stuck 0).ModeOk := State.stuck_modeOk
  simpa [execModulePowerRemoval] using h

end

end Sys2Proof.Machine
end

section
/-! SUPPORT. Host commands keep MODE values legal. -/

namespace Sys2Proof.Machine

section
variable {s : State} {iface q : ℕ}

theorem runCmd_legal (h : s.ModeOk) {op : ℕ} {name : String} {used : List ℕ} {f : Cmd → State} (hf : ∀ c, (f c).ModeOk) :
    Legal (runCmd s iface q op name used f) := by
  refine whenUp_legal ?_
  split
  · exact legal_fault _
  · extract_lets c
    split
    · exact legal_fault _
    · refine (legal_next _).mpr ?_
      split
      · exact hf c
      · simpa using h

theorem runMemCmd_legal (h : s.ModeOk) {op : ℕ} {name : String} {used : List ℕ} {f : Cmd → State} (hf : ∀ c, (f c).ModeOk) :
    Legal (runMemCmd s iface q op name used f) := by
  unfold runMemCmd
  split
  · exact legal_fault _
  · exact runCmd_legal h hf

theorem runDebug_legal (h : s.ModeOk) {sub : ℕ} {name : String} {used : List ℕ} {f : Cmd → DebugResult}
    (hf : ∀ c t, f c = .ok t → t.ModeOk) : Legal (runDebug s iface q sub name used f) := by
  unfold runDebug
  split
  · exact legal_fault _
  · split
    · exact legal_fault _
    · refine runCmd_legal h fun c => ?_
      split
      · simpa using h
      · exact DebugResult.settle_modeOk h (hf c) c

/-! ### Queue commands -/

theorem execCopy_legal (h : s.ModeOk) : Legal (execCopy iface q s) := by
  refine runMemCmd_legal h fun c => ?_
  simp only []
  repeat' split
  all_goals simp [h]

theorem execSignal_legal (h : s.ModeOk) : Legal (execSignal iface q s) :=
  runMemCmd_legal h fun _ => by simpa using h

theorem execWait_legal (h : s.ModeOk) : Legal (execWait iface q s) := by
  refine runMemCmd_legal h fun c => ?_
  simp only []
  repeat' split
  all_goals simp [h]

theorem execPuback_legal (h : s.ModeOk) : Legal (execPuback iface q s) := by
  refine runCmd_legal h fun c => ?_
  repeat' split
  all_goals simp [h]

theorem execInval_legal (h : s.ModeOk) : Legal (execInval iface q s) := by
  refine runCmd_legal h fun c => ?_
  split <;> simp [h]

theorem execWindow_legal (h : s.ModeOk) : Legal (execWindow iface q s) := by
  refine runMemCmd_legal h fun c => ?_
  simp only []
  repeat' split
  all_goals simp [h]

theorem execGroup_legal (h : s.ModeOk) : Legal (execGroup iface q s) := by
  refine runCmd_legal h fun c => ?_
  simp only []
  repeat' split
  all_goals simp [h]

theorem execCounters_legal (h : s.ModeOk) : Legal (execCounters iface q s) := by
  refine runCmd_legal h fun c => ?_
  split <;> simp [h]

theorem execSummary_legal (h : s.ModeOk) {n : ℕ} : Legal (execSummary iface q n s) := by
  refine whenUp_legal ?_
  simp only []
  split <;> simp [h]

theorem execWaitSatisfied_legal (h : s.ModeOk) : Legal (execWaitSatisfied iface q s) := by
  unfold execWaitSatisfied
  simp only []
  repeat' split
  all_goals simp [h]

theorem execWaitCommandTimeout_legal (h : s.ModeOk) : Legal (execWaitCommandTimeout iface q s) := by
  unfold execWaitCommandTimeout
  simp only []
  repeat' split
  all_goals simp [h]

theorem execInvalidationComplete_legal (h : s.ModeOk) : Legal (execInvalidationComplete iface q s) := by
  unfold execInvalidationComplete
  split
  · exact legal_fault _
  · split
    · split
      · exact legal_fault _
      · extract_lets drop x s1 s2 told s3
        have hd : DiesModes (s.x.dies.map fun (d : Nat × Die) => (d.1, drop d.2)) := by simpa [drop] using h.diesModes
        have h1 : s1.ModeOk := State.modeOk_iff.mpr ⟨h.warpsModes, h.savesModes, hd⟩
        simp [s3, s2, h1]
    · exact legal_fault _

theorem execPublicationWindowRead_legal (h : s.ModeOk) {window addr : ℕ} : Legal (execPublicationWindowRead iface window addr s) := by
  unfold execPublicationWindowRead
  repeat' split
  all_goals simp [h]

theorem execCommandCompletion_legal (h : s.ModeOk) : Legal (execCommandCompletion iface q s) := by
  unfold execCommandCompletion
  repeat' split
  all_goals simp [h]

/-! ### DEBUG (20) -/

theorem State.debugLoupe_modeOk (h : s.ModeOk) {c : Cmd} {good : Bool} {f : LoupeCluster → LoupeCluster} {t : State}
    (ht : s.debugLoupe c good f = .ok t) : t.ModeOk := by
  unfold State.debugLoupe at ht
  split at ht
  · cases ht
  · split_ifs at ht
    cases ht
    simpa using h

theorem execWpset_legal (h : s.ModeOk) : Legal (execWpset iface q s) := runDebug_legal h fun _ _ => State.debugLoupe_modeOk h

theorem execProgset_legal (h : s.ModeOk) : Legal (execProgset iface q s) := runDebug_legal h fun _ _ => State.debugLoupe_modeOk h

theorem execDrload_legal (h : s.ModeOk) : Legal (execDrload iface q s) := runDebug_legal h fun _ _ => State.debugLoupe_modeOk h

theorem execCtlset_legal (h : s.ModeOk) : Legal (execCtlset iface q s) := runDebug_legal h fun _ _ => State.debugLoupe_modeOk h

theorem execFsname_legal (h : s.ModeOk) : Legal (execFsname iface q s) := runDebug_legal h fun _ _ => State.debugLoupe_modeOk h

theorem execCsread_legal (h : s.ModeOk) : Legal (execCsread iface q s) := by
  refine runDebug_legal h fun c t ht => ?_
  split at ht
  · cases ht
  · split at ht
    · cases ht; simpa using h
    · cases ht

theorem execFsread_legal (h : s.ModeOk) : Legal (execFsread iface q s) := by
  refine runDebug_legal h fun c t ht => ?_
  split at ht
  · cases ht
  · split at ht
    · cases ht; simpa using h
    · cases ht

theorem execTransfer_legal (h : s.ModeOk) : Legal (execTransfer iface q s) := by
  refine runDebug_legal h fun c t ht => ?_
  split at ht
  · cases ht
  · split at ht
    · cases ht
    · cases ht; simpa using h.debugTransfer

theorem execRelease_legal (h : s.ModeOk) : Legal (execRelease iface q s) := by
  unfold execRelease
  split
  · exact legal_fault _
  · refine runDebug_legal h fun c t ht => ?_
    split at ht
    · cases ht
    · cases ht; simpa using h.debugRelease

theorem execPause_legal (h : s.ModeOk) : Legal (execPause iface q s) := by
  refine runDebug_legal h fun c t ht => ?_
  split at ht
  · cases ht
  · split at ht
    · cases ht
    · cases ht; simpa using h

theorem execDebugResume_legal (h : s.ModeOk) : Legal (execDebugResume iface q s) := by
  refine runDebug_legal h fun c t ht => ?_
  split at ht
  · cases ht
  · split at ht
    · split at ht
      · cases ht
      · cases ht; simpa using h
    · split at ht
      · cases ht
      · cases ht; simpa using h

theorem execArmbrk_legal (h : s.ModeOk) : Legal (execArmbrk iface q s) := by
  refine runDebug_legal h fun c t ht => ?_
  split at ht
  · cases ht
  · cases ht; simpa using h

/-! ### Registers, sessions and control -/

theorem execDoorbell_legal (h : s.ModeOk) {v : DWord} : Legal (execDoorbell iface q v s) := whenUp_legal (by simp [h])

theorem execQueueDescriptorWrite_legal (h : s.ModeOk) {v : BitVec 256} : Legal (execQueueDescriptorWrite iface q v s) :=
  whenUp_legal (by simp [h])

theorem execInterfaceGrantWrite_legal (h : s.ModeOk) {v : DWord} : Legal (execInterfaceGrantWrite iface v s) :=
  whenUp_legal (by simp [h])

theorem execVirtualInterfaceEnable_legal (h : s.ModeOk) {on : Bool} : Legal (execVirtualInterfaceEnable iface on s) :=
  whenUp_legal (by simp [h])

theorem execRegisterWrite_legal (h : s.ModeOk) {offset : ℕ} {v : DWord} : Legal (execRegisterWrite iface offset v s) := by
  refine whenUp_legal ((legal_next _).mpr ?_)
  split
  · split <;> simp [h]
  · exact h

theorem execSessionEstablish_legal (h : s.ModeOk) {req : SessionRequest} : Legal (execSessionEstablish req s) :=
  whenUp_legal (by simp [h])

theorem execHeartbeat_legal (h : s.ModeOk) {seq : DWord} : Legal (execHeartbeat iface seq s) := by
  refine whenUp_legal ((legal_next _).mpr ?_)
  split
  · exact h
  · simp [h]

theorem execIslandRegisterWrite_legal (h : s.ModeOk) {i : ℕ} {v : DWord} : Legal (execIslandRegisterWrite iface i v s) :=
  whenUp_legal (by simp [h])

theorem execMarginGo_legal (h : s.ModeOk) {v : DWord} : Legal (execMarginGo iface v s) := whenUp_legal (by simp [h])

theorem execMarginDone_legal (h : s.ModeOk) {fail : Bool} {errs : ℕ} : Legal (execMarginDone fail errs s) := by
  unfold execMarginDone
  split <;> simp [h]

theorem execMeasurements_legal (h : s.ModeOk) {nonce : BitVec 256} : Legal (execMeasurements iface nonce s) := whenUp_legal (by simp [h])

theorem execFirmwareUpdate_legal (h : s.ModeOk) {image : FirmwareImage} : Legal (execFirmwareUpdate image s) := whenUp_legal (by simp [h])

theorem execGrainWindowBoundary_legal (h : s.ModeOk) : Legal (execGrainWindowBoundary s) := by
  unfold execGrainWindowBoundary
  split <;> simp [h]

theorem execEnergyBudgetUpdate_legal (h : s.ModeOk) {core budget : ℕ} : Legal (execEnergyBudgetUpdate core budget s) := by
  simp [execEnergyBudgetUpdate, h]

theorem execSegmentArrival_legal (h : s.ModeOk) {seg : Segment} : Legal (execSegmentArrival seg s) := (legal_next _).mpr h.takeSegment

end

end Sys2Proof.Machine
end

section
/-! SUPPORT. Every instruction and every event keeps MODE values legal, and so does a step (03 R55). -/

namespace Sys2Proof.Machine

theorem execVmovx_legal {s : State} (h : s.ModeOk) {m : Bool} {d a : Field} : Legal (execVmovx m d a s) := h.indexedMove

theorem execVmovxw_legal {s : State} (h : s.ModeOk) {m : Bool} {d a : Field} : Legal (execVmovxw m d a s) := h.indexedMove

/-- An instruction or an event, performed where MODE values are legal, leaves them legal. -/
theorem exec_legal {s : State} (h : s.ModeOk) (i : Instr) : Legal (exec i s) :=
  match i with
  | .sadd .. | .ssub .. | .smul .. | .smulh .. | .smulhn .. | .sand .. | .sor .. | .sxor .. | .sandn .. | .sshl .. | .sshr ..
  | .ssra .. | .smin .. | .smax .. | .sminn .. | .smaxn .. | .spopc .. | .sclz .. | .sbrev .. | .sbfx .. | .sbfi .. | .sceq ..
  | .scne .. | .sclt .. | .scle .. | .scltn .. | .sclen .. | .smov .. | .ssel .. | .sffs .. => h.scalarOp
  | .sdiv .. | .sdivn .. | .srem .. | .sremn .. => h.scalarDiv
  | .nop .. | .bra .. | .bz .. | .bnz .. => h.withCtx fun _ hc => hc.controlDone hc.s
  | .brd .. => execBrd_legal h
  | .join m .. => execJoin_legal h (m := m)
  | .call .. | .loop .. | .getmode .. => h.withCtx fun _ hc => hc.scalarDone
  | .ret .. | .brx .. => h.jumpTo
  | .exit m .. => execExit_legal h (m := m)
  | .setmode .. => execSetmode_legal h
  | .setix .. => execSetix_legal h
  | .waitf .. => execWaitf_legal h
  | .yield .. => execYield_legal h
  | .vadd .. | .vsub .. | .vmul .. | .vmulh .. | .vmulhn .. | .vmad .. | .vand .. | .vor .. | .vxor .. | .vandn .. | .vshl ..
  | .vshr .. | .vsra .. | .vmin .. | .vmax .. | .vminn .. | .vmaxn .. | .vbfx .. | .vbfi .. | .vmov .. | .vsplat .. | .vget ..
  | .vgetst .. | .vdot4 .. | .vdot4m .. | .vdot8 .. => h.laneWord
  | .vdiv .. | .vdivn .. | .vrem .. | .vremn .. | .vabs .. | .vneg .. | .vpopc .. | .vclz .. | .vbrev .. | .vfadd ..
  | .vfsub .. | .vfmul .. | .vfma .. | .vfms .. | .vfnma .. | .vfmin .. | .vfmax .. | .vfabs .. | .vfneg .. | .vfcpsgn ..
  | .vfclass .. | .vfdiv .. | .vfsqrt .. | .vfrint .. | .vfrcp .. | .vfrsq .. | .vfexp2 .. | .vflog2 .. | .vfsinpi ..
  | .vfcospi .. | .vftanh .. | .vfdot4 .. | .vfdot8 .. | .vunp5 .. => h.laneOp
  | .vceq .. | .vcne .. | .vclt .. | .vcle .. | .vfceq .. | .vfclt .. | .vfcle .. | .vfcun .. => h.maskOp
  | .vclrst .. => h.issueOp fun _ hc => hc.guarded (hc.completeLanes hc.s)
  | .vcvtw .. | .vcvtn .. | .vcvtfi .. | .vcvtif .. => h.laneOpWith
  | .vshup .. | .vshdn .. | .vshxor .. | .vshidx .. | .vmatch .. => h.wideWord
  | .vqswap .. => execVqswap_legal h
  | .vred .. | .vscan .. | .vvote .. => h.wideOp
  | .vreadl .. => execVreadl_legal h
  | .vwritel .. => execVwritel_legal h
  | .vmovx .. => execVmovx_legal h
  | .vmovxw .. => execVmovxw_legal h
  | .bar .. | .bara .. | .barw .. | .barc .. | .barp .. => h.barrierOp
  | .ld8 .. | .ld8s .. | .ld16 .. | .ld16s .. | .ld32 .. | .ld64 .. | .ld128 .. | .ldacq32 .. => h.loadOp
  | .st8 .. | .st16 .. | .st32 .. | .st64 .. | .st128 .. | .strel32 .. => h.storeOp
  | .sld32 .. | .sld64 .. => h.scalarLoad
  | .sst32 .. | .sst64 .. => h.scalarStore
  | .vspill .. => execVspill_legal h
  | .vfill .. => execVfill_legal h
  | .aadd .. | .aand .. | .aor .. | .axor .. | .amin .. | .amax .. | .aminn .. | .amaxn .. | .aexch .. | .acas .. | .afadd ..
  | .afmin .. | .afmax .. => h.atomicOp
  | .redadd .. | .redand .. | .redor .. | .redxor .. | .redmin .. | .redmax .. | .redfadd .. => h.redOp
  | .fence .. => execFence_legal h
  | .publish m .. => execPublish_legal h (m := m)
  | .ecw .. => execEcw_legal h
  | .ego .. => execEgo_legal h
  | .bclose .. => execBclose_legal h
  | .waitb .. => execWaitb_legal h
  | .bpoll .. => execBpoll_legal h
  | .mloadb .. | .mdrain .. => h.withCtx fun _ hc => hc.engineIssue
  | .mma .. => execMma_legal h
  | .mzero .. => execMzero_legal h
  | .spinit .. => execSpinit_legal h
  | .unite .. => execUnite_legal h
  | .find .. | .csize .. => h.spliceRead
  | .relab .. => h.withCtx fun _ hc => hc.relabIssue
  | .snap .. => h.withCtx fun _ hc => hc.sendSplice
  | .undo .. => h.withCtx fun _ hc => hc.sound hc.sendSplice
  | .trap .. => h.withCtx fun _ hc => hc.guarded (hc.completeLanes hc.s)
  | .resume m .. => execResume_legal h (m := m)
  | .loupe .. => execLoupe_legal h
  | .prgn .. => execPrgn_legal h
  | .prgx .. => execPrgx_legal h
  | .sget .. => h.issueOp fun _ hc => hc.sound hc.s.complete
  | .sset .. => execSset_legal h
  | .dbgbrk .. => execDbgbrk_legal h
  | .selftest m .. => execSelftest_legal h (m := m)
  | .framend .. => execFramend_legal h
  | .writeLanding .. => execWriteLanding_legal h
  | .pathStarvation .. => execPathStarvation_legal h
  | .fenceComplete .. => execFenceComplete_legal h
  | .waitfWake .. => execWaitfWake_legal h
  | .waitfTimeout .. => execWaitfTimeout_legal h
  | .yieldExpiry .. => execYieldExpiry_legal h
  | .publishComplete .. => execPublishComplete_legal h
  | .frameCommit .. => execFrameCommit_legal h
  | .batchCompletion .. => execBatchCompletion_legal h
  | .copyEngineCompletion .. => execCopyEngineCompletion_legal h
  | .mainMemoryAtomicCompletion .. => execMainMemoryAtomicCompletion_legal h
  | .stationaryLoadCompletion .. => execStationaryLoadCompletion_legal h
  | .mrtGrant .. => execMrtGrant_legal h
  | .passCompletion .. => execPassCompletion_legal h
  | .filterEntryRead .. => execFilterEntryRead_legal h
  | .filterSliceArrival .. => execFilterSliceArrival_legal h
  | .stripOperationCompletion .. => execStripOperationCompletion_legal h
  | .bankPeriodicCheck .. => execBankPeriodicCheck_legal h
  | .spliceApply .. => execSpliceApply_legal h
  | .spinitInitCompletion .. => execSpinitInitCompletion_legal h
  | .relabCompletion .. => execRelabCompletion_legal h
  | .collectiveStepCompletion .. => execCollectiveStepCompletion_legal h
  | .segmentArrival .. => execSegmentArrival_legal h
  | .segmentDiscard .. => execSegmentDiscard_legal h
  | .collectiveTimeout .. => execCollectiveTimeout_legal h
  | .flitArrival .. => execFlitArrival_legal h
  | .diePortMessage .. => execDiePortMessage_legal h
  | .transferComplete .. => execTransferComplete_legal h
  | .stallWatchdog .. => execStallWatchdog_legal h
  | .predicateStart .. => execPredicateStart_legal h
  | .predicateReturn .. => execPredicateReturn_legal h
  | .predicateOverrun .. => execPredicateOverrun_legal h
  | .logDoorbell .. => execLogDoorbell_legal h
  | .preemption .. => execPreemption_legal h
  | .drainLimitExpiry .. => execDrainLimitExpiry_legal h
  | .saveComplete .. => execSaveComplete_legal h
  | .restore .. => execRestore_legal h
  | .negativeComplete .. => execNegativeComplete_legal h
  | .fatalDieError .. => execFatalDieError_legal h
  | .dieRecoveryComplete .. => execDieRecoveryComplete_legal h
  | .worldLatch .. => execWorldLatch_legal h
  | .sessionEstablish .. => execSessionEstablish_legal h
  | .heartbeat .. => execHeartbeat_legal h
  | .heartbeatDeadline .. => execHeartbeatDeadline_legal h
  | .grainWindowBoundary => execGrainWindowBoundary_legal h
  | .energyBudgetUpdate .. => execEnergyBudgetUpdate_legal h
  | .priorityAging .. => execPriorityAging_legal h
  | .launchQueueExit => execLaunchQueueExit_legal h
  | .dependenceResolution .. => execDependenceResolution_legal h
  | .launchDispatch .. => execLaunchDispatch_legal h
  | .blockPlacement .. => execBlockPlacement_legal h
  | .blockRelease .. => execBlockRelease_legal h
  | .doorbell .. => execDoorbell_legal h
  | .queueDescriptorWrite .. => execQueueDescriptorWrite_legal h
  | .interfaceGrantWrite .. => execInterfaceGrantWrite_legal h
  | .islandRegisterWrite .. => execIslandRegisterWrite_legal h
  | .marginGo .. => execMarginGo_legal h
  | .marginDone .. => execMarginDone_legal h
  | .registerWrite .. => execRegisterWrite_legal h
  | .copy .. => execCopy_legal h
  | .signal .. => execSignal_legal h
  | .wait .. => execWait_legal h
  | .waitSatisfied .. => execWaitSatisfied_legal h
  | .waitCommandTimeout .. => execWaitCommandTimeout_legal h
  | .puback .. => execPuback_legal h
  | .summary .. => execSummary_legal h
  | .inval .. => execInval_legal h
  | .invalidationComplete .. => execInvalidationComplete_legal h
  | .window .. => execWindow_legal h
  | .group .. => execGroup_legal h
  | .counters .. => execCounters_legal h
  | .wpset .. => execWpset_legal h
  | .progset .. => execProgset_legal h
  | .drload .. => execDrload_legal h
  | .ctlset .. => execCtlset_legal h
  | .transfer .. => execTransfer_legal h
  | .release .. => execRelease_legal h
  | .pause .. => execPause_legal h
  | .debugResume .. => execDebugResume_legal h
  | .armbrk .. => execArmbrk_legal h
  | .csread .. => execCsread_legal h
  | .fsread .. => execFsread_legal h
  | .fsname .. => execFsname_legal h
  | .commandCompletion .. => execCommandCompletion_legal h
  | .selftestDone .. => execSelftestDone_legal h
  | .measurements .. => execMeasurements_legal h
  | .firmwareUpdate .. => execFirmwareUpdate_legal h
  | .powerOn .. => execPowerOn_legal
  | .packageReset .. => execPackageReset_legal
  | .modulePowerRemoval => execModulePowerRemoval_legal
  | .predicateException .. => execPredicateException_legal h
  | .virtualInterfaceEnable .. => execVirtualInterfaceEnable_legal h
  | .publicationWindowRead .. => execPublicationWindowRead_legal h

end Sys2Proof.Machine
end

section
/-! SUPPORT. Every step of the device keeps MODE values legal (03 R55): an issue, a listed event, and what the device does by
itself. -/

namespace Sys2Proof.Machine

section
variable {s : State}

/-! ### Acts -/

theorem afterAct_legal {o : Host.Outcome State Fault Refusal} (h : Legal o) : Legal (afterAct o) := by
  cases o with
  | next s => exact (legal_next _).mpr ((legal_next s).mp h).runLate.runCollective
  | fault f => exact legal_fault f
  | refused r => exact legal_refused r

theorem State.ModeOk.issue (h : s.ModeOk) {who : Issuer} {late : List Issuer} : Legal (s.issue who late) := by
  unfold State.issue
  extract_lets s1
  have h1 : s1.ModeOk := (State.issuing_modeOk s who late).mpr h
  split
  · exact (legal_next _).mpr h1
  · rename_i c hc
    split
    · exact exec_legal h1 _
    · exact (legal_next _).mpr (h1.ctx hc).issueFault
    · exact (legal_next _).mpr (h1.ctx hc).issueFault

theorem State.ModeOk.actIssue (h : s.ModeOk) {who : Issuer} {late : List Issuer} : Legal (s.actIssue who late) := by
  unfold State.actIssue
  split
  · exact afterAct_legal h.issue
  · exact (legal_next s).mpr h

/-- What an event does to a device with legal MODE values leaves them legal. -/
def Keeps (f : Happening) : Prop := ∀ s : State, s.ModeOk → Legal (f s)

theorem Keeps.happen {f : Happening} (hf : Keeps f) (h : s.ModeOk) : Legal (s.happen f) := by
  have h1 : Legal (afterAct (f { s with issuer := none })) := afterAct_legal (hf _ (by simpa using h))
  unfold State.happen
  split
  · rename_i t ht
    rw [ht, legal_next] at h1
    simpa using h1
  · exact h1

theorem exec_keeps (i : Instr) : Keeps (exec i) := fun _ h => exec_legal h i

theorem State.ModeOk.act (h : s.ModeOk) (e : Slated) : Legal (s.act e) := by
  have h1 : (s.pass e.clocks).ModeOk := (State.pass_modeOk s e.clocks).mpr h
  have h2 : (s.pass e.clocks).windowed.ModeOk := (State.windowed_modeOk _).mpr h1
  unfold State.act
  split
  · exact h2.actIssue
  · exact (exec_keeps _).happen h1
  · exact (exec_keeps _).happen h2

end

/-! ### What can happen of itself -/

theorem pathEvents_keep (s : State) (r : WarpRef) (slot : Bool) (p : Path) : ∀ f ∈ s.pathEvents r slot p, Keeps f := by
  simp only [State.pathEvents, List.forall_mem_cons]
  exact ⟨fun _ h => execWriteLanding_legal h, fun _ h => execPathStarvation_legal h, fun _ h => execFenceComplete_legal h,
    fun _ h => execWaitfWake_legal h, fun _ h => execWaitfTimeout_legal h, fun _ h => execYieldExpiry_legal h,
    fun _ h => execPublishComplete_legal h, nofun⟩

theorem warpEvents_keep (s : State) : ∀ f ∈ s.warpEvents, Keeps f := by
  simp only [State.warpEvents, List.forall_mem_flatten, List.forall_mem_map, List.forall_mem_append, List.forall_mem_cons]
  exact fun w _ => ⟨fun x _ => pathEvents_keep s w.ref x.1 x.2, fun _ h => execBatchCompletion_legal h,
    fun _ h => execTransferComplete_legal h, fun _ h => execStallWatchdog_legal h, nofun⟩

theorem opEvents_keep (o : EngineOp) : ∀ f ∈ opEvents o, Keeps f := by
  simp only [opEvents, List.forall_mem_cons]
  exact ⟨fun _ h => execCopyEngineCompletion_legal h, fun _ h => execMainMemoryAtomicCompletion_legal h,
    fun _ h => execStationaryLoadCompletion_legal h, fun _ h => execFilterEntryRead_legal h,
    fun _ h => execStripOperationCompletion_legal h, fun _ h => execSpinitInitCompletion_legal h,
    fun _ h => execRelabCompletion_legal h, fun _ h => execCollectiveStepCompletion_legal h,
    fun _ h => execCollectiveTimeout_legal h, nofun⟩

theorem engineEvents_keep (s : State) : ∀ f ∈ s.engineEvents, Keeps f := by
  simp only [State.engineEvents, List.forall_mem_flatten, List.forall_mem_map, List.forall_mem_append, List.forall_mem_cons]
  exact ⟨⟨fun o _ => opEvents_keep o, fun _ _ _ h => execSpliceApply_legal h⟩,
    fun _ _ => ⟨⟨⟨fun _ h => execMrtGrant_legal h, nofun⟩, fun _ _ _ h => execPassCompletion_legal h⟩,
      fun _ _ _ _ _ h => execFilterSliceArrival_legal h⟩⟩

theorem darkroomEvents_keep (die : ℕ) (s : State) : ∀ f ∈ darkroomEvents die s, Keeps f := by
  simp only [darkroomEvents, List.forall_mem_cons]
  exact ⟨fun _ h => execPredicateReturn_legal h, fun _ h => execPredicateOverrun_legal h,
    fun _ h => execPredicateException_legal h, fun _ h => execLogDoorbell_legal h, nofun⟩

theorem dieEvents_keep (s : State) : ∀ f ∈ s.dieEvents, Keeps f := by
  simp only [State.dieEvents, List.forall_mem_flatten, List.forall_mem_map, List.forall_mem_append, List.forall_mem_cons]
  refine ⟨⟨fun d _ => ⟨⟨fun _ h => execPredicateStart_legal h, fun _ h => execDieRecoveryComplete_legal h, nofun⟩, ?_⟩,
    fun _ _ => ⟨fun _ h => execDependenceResolution_legal h, fun _ h => execLaunchDispatch_legal h,
      fun _ h => execNegativeComplete_legal h, nofun⟩⟩,
    fun _ _ => ⟨fun _ h => execFrameCommit_legal h, fun _ h => execBlockRelease_legal h,
      fun _ h => execDrainLimitExpiry_legal h, fun _ h => execSaveComplete_legal h, nofun⟩⟩
  split
  · exact darkroomEvents_keep d.1 s
  · nofun

theorem queueEvents_keep (i q n : ℕ) : ∀ f ∈ queueEvents i q n, Keeps f := by
  simp only [queueEvents, List.forall_mem_cons]
  exact ⟨fun _ h => execCopy_legal h, fun _ h => execSignal_legal h, fun _ h => execWait_legal h,
    fun _ h => execWaitSatisfied_legal h, fun _ h => execWaitCommandTimeout_legal h, fun _ h => execPuback_legal h,
    fun _ h => execSummary_legal h, fun _ h => execInval_legal h, fun _ h => execInvalidationComplete_legal h,
    fun _ h => execWindow_legal h, fun _ h => execGroup_legal h, fun _ h => execCounters_legal h, fun _ h => execWpset_legal h,
    fun _ h => execProgset_legal h, fun _ h => execDrload_legal h, fun _ h => execCtlset_legal h,
    fun _ h => execTransfer_legal h, fun _ h => execRelease_legal h, fun _ h => execPause_legal h,
    fun _ h => execDebugResume_legal h, fun _ h => execArmbrk_legal h, fun _ h => execCsread_legal h,
    fun _ h => execFsread_legal h, fun _ h => execFsname_legal h, fun _ h => execCommandCompletion_legal h,
    fun _ h => execPriorityAging_legal h, nofun⟩

theorem controlEvents_keep (s : State) : ∀ f ∈ s.controlEvents, Keeps f := by
  simp only [State.controlEvents, List.forall_mem_flatten, List.forall_mem_map, List.forall_mem_append, List.forall_mem_cons]
  exact ⟨⟨⟨⟨fun _ h => execLaunchQueueExit_legal h, nofun⟩, fun _ _ _ h => execHeartbeatDeadline_legal h⟩,
    fun q _ => queueEvents_keep q.1 q.2 _⟩, fun _ _ _ h => execSegmentDiscard_legal h⟩

/-! ### The step -/

section
variable {s : State}

theorem State.ModeOk.ready (h : s.ModeOk) {t : State} (ht : t ∈ s.ready) : t.ModeOk := by
  simp only [State.ready, List.mem_filterMap, List.mem_append] at ht
  obtain ⟨f, hf, he⟩ := ht
  have hk : Keeps f := by
    obtain ((hf | hf) | hf) | hf := hf
    · exact warpEvents_keep s f hf
    · exact engineEvents_keep s f hf
    · exact dieEvents_keep s f hf
    · exact controlEvents_keep s f hf
  have hl : Legal (s.happen f) := hk.happen h
  split at he
  · rename_i u hu
    rw [hu, legal_next] at hl
    exact Option.some.inj he ▸ hl
  · cases he

theorem State.ModeOk.idleIssue (h : s.ModeOk) {who : Issuer} : Legal (s.idleIssue who) := by
  have h1 : Legal (s.actIssue who s.freeLate) := h.actIssue
  unfold State.idleIssue
  split
  · rename_i t ht
    rw [ht, legal_next] at h1
    simpa using h1
  · exact h1

theorem State.ModeOk.idle (h : s.ModeOk) : Legal s.idle := by
  unfold State.idle
  extract_lets t es
  have ht : t.ModeOk := (State.pass_modeOk s _).mpr h
  have hes : ∀ {k : ℕ} {u : State}, es[k]? = some u → Legal (.next u) := fun hu =>
    (legal_next _).mpr (ht.ready (List.mem_of_getElem? hu))
  split
  · exact Keeps.happen (fun _ h => execGrainWindowBoundary_legal h) ht
  · split
    · simpa using ht
    · exact ht.idleIssue
    · rename_i hu; exact hes hu
    · rename_i hu
      split
      · exact ht.idleIssue
      · exact hes hu

/-- A step keeps every MODE value legal. -/
theorem State.ModeOk.step (h : s.ModeOk) : Legal (step s) := by
  unfold Machine.step State.stepOnce
  split
  · exact h.idle
  · exact State.ModeOk.act (by simpa using h) _

end

end Sys2Proof.Machine

namespace Sys2Proof

/-- Settles O4. Each instruction and each event leaves the MODE values of the paths, pending entries and groups of running,
frozen and saved warps as they are, drops them, copies one, or writes one that it has checked (`Machine.exec_legal`); a step
performs such instructions and events. -/
theorem modeStaysLegal : Obligations.ModeStaysLegal := by
  unfold Obligations.ModeStaysLegal
  exact fun s t h hst => Machine.State.ModeOk.step h t hst

end Sys2Proof
end

section
/-! SUPPORT. A step that takes the head of the agenda: a path issues what the bytes at its PC decode to, or an event happens
(04 R62, notes/assumptions/1.md). -/

namespace Sys2Proof.Machine

/-- What a path issues whose bytes are an instruction. -/
theorem State.issue_instr {s : State} {who : Issuer} {late : List Issuer} {c : Ctx} {i : Instr} {len : Nat}
    (h : (s.issuing who late).ctx? = some c) (hd : decode (((s.imageOf c.l).drop c.p.pc.toNat).take 8) = .instr i len) :
    s.issue who late = exec i (s.issuing who late) := by
  simp [State.issue, h, State.decodeAt, hd]

/-- What a path issues whose bytes have a reserved field set. -/
theorem State.issue_reservedField {s : State} {who : Issuer} {late : List Issuer} {c : Ctx} {len : Nat}
    (h : (s.issuing who late).ctx? = some c) (hd : decode (((s.imageOf c.l).drop c.p.pc.toNat).take 8) = .reservedField len) :
    s.issue who late = .next (c.issueFault .reservedField len) := by
  simp [State.issue, h, State.decodeAt, hd]

theorem State.actIssue_of_not_mayIssue {s : State} {who : Issuer} {late : List Issuer} (h : s.mayIssue who late = false) :
    s.actIssue who late = .next s := by simp [State.actIssue, h]

theorem State.actIssue_of_mayIssue {s : State} {who : Issuer} {late : List Issuer} (h : s.mayIssue who late = true) :
    s.actIssue who late = afterAct (s.issue who late) := by simp [State.actIssue, h]

/-- A listed event happens behind the clocks of its entry; one that is not the closing of a grain window itself finds a window
that has ended closed (24 R347). -/
theorem State.act_event (s : State) (n : Nat) (i : Instr) :
    s.act ⟨n, .event i⟩ = (if i = .grainWindowBoundary then s.pass n else (s.pass n).windowed).happen (exec i) := by
  by_cases hi : i = .grainWindowBoundary
  · rw [if_pos hi, hi]; rfl
  · rw [if_neg hi]
    unfold State.act
    split
    · rename_i h; cases h
    · rename_i h; cases h; exact absurd rfl hi
    · rename_i h; cases h; rfl

/-- The head of the agenda is what a step takes. -/
theorem step_of_agenda {s : State} {e : Slated} {r : List Slated} (h : s.agenda = e :: r) :
    step s = ({ s with agenda := r } : State).act e := by
  simp [step, State.stepOnce, h]

end Sys2Proof.Machine

namespace Sys2Proof

open Machine

/-- Settles O10: the step takes the head of the agenda, and each answer of the decoder has its own lemma about the issue. -/
theorem stepRunsTheDecodedInstruction : Obligations.StepRunsTheDecodedInstruction := by
  unfold Obligations.StepRunsTheDecodedInstruction
  intro s n r
  refine ⟨fun who late ha => ?_, fun i ha => ?_⟩
  · have hstep : step s = ((({ s with agenda := r } : State).pass n).windowed).actIssue who late := step_of_agenda ha
    intro s0
    refine ⟨fun hm => hstep.trans (State.actIssue_of_not_mayIssue hm), fun hm c hc => ?_⟩
    rw [State.actIssue_of_mayIssue hm] at hstep
    exact ⟨fun i len hd => hstep.trans (congrArg afterAct (State.issue_instr hc hd)),
      fun len hd => hstep.trans (congrArg afterAct (State.issue_illegalOpcode hc hd)),
      fun len hd => hstep.trans (congrArg afterAct (State.issue_reservedField hc hd))⟩
  · exact (step_of_agenda ha).trans (State.act_event _ n i)

end Sys2Proof
end

section
/-! SUPPORT. A write lands (04 R64, R65, R67): which writes land together, what their landing leaves of the warp, and that nothing
else moves. -/

namespace Sys2Proof.Machine

/-! ### The writes that land together -/

/-- A result and the writes behind it are the list. -/
theorem resultFrom_append (a : PendingWrite) (r : List PendingWrite) : (resultFrom a r).1 ++ (resultFrom a r).2 = a :: r := by
  induction r generalizing a with
  | nil => rfl
  | cons b r ih =>
    unfold resultFrom
    split
    · exact congrArg (a :: ·) (ih b)
    · rfl

theorem resultFrom_ne_nil (a : PendingWrite) (r : List PendingWrite) : (resultFrom a r).1 ≠ [] := by
  cases r with
  | nil => simp [resultFrom]
  | cons b r => unfold resultFrom; split <;> simp

/-- Taking one of some writes out leaves the others. -/
theorem getElem?_append_eraseIdx_perm {α : Type} (l : List α) (k : Nat) : (l[k]?.toList ++ l.eraseIdx k).Perm l := by
  by_cases h : k < l.length
  · simpa [h] using List.getElem_cons_eraseIdx_perm h
  · simp [Nat.not_lt.mp h, List.eraseIdx_of_length_le]

/-- No write is lost: each lands or is left. -/
theorem landingOf_perm (n k : Nat) (ws : List PendingWrite) : ((landingOf n k ws).1 ++ (landingOf n k ws).2).Perm ws := by
  induction n generalizing k ws with
  | zero => exact .refl ws
  | succ n ih =>
    cases ws with
    | nil => exact .refl []
    | cons a r =>
      unfold landingOf
      extract_lets x y
      have hx : x.1 ++ x.2 = a :: r := resultFrom_append a r
      split_ifs
      · rw [hx]
      · rw [← hx, ← List.append_assoc]
        exact (getElem?_append_eraseIdx_perm x.1 k).append_right x.2
      · rw [← hx]
        calc y.1 ++ (x.1 ++ y.2)
          _ = (y.1 ++ x.1) ++ y.2 := (List.append_assoc ..).symm
          List.Perm _ ((x.1 ++ y.1) ++ y.2) := List.perm_append_comm.append_right y.2
          _ = x.1 ++ (y.1 ++ y.2) := List.append_assoc ..
          List.Perm _ (x.1 ++ x.2) := (ih _ x.2).append_left x.1

/-- The named write lands, alone or with status bits that belong to its result. -/
theorem landingOf_named {n k : Nat} {ws : List PendingWrite} {x : PendingWrite} (hn : ws.length ≤ n) (hk : ws[k]? = some x) :
    (landingOf n k ws).1 = [x] ∨ x ∈ (landingOf n k ws).1 ∧ ∃ y ∈ (landingOf n k ws).1, y.target.isReg = false := by
  induction n generalizing k ws with
  | zero => simp [List.length_eq_zero_iff.mp (Nat.le_zero.mp hn)] at hk
  | succ n ih =>
    cases ws with
    | nil => simp at hk
    | cons a r =>
      unfold landingOf
      extract_lets z y
      have hz : z.1 ++ z.2 = a :: r := resultFrom_append a r
      rw [← hz] at hk hn
      split_ifs with hlt hst
      · rw [List.getElem?_append_left hlt] at hk
        exact .inr ⟨List.mem_of_getElem? hk, by simpa using hst⟩
      · rw [List.getElem?_append_left hlt] at hk
        exact .inl (by simp [hk])
      · rw [List.getElem?_append_right (Nat.le_of_not_lt hlt)] at hk
        have hpos : 0 < z.1.length := List.length_pos_iff.mpr (resultFrom_ne_nil a r)
        rw [List.length_append] at hn
        exact ih (by omega) hk

/-! ### The warp after a landing -/

@[simp] theorem Warp.commit_ref (w : Warp) (t : WTarget) (x : Word) : (w.commit t x).ref = w.ref := by cases t <;> rfl
@[simp] theorem Warp.commit_loupe (w : Warp) (t : WTarget) (x : Word) : (w.commit t x).loupe = w.loupe := by cases t <;> rfl

@[simp] theorem Warp.commitAll_ref (w : Warp) (ws : List (WTarget × Word)) : (w.commitAll ws).ref = w.ref := by
  induction ws generalizing w with
  | nil => rfl
  | cons x r ih => exact (ih _).trans (w.commit_ref x.1 x.2)

@[simp] theorem Warp.commitAll_loupe (w : Warp) (ws : List (WTarget × Word)) : (w.commitAll ws).loupe = w.loupe := by
  induction ws generalizing w with
  | nil => rfl
  | cons x r ih => exact (ih _).trans (w.commit_loupe x.1 x.2)

/-- The path of a landing, when landed and rest are the writes that land and those left. -/
def Path.landed (p : Path) (rest : List PendingWrite) : Path :=
  { p with writes := rest, park := if rest = [] ∧ p.pending = [] ∧ p.park = .marker then .none else p.park }

/-- A landing commits the writes and changes the one path. -/
theorem Warp.landOne_eq {w : Warp} {slot : Bool} {p : Path} (hp : w.path? slot = some p) (k : Nat) :
    w.landOne slot k = (w.commitAll ((landingOf p.writes.length k p.writes).1.map fun y => (y.target, y.value))).setPath slot
      (some (p.landed (landingOf p.writes.length k p.writes).2)) := by
  simp only [Warp.landOne, hp]
  rfl

/-- The register, or the lane's status word, that one write changes. -/
theorem Warp.commit_target (w : Warp) (t : WTarget) (x : Word) :
    match t with
    | .v n l => (w.commit t x).vregs = put0 w.vregs (32 * n + l) x ∧ (w.commit t x).sregs = w.sregs ∧ (w.commit t x).status = w.status
    | .s n => (w.commit t x).sregs = put0 w.sregs n x ∧ (w.commit t x).vregs = w.vregs ∧ (w.commit t x).status = w.status
    | .stSet l => (w.commit t x).status = put0 w.status l (get0 w.status l ||| (x &&& 63)) ∧
        (w.commit t x).vregs = w.vregs ∧ (w.commit t x).sregs = w.sregs
    | .stClr l => (w.commit t x).status = put0 w.status l (stickyClr (get0 w.status l) x) ∧
        (w.commit t x).vregs = w.vregs ∧ (w.commit t x).sregs = w.sregs := by
  cases t <;> exact ⟨rfl, rfl, rfl⟩

/-! ### The state after a landing -/

/-- Landed registers are recorded in the film strip, on a loupe core only. -/
theorem Moves.film {s : State} {r : WarpRef} {w : Warp} (h : s.warp? r = some w) (ks : List Landed) :
    Moves s (s.film w ks) r w w := by
  unfold State.film
  cases hl : w.onLoupe? with
  | none => exact Moves.refl h
  | some x =>
    simp only
    split
    · exact Moves.refl h
    · refine Moves.updSheet h _ _ (fun y => ?_) (by simp [hl])
      split <;> rfl

@[simp] theorem State.film_free (s : State) (w : Warp) (ks : List Landed) : (s.film w ks).free = s.free := by
  unfold State.film
  split
  · rfl
  · split <;> rfl

/-- A landing moves the warp, and nothing else. -/
theorem Moves.landOne {s : State} {r : WarpRef} {w : Warp} {slot : Bool} {p : Path} (h : s.warp? r = some w)
    (hp : w.path? slot = some p) (k : Nat) : Moves s (s.landOne r slot k) r w (w.landOne slot k) := by
  have hset : Moves s (s.setWarp (w.landOne slot k)) r w (w.landOne slot k) :=
    Moves.setWarp h (by simpa [Warp.landOne_eq hp] using State.warp?_ref h)
      (by simp [Warp.landOne_eq hp, Warp.onLoupe?])
  simp only [State.landOne, h, hp]
  exact hset.trans (Moves.film hset.after _)

@[simp] theorem State.landOne_free (s : State) (r : WarpRef) (slot : Bool) (k : Nat) : (s.landOne r slot k).free = s.free := by
  unfold State.landOne
  split
  · rfl
  · split
    · rfl
    · simp

/-- Where no free value is used, all but warps and dies is as before. -/
theorem OnlyWarp.rest_of_free {s t : State} {r : WarpRef} (h : OnlyWarp s t r) (hf : t.free = s.free) :
    t = { s with x := { s.x with warps := t.x.warps, dies := t.x.dies } } := by
  conv_lhs => rw [h.rest, hf]

theorem State.path?_eq {s : State} {r : WarpRef} {w : Warp} (h : s.warp? r = some w) (slot : Bool) : s.path? r slot = w.path? slot := by
  simp [State.path?, h]

/-- A path that is there is a path of a warp that is there. -/
theorem State.warp_of_path? {s : State} {r : WarpRef} {slot : Bool} {p : Path} (h : s.path? r slot = some p) :
    ∃ w, s.warp? r = some w ∧ w.path? slot = some p := by
  unfold State.path? at h
  split at h
  · exact ⟨_, ‹_›, h⟩
  · cases h

end Sys2Proof.Machine

namespace Sys2Proof

open Machine

/-- An outstanding write of a warp that no watchpoint event holds may land. -/
theorem execWriteLanding_next {s : State} {r : WarpRef} {slot : Bool} {w : Warp} {p : Path} {k : Nat} {x : PendingWrite}
    (hw : s.warp? r = some w) (hp : w.path? slot = some p) (hk : p.writes[k]? = some x) (hh : w.heldAt = false) :
    exec (.writeLanding r slot k) s = .next (s.landOne r slot k) := by
  have hlt : k < p.writes.length := (List.getElem?_eq_some_iff.mp hk).1
  show execWriteLanding r slot k s = _
  simp [execWriteLanding, hw, State.path?_eq hw, hp, hlt, hh]

/-- Settles O44: the writes that land are `landingOf`, the warp goes on by `Warp.landOne_eq`, and nothing else moves
(`Moves.landOne`); starvation changes one flag of the path. -/
theorem writeLandingAndStarvation : Obligations.WriteLandingAndStarvation := by
  unfold Obligations.WriteLandingAndStarvation
  refine ⟨fun s r slot w p k x hw hp hk hh => ?_, fun s r slot p hp hs hn => ?_⟩
  · have hm := Moves.landOne hw hp k
    have hnamed := landingOf_named (le_refl p.writes.length) hk
    have hu := Warp.landOne_eq hp k
    refine ⟨_, execWriteLanding_next hw hp hk hh, hm.only.rest_of_free (s.landOne_free r slot k), hm.only.others, hm.quiet,
      w.landOne slot k, _, _, landingOf_perm _ k p.writes, ?_, hnamed.imp_right And.right, hm.after, ?_, ?_, ?_, fun hone => ?_⟩
    · obtain h | h := hnamed
      · simp [h]
      · exact h.1
    · rw [hu, Warp.path?_setPath]; rfl
    · rw [hu, Warp.path?_setPath_not, Warp.path?_commitAll]
    · rw [hu]; cases slot <;> rfl
    · have hc := w.commit_target x.target x.value
      rw [hu, hone]
      simp only [List.map_cons, List.map_nil, Warp.commitAll, Warp.setPath_vregs, Warp.setPath_sregs, Warp.setPath_status]
      exact hc
  · obtain ⟨w, hw, hp⟩ := State.warp_of_path? hp
    have hm := Moves.updPath hw hp fun p => { p with starved := true }
    refine ⟨_, ?_, hm.only, (State.path?_eq hm.after slot).trans (Warp.path?_setPath ..)⟩
    show execPathStarvation r slot s = _
    simp [execPathStarvation, State.path?_eq hw, hp, Config.starveClocks, hs, hn]

end Sys2Proof
end

section
/-! SUPPORT. What a read of main memory (09 R168 to R170, 24 R351) moves: the ports of the dies, the walkers' caches and the event
log, and no world of a die. -/

namespace Sys2Proof.Machine

/-- From s to t nothing has changed but the ports and caches of dies, the walkers' caches and the event log. -/
structure OnlyReads (s t : State) : Prop where
  rest : t = { s with x := { s.x with dies := t.x.dies }, ctl := { s.ctl with walkers := t.ctl.walkers, log := t.ctl.log } }
  worlds : ∀ d, (t.die d).world = (s.die d).world

theorem State.die_updDie (s : State) (d e : Nat) (f : Die → Die) : (s.updDie d f).die e = if e = d then f (s.die d) else s.die e := by
  by_cases h : e = d
  · subst h; simp [State.updDie, State.die, tget_tput_same]
  · simp [State.updDie, State.die, tget_tput_ne _ _ _ _ h, h]

/-! ### What the walkers do -/

/-- The entries that a walk reads and that the walkers have not kept. -/
def State.walkNew (s : State) (i : Mmu) (world va : Nat) : List WalkerEntry :=
  (s.walkReads i world va).filter fun e => !s.ctl.walkers.contains e

/-- The walkers' request to the die that holds an entry's table. -/
def State.request (i : Mmu) (world : Nat) (s : State) (e : WalkerEntry) : State :=
  if s.ownerOf (s.physOf i e.table) < 8 then s.notify (s.ownerOf (s.physOf i e.table)) world (s.physOf i e.table) else s

/-- After a walk the walkers have sent their requests, and keep some of the entries that they have read anew. -/
theorem State.afterWalk_eq (s : State) (i : Mmu) (world va : Nat) : ∃ kept ⊆ s.walkNew i world va,
    s.afterWalk i world va =
      ((s.walkNew i world va).foldl (State.request i world) s).updCtl fun c => { c with walkers := c.walkers ++ kept } := by
  rw [State.afterWalk]
  exact ⟨_, List.filter_sublist.subset, rfl⟩

/-- A translation by the control die is a walk; a refused request for a table is logged (24 R342). -/
theorem State.transVia_none_snd (s : State) (i : Mmu) (va : Nat) (need : Need) (world : Nat) :
    (s.transVia none i va need world).2 = s.afterWalk i world va ∨
      ∃ o, (s.transVia none i va need world).2 = (s.afterWalk i world va).logRefused i.iface none o world := by
  rw [State.transVia]
  generalize s.walk i world va = w
  generalize s.afterWalk i world va = u
  cases w with
  | refused o => exact .inr ⟨o, rfl⟩
  | leaf e big => exact .inl rfl
  | fault k => exact .inl rfl

namespace OnlyReads

theorem refl (s : State) : OnlyReads s s := ⟨rfl, fun _ => rfl⟩

theorem trans {s t u : State} (h : OnlyReads s t) (k : OnlyReads t u) : OnlyReads s u where
  rest := by rw [k.rest, h.rest]
  worlds d := (k.worlds d).trans (h.worlds d)

/-- A die changes, but not its world. -/
theorem updDie (s : State) (d : Nat) {f : Die → Die} (hf : ∀ x, (f x).world = x.world) : OnlyReads s (s.updDie d f) where
  rest := rfl
  worlds e := by
    rw [State.die_updDie]
    split
    · rename_i he; rw [hf, he]
    · rfl

theorem logEvent (s : State) (e : LogEvent) : OnlyReads s (s.logEvent e) := ⟨rfl, fun _ => rfl⟩

theorem logRefused (s : State) (i : Nat) (via : Via) (o world : Nat) : OnlyReads s (s.logRefused i via o world) := logEvent s _

theorem walkers (s : State) (f : List WalkerEntry → List WalkerEntry) :
    OnlyReads s (s.updCtl fun c => { c with walkers := f c.walkers }) := ⟨rfl, fun _ => rfl⟩

theorem stampMessage (s : State) (m : DieMessage) : OnlyReads s (s.stampMessage m) := by
  unfold State.stampMessage
  extract_lets x n reel
  split_ifs
  · exact refl s
  · exact updDie s _ fun _ => rfl
  · exact (updDie s m.dst (f := fun x => { x with stamp := n + 1, reelOff := _ }) fun _ => rfl).trans (logEvent _ _)
  · exact updDie s _ fun _ => rfl

theorem notify (s : State) (dst world addr : Nat) : OnlyReads s (s.notify dst world addr) := stampMessage s _

theorem sendStart (s : State) (dst world : Nat) (args : List Byte) : OnlyReads s (s.sendStart dst world args) := stampMessage s _

theorem foldl {α : Type} {f : State → α → State} (hf : ∀ s a, OnlyReads s (f s a)) (s : State) (l : List α) :
    OnlyReads s (l.foldl f s) := by
  induction l generalizing s with
  | nil => exact refl s
  | cons a r ih => exact (hf s a).trans (ih _)

theorem afterWalk (s : State) (i : Mmu) (world va : Nat) : OnlyReads s (s.afterWalk i world va) := by
  obtain ⟨kept, -, h⟩ := s.afterWalk_eq i world va
  rw [h]
  refine (foldl (fun s e => ?_) s _).trans (walkers _ fun ws => ws ++ kept)
  unfold State.request
  split
  · exact notify s _ _ _
  · exact refl s

theorem transVia_none (s : State) (i : Mmu) (va : Nat) (need : Need) (world : Nat) :
    OnlyReads s (s.transVia none i va need world).2 := by
  obtain h | ⟨o, h⟩ := s.transVia_none_snd i va need world <;> rw [h]
  · exact afterWalk s i world va
  · exact (afterWalk s i world va).trans (logRefused _ _ _ _ _)

theorem readPage (s : State) (via : Via) (world pa n : Nat) : OnlyReads s (s.readPage via world pa n).2 := by
  unfold State.readPage
  extract_lets me o
  split
  · exact refl s
  · split
    · exact updDie s me (f := fun x => { x with replayed := _ }) fun _ => rfl
    · exact (stampMessage s _).trans (stampMessage _ _)

theorem readPieces (s : State) (i : Mmu) (world : Nat) (ps : List (Nat × Nat)) :
    OnlyReads s (s.readPieces none i world ps).s := by
  induction ps generalizing s with
  | nil => exact refl s
  | cons x r ih =>
    have ht := transVia_none s i x.1 .rd world
    rw [State.readPieces]
    split
    · exact refl s
    · split
      · rename_i h; rw [h] at ht; exact ht
      · rename_i h
        rw [h] at ht
        split
        · exact ht.trans (logRefused _ _ _ _ _)
        · exact (ht.trans (readPage _ _ _ _ _)).trans (ih _)

theorem readVa (s : State) (i : Mmu) (world va n : Nat) : OnlyReads s (s.readVa none i world va n).s :=
  readPieces s i world _

section
variable {s t : State} (h : OnlyReads s t)
include h

theorem mem : t.mem = s.mem := by rw [h.rest]
theorem memKeys : t.memKeys = s.memKeys := by rw [h.rest]
theorem free : t.free = s.free := by rw [h.rest]
theorem warps : t.x.warps = s.x.warps := by rw [h.rest]
theorem blocks : t.x.blocks = s.x.blocks := by rw [h.rest]
theorem launches : t.x.launches = s.x.launches := by rw [h.rest]
theorem ctl : t.ctl = { s.ctl with walkers := t.ctl.walkers, log := t.ctl.log } := by rw [h.rest]
theorem nextUid : t.nextUid = s.nextUid := by rw [h.rest]
theorem launch? (uid : Nat) : t.launch? uid = s.launch? uid := by rw [h.rest]; rfl
theorem queue (i q : Nat) : t.queue i q = s.queue i q := by rw [h.rest]; rfl

end

end OnlyReads

end Sys2Proof.Machine
end

section
/-! SUPPORT. What records of faults (19 R285, 27 R377) and samples (20 R294) move: what a read moves, main memory, and what a launch
notes of them. -/

namespace Sys2Proof.Machine

/-- A launch but for what it notes of its fault records and of the dies that sample it. -/
def Launch.unnoted (l : Launch) : Launch := { l with firstKind := none, nrec := 0, sampled := [] }

/-- From s to t nothing has changed but main memory, the ports and caches of dies, the walkers' caches, the event log and what
launches note. -/
structure OnlyNotes (s t : State) : Prop where
  rest : t = { s with
    mem := t.mem, memKeys := t.memKeys
    x := { s.x with launches := t.x.launches, dies := t.x.dies }
    ctl := { s.ctl with walkers := t.ctl.walkers, log := t.ctl.log } }
  launches : t.x.launches.map Launch.unnoted = s.x.launches.map Launch.unnoted

theorem OnlyReads.notes {s t : State} (h : OnlyReads s t) : OnlyNotes s t := by
  refine ⟨?_, by rw [h.launches]⟩
  conv_lhs => rw [h.rest]
  rw [h.mem, h.memKeys, h.launches]

namespace OnlyNotes

theorem refl (s : State) : OnlyNotes s s := (OnlyReads.refl s).notes

theorem trans {s t u : State} (h : OnlyNotes s t) (k : OnlyNotes t u) : OnlyNotes s u where
  rest := by rw [k.rest, h.rest]
  launches := k.launches.trans h.launches

theorem updLaunch (s : State) (uid : Nat) {f : Launch → Launch} (hf : ∀ l, (f l).unnoted = l.unnoted) :
    OnlyNotes s (s.updLaunch uid f) where
  rest := rfl
  launches := by
    simp only [State.updLaunch, List.map_map]
    refine List.map_congr_left fun l _ => ?_
    by_cases hl : l.uid = uid <;> simp [hl, hf]

theorem updDie (s : State) (d : Nat) (f : Die → Die) : OnlyNotes s (s.updDie d f) := ⟨rfl, rfl⟩

/-! ### Writes -/

theorem memory (s : State) (m : Memory) (ks : Table Nat) : OnlyNotes s { s with mem := m, memKeys := ks } := ⟨rfl, rfl⟩

theorem writeByte (s : State) (world pa : Nat) (b : Byte) : OnlyNotes s (s.writeByte world pa b) := by
  unfold State.writeByte
  split
  · exact memory s _ _
  · exact memory s _ s.memKeys

theorem writePhys (s : State) (world pa : Nat) (bs : List Byte) : OnlyNotes s (s.writePhys world pa bs) := by
  induction bs generalizing s pa with
  | nil => exact refl s
  | cons b bs ih => exact (writeByte s world pa b).trans (ih _ _)

theorem countAccepted (s : State) (src dst : Nat) : OnlyNotes s (s.countAccepted src dst) := by
  unfold State.countAccepted
  split
  · exact updDie s _ _
  · exact refl s

theorem deliverWrite (s : State) (m : DieMessage) : OnlyNotes s (s.deliverWrite m) := by
  unfold State.deliverWrite
  split
  · exact updDie s _ _
  · exact ((OnlyReads.stampMessage s m).notes.trans (countAccepted _ _ _)).trans (writePhys _ _ _ _)

theorem writePage (s : State) (via : Via) (world : Nat) (op : Option Nat) (pa : Nat) (bs : List Byte) :
    OnlyNotes s (s.writePage via world op pa bs) := by
  unfold State.writePage
  extract_lets me o
  split
  · exact writePhys s world pa bs
  · split
    · exact updDie s _ _
    · exact deliverWrite s _

/-! ### Fault records -/

theorem writeFrames_go (s : State) (l : Launch) (va : Nat) (ps : List (Nat × Nat)) (bs : List Byte) :
    OnlyNotes s (State.writeFrames.go l s va ps bs) := by
  induction ps generalizing s bs with
  | nil => unfold State.writeFrames.go; exact refl s
  | cons p r ih =>
    unfold State.writeFrames.go
    split
    · exact refl s
    · split
      · exact (OnlyReads.logRefused s _ _ _ _).notes.trans (ih _ _)
      · exact (writePage s _ _ _ _ _).trans (ih _ _)

theorem writeFrames (s : State) (l : Launch) (va : Nat) (bs : List Byte) : OnlyNotes s (s.writeFrames l va bs) :=
  writeFrames_go s l va _ bs

theorem readFrames_go (s : State) (l : Launch) (ps : List (Nat × Nat)) : OnlyNotes s (State.readFrames.go l s ps).2 := by
  induction ps generalizing s with
  | nil => exact refl s
  | cons p r ih =>
    unfold State.readFrames.go
    split
    · exact refl s
    · split
      · exact (OnlyReads.logRefused s _ _ _ _).notes.trans (ih _)
      · exact (OnlyReads.readPage s _ _ _ _).notes.trans (ih _)

theorem recordInto (s : State) (l : Launch) (h : RecordHead) (es : List LaneEntry) : OnlyNotes s (s.recordInto l h es).1 := by
  unfold State.recordInto
  extract_lets va n
  have hr : OnlyNotes s (s.readFrames l va 16).2 := readFrames_go s l _
  split
  rename_i hdr t ht
  rw [ht] at hr
  extract_lets used
  split
  · exact ((hr.trans (writeFrames _ _ _ _)).trans (writeFrames _ _ _ _)).trans (updLaunch _ _ fun _ => rfl)
  · exact hr.trans (writeFrames _ _ _ _)

theorem toControl (s : State) (d : Nat) : OnlyNotes s (s.toControl d).2 := by
  unfold State.toControl
  split
  · exact updDie s d fun x => { x with discard := _ }
  · exact countAccepted s _ _

theorem recordFrom (s : State) (d : Nat) (l : Launch) (h : RecordHead) (es : List LaneEntry) :
    OnlyNotes s (s.recordFrom d l h es).1 := by
  have hc := toControl s d
  unfold State.recordFrom
  split
  · rename_i t ht
    rw [ht] at hc
    have hi := recordInto t l h es
    split
    rename_i u k hu
    rw [hu] at hi
    exact (hc.trans hi).trans (OnlyReads.stampMessage u _).notes
  · rename_i t ht
    rw [ht] at hc
    split
    · exact hc.trans (updDie t d fun x => { x with replayed := _ })
    · exact hc

theorem faultRecord (s : State) (uid : Nat) (h : RecordHead) (es : List LaneEntry) : OnlyNotes s (s.faultRecord uid h es).1 := by
  unfold State.faultRecord
  split
  · exact refl s
  · rename_i l _
    extract_lets t
    have ht : OnlyNotes s t := updLaunch s uid fun _ => rfl
    split
    · exact ht
    · split
      · exact ht.trans (recordFrom t _ l h es)
      · exact ht.trans (recordInto t l h es)

theorem dispatcherRecord (s : State) (uid : Nat) (k : FaultKind) (block : Nat) : OnlyNotes s (s.dispatcherRecord uid k block) :=
  faultRecord s uid _ _

/-! ### Samples -/

theorem sampleLaunch (s : State) (uid code : Nat) (ds : List Nat) : OnlyNotes s (s.sampleLaunch uid code ds) := by
  induction ds generalizing s with
  | nil => exact refl s
  | cons d ds ih =>
    unfold State.sampleLaunch
    extract_lets x s1
    have h1 : OnlyNotes s s1 := by
      simp only [s1]
      split_ifs
      · exact refl s
      · exact (updDie s d _).trans (updLaunch _ uid fun _ => rfl)
      · exact updDie s d _
    exact h1.trans (ih s1)

theorem noteHostless (s : State) (l : Launch) : OnlyNotes s (s.noteHostless l) := by
  unfold State.noteHostless
  split
  · exact (OnlyReads.logEvent s _).notes
  · exact refl s

/-! ### What is as before -/

section
variable {s t : State} (h : OnlyNotes s t)
include h

theorem code : t.x.code = s.x.code := by rw [h.rest]
theorem nextUid : t.nextUid = s.nextUid := by rw [h.rest]

/-- The launch of a number is the same but for what it notes. -/
theorem launch? (uid : Nat) : (t.launch? uid).map Launch.unnoted = (s.launch? uid).map Launch.unnoted := by
  have key (u : State) : (u.launch? uid).map Launch.unnoted = findBy Launch.uid uid (u.x.launches.map Launch.unnoted) :=
    (findBy_map Launch.uid uid Launch.unnoted u.x.launches fun _ => rfl).symm
  rw [key, key, h.launches]

theorem launch?_some {uid : Nat} {l : Launch} (hl : s.launch? uid = some l) :
    ∃ l', t.launch? uid = some l' ∧ l'.unnoted = l.unnoted := by
  have := h.launch? uid
  rw [hl] at this
  exact Option.map_eq_some_iff.mp this

end

end OnlyNotes

end Sys2Proof.Machine
end

section
/-! SUPPORT. Launches by number, and how one completes (27 R374): its stage, and that nothing is added to the dies. -/

namespace Sys2Proof.Machine

/-! ### Launches by number -/

theorem exists_findBy_of_mem {α β : Type} [DecidableEq β] {key : α → β} {l : List α} {x : α} (h : x ∈ l) :
    ∃ y, findBy key (key x) l = some y := by
  induction l with
  | nil => cases h
  | cons a r ih =>
    simp only [findBy]
    split
    · exact ⟨a, rfl⟩
    · obtain _ | ⟨_, h⟩ := h
      · contradiction
      · exact ih h

theorem State.launch?_uid {s : State} {uid : Nat} {l : Launch} (h : s.launch? uid = some l) : l.uid = uid := findBy_key h

theorem State.launch?_updLaunch (s : State) (uid k : Nat) {f : Launch → Launch} (hf : ∀ l, (f l).uid = l.uid) :
    (s.updLaunch uid f).launch? k = if k = uid then (s.launch? k).map f else s.launch? k :=
  findBy_map_at Launch.uid k uid f s.x.launches hf

theorem State.launch?_updLaunch_same {s : State} {uid : Nat} {l : Launch} (h : s.launch? uid = some l) {f : Launch → Launch}
    (hf : ∀ l, (f l).uid = l.uid) : (s.updLaunch uid f).launch? uid = some (f l) := by
  simp [s.launch?_updLaunch uid uid hf, h]

/-! ### Completion -/

/-- A launch that has completed. -/
def Launch.complete (st : Status) (l : Launch) : Launch := { l with stage := .completed st, faultFrames := [], saved := [] }

@[simp] theorem State.completeEntry_x (s : State) (i q id : Nat) (st : Status) (kind nrec sig : Nat) (prot : Bool) :
    (s.completeEntry i q id st kind nrec sig prot).x = s.x := by
  simp only [State.completeEntry]
  split <;> simp [State.putRecord, State.writeHost, State.updCtl]

@[simp] theorem State.completeEntry_nextUid (s : State) (i q id : Nat) (st : Status) (kind nrec sig : Nat) (prot : Bool) :
    (s.completeEntry i q id st kind nrec sig prot).nextUid = s.nextUid := by
  simp only [State.completeEntry]
  split <;> simp [State.putRecord, State.writeHost, State.updCtl]

theorem State.completeLaunch_launches {s : State} {uid : Nat} {l : Launch} (h : s.launch? uid = some l) (st : Status) :
    (s.completeLaunch uid st).x.launches = (s.updLaunch uid (Launch.complete st)).x.launches := by
  simp only [State.completeLaunch, h, completeEntry_x]
  rfl

theorem State.completeLaunch_launch? {s : State} {uid : Nat} {l : Launch} (h : s.launch? uid = some l) (st : Status) :
    (s.completeLaunch uid st).launch? uid = some (l.complete st) := by
  have hf := State.launch?_updLaunch_same h (f := Launch.complete st) fun _ => rfl
  unfold State.launch? at hf ⊢
  rw [State.completeLaunch_launches h, hf]

@[simp] theorem State.completeLaunch_nextUid (s : State) (uid : Nat) (st : Status) :
    (s.completeLaunch uid st).nextUid = s.nextUid := by
  unfold State.completeLaunch
  split
  · rfl
  · rw [completeEntry_nextUid]; rfl

/-! ### Nothing is added -/

/-- Every block, warp and engine operation of t is one of s. -/
structure Fewer (s t : State) : Prop where
  blocks : t.x.blocks ⊆ s.x.blocks
  warps : t.x.warps ⊆ s.x.warps
  ops : t.x.ops ⊆ s.x.ops

namespace Fewer

theorem refl (s : State) : Fewer s s := ⟨List.Subset.refl _, List.Subset.refl _, List.Subset.refl _⟩

theorem trans {s t u : State} (h : Fewer s t) (k : Fewer t u) : Fewer s u :=
  ⟨fun _ hb => h.blocks (k.blocks hb), fun _ hw => h.warps (k.warps hw), fun _ ho => h.ops (k.ops ho)⟩

theorem completeLaunch (s : State) (uid : Nat) (st : Status) : Fewer s (s.completeLaunch uid st) := by
  unfold State.completeLaunch
  split
  · exact refl s
  · constructor <;> rw [State.completeEntry_x]
    · exact List.filter_sublist.subset
    · exact List.Subset.refl _
    · exact List.filter_sublist.subset

theorem settleLaunch (s : State) (uid : Nat) : Fewer s (s.settleLaunch uid) := by
  unfold State.settleLaunch
  split
  · exact refl s
  · extract_lets resident
    split
    · exact refl s
    · split
      · exact refl s
      · split
        · exact completeLaunch s uid _
        · split
          · exact completeLaunch s uid _
          · exact refl s

theorem closeCluster (s : State) (l : Launch) (num : Nat) : Fewer s (s.closeCluster l num) := by
  unfold State.closeCluster
  extract_lets mine free t
  split
  · exact refl s
  · have ht : t.x.blocks = s.x.blocks ∧ t.x.warps = s.x.warps ∧ t.x.ops = s.x.ops := by
      simp only [t]
      split
      · split <;> exact ⟨rfl, rfl, rfl⟩
      · exact ⟨rfl, rfl, rfl⟩
    obtain ⟨hb, hw, ho⟩ := ht
    exact ⟨hb ▸ List.filter_sublist.subset, hw ▸ List.Subset.refl _, ho ▸ List.Subset.refl _⟩

theorem closeSpan (s : State) (l : Launch) (num : Nat) : Fewer s (s.closeSpan l num) := by
  unfold State.closeSpan
  extract_lets
  split
  · exact refl s
  · exact ⟨List.Subset.refl _, List.Subset.refl _, List.Subset.refl _⟩

end Fewer

/-! ### Release of a block (07 R127) -/

/-- When the work of a block has been dropped no warp of it is left. -/
theorem State.dropBlockWork_warps (s : State) (launch block : Nat) (locks : Bool) :
    ∀ w ∈ (s.dropBlockWork launch block locks).x.warps, ¬(w.ref.launch = launch ∧ w.ref.block = block) := by
  rintro w hw ⟨hl, hb⟩
  simpa [hl, hb] using (List.mem_filter.mp hw).2

/-- When no lock of its operations is to stay, no operation of it is left either. -/
theorem State.dropBlockWork_ops (s : State) (launch block : Nat) :
    ∀ o ∈ (s.dropBlockWork launch block false).x.ops, ¬(o.ref.launch = launch ∧ o.ref.block = block) := by
  rintro o ho ⟨hl, hb⟩
  simpa [hl, hb] using (List.mem_filter.mp ho).2

theorem State.updBlock_released (s : State) (launch block : Nat) :
    ∀ b ∈ (s.updBlock launch block fun b => { b with released := true }).x.blocks,
      b.launch = launch → b.id = block → b.released = true := by
  intro b hb hl hi
  obtain ⟨a, -, rfl⟩ := List.mem_map.mp hb
  by_cases ha : a.launch = launch ∧ a.id = block
  · simp [ha]
  · simp only [ha, if_false] at hl hi
    exact absurd ⟨hl, hi⟩ ha

/-- A released block leaves no warp, and its operations only in a tripod launch that goes on (10 R188). -/
theorem State.releaseBlock_spec (s : State) (l : Launch) (b : Block) :
    (∀ x ∈ (s.releaseBlock l b).x.blocks, x.launch = l.uid → x.id = b.id → x.released = true) ∧
    (∀ w ∈ (s.releaseBlock l b).x.warps, ¬(w.ref.launch = l.uid ∧ w.ref.block = b.id)) ∧
    ((l.record.tripod = false ∨ b.stopped = true) →
      ∀ o ∈ (s.releaseBlock l b).x.ops, ¬(o.ref.launch = l.uid ∧ o.ref.block = b.id)) := by
  unfold State.releaseBlock
  extract_lets s1 n s2 s3 s4
  have h : Fewer s4 (((s4.closeCluster l (l.record.clusterOf b.id)).closeSpan l (l.record.spanOf b.id)).settleLaunch l.uid) :=
    ((Fewer.closeCluster s4 l _).trans (Fewer.closeSpan _ l _)).trans (Fewer.settleLaunch _ _)
  refine ⟨fun x hx => s2.updBlock_released l.uid b.id x (h.blocks hx),
    fun w hw => s1.dropBlockWork_warps l.uid b.id (l.record.tripod && !b.stopped) w (h.warps hw), fun ht o ho => ?_⟩
  have hlocks : (l.record.tripod && !b.stopped) = false := by obtain ht | ht := ht <;> simp [ht]
  refine s1.dropBlockWork_ops l.uid b.id o ?_
  have := h.ops ho
  simp only [s4, s3, s2, hlocks] at this
  exact this

end Sys2Proof.Machine
end

section
/-! SUPPORT. The queue stage (07 R131, R393): which launch is taken, and what checks 1 to 5 make of it. -/

namespace Sys2Proof.Machine

/-! ### What the checks look at -/

/-- Checks 1 and 3 to 5 find the same in t as in s: dies, cores, the defect map and what interfaces have been granted. -/
structure ChecksAs (s t : State) : Prop where
  dies : t.x.dies = s.x.dies
  cores : t.x.cores = s.x.cores
  map : t.ctl.map = s.ctl.map
  numbered : t.ctl.numbered = s.ctl.numbered
  ifaces : ∀ i, t.iface i = { s.iface i with queues := (t.iface i).queues }

theorem State.iface_updIface (s : State) (i k : Nat) (f : Iface → Iface) :
    (s.updIface i f).iface k = if k = i then f (s.iface i) else s.iface k := by
  by_cases h : k = i
  · subst h; simp [State.updIface, State.iface, tget_tput_same]
  · simp [State.updIface, State.iface, tget_tput_ne _ _ _ _ h, h]

theorem State.queue_updQueue_same (s : State) (i q : Nat) (f : Queue → Queue) : (s.updQueue i q f).queue i q = f (s.queue i q) := by
  simp [State.queue, State.updQueue, State.iface_updIface, tget_tput_same]

namespace ChecksAs

theorem trans {s t u : State} (h : ChecksAs s t) (k : ChecksAs t u) : ChecksAs s u where
  dies := k.dies.trans h.dies
  cores := k.cores.trans h.cores
  map := k.map.trans h.map
  numbered := k.numbered.trans h.numbered
  ifaces i := by rw [k.ifaces i, h.ifaces i]

theorem updQueue (s : State) (i q : Nat) (f : Queue → Queue) : ChecksAs s (s.updQueue i q f) where
  dies := rfl
  cores := rfl
  map := rfl
  numbered := rfl
  ifaces k := by
    unfold State.updQueue
    rw [State.iface_updIface]
    split
    · rename_i h; rw [h]
    · rfl

theorem cursors (s : State) (cs : Table Cursor) : ChecksAs s { s with ctl := { s.ctl with cursors := cs } } :=
  ⟨rfl, rfl, rfl, rfl, fun _ => rfl⟩

theorem launches (s : State) (n : Nat) (ls : List Launch) : ChecksAs s { s with nextUid := n, x := { s.x with launches := ls } } :=
  ⟨rfl, rfl, rfl, rfl, fun _ => rfl⟩

section
variable {s t : State} (h : ChecksAs s t)
include h

theorem qcount (i : Nat) : (t.iface i).qcount = (s.iface i).qcount := by rw [h.ifaces i]

theorem sessionWorld (i : Nat) : t.sessionWorld i = s.sessionWorld i := by unfold State.sessionWorld; rw [h.ifaces i]

theorem qcountOf (i : Nat) : t.qcountOf i = s.qcountOf i := by simp only [State.qcountOf, h.qcount]

theorem die (d : Nat) : t.die d = s.die d := by unfold State.die; rw [h.dies]

theorem core (k : Nat) : t.core k = s.core k := by unfold State.core; rw [h.cores]

theorem namedDies (i : Nat) (r : LaunchRecord) : t.namedDies i r = s.namedDies i r := by
  have hl : t.logicalDies i = s.logicalDies i := by unfold State.logicalDies; rw [h.ifaces i, h.numbered]
  simp only [State.namedDies, hl, h.die]

theorem ordinarySites (d : Nat) : t.ordinarySites d = s.ordinarySites d := by unfold State.ordinarySites; rw [h.map]

theorem idleBlocks : t.idleBlocks = s.idleBlocks := by
  funext k r
  unfold State.idleBlocks
  rw [h.core k]

theorem idleClusters (d site : Nat) (r : LaunchRecord) : t.idleClusters d site r = s.idleClusters d site r := by
  unfold State.idleClusters
  rw [h.idleBlocks]

theorem clusterFits (ds : List Nat) (r : LaunchRecord) : t.clusterFits ds r = s.clusterFits ds r := by
  simp only [State.clusterFits, h.ordinarySites, h.idleClusters]

theorem dieClusters : t.dieClusters = s.dieClusters := by
  funext d r
  simp only [State.dieClusters, h.ordinarySites, h.idleClusters]

theorem gridFits (ds : List Nat) (r : LaunchRecord) : t.gridFits ds r = s.gridFits ds r := by
  unfold State.gridFits
  rw [h.dieClusters]

theorem laterCheck (i : Nat) (r : LaunchRecord) : t.laterCheck i r = s.laterCheck i r := by
  simp only [State.laterCheck, h.sessionWorld, h.namedDies, h.clusterFits, h.gridFits]

end

end ChecksAs

theorem State.laterCheck_ne_ok {s : State} {i : Nat} {r : LaunchRecord} {st : Status} (h : s.laterCheck i r = some st) : st ≠ .ok := by
  simp only [State.laterCheck] at h
  split_ifs at h <;> cases h <;> decide

theorem State.laterCheck_world {s : State} {i : Nat} {r : LaunchRecord} (h : r.world ≠ s.sessionWorld i) :
    s.laterCheck i r = some .worldMismatch := by simp [State.laterCheck, h]

/-! ### A launch in a stage -/

/-- A launch stands among those of a state, in a stage. -/
def State.Holds (s : State) (l : Launch) (st : Stage) : Prop :=
  ∃ l' ∈ s.x.launches, l'.uid = l.uid ∧ l'.iface = l.iface ∧ l'.queue = l.queue ∧ l'.record = l.record ∧ l'.stage = st

namespace State.Holds

variable {s t : State} {l : Launch} {st : Stage}

theorem notes (h : s.Holds l st) (hn : OnlyNotes s t) : t.Holds l st := by
  obtain ⟨a, ha, hu, hi, hq, hr, hs⟩ := h
  have hm : a.unnoted ∈ t.x.launches.map Launch.unnoted := hn.launches ▸ List.mem_map_of_mem ha
  obtain ⟨b, hb, hab⟩ := List.mem_map.mp hm
  exact ⟨b, hb, (congrArg Launch.uid hab).trans hu, (congrArg Launch.iface hab).trans hi, (congrArg Launch.queue hab).trans hq,
    (congrArg Launch.record hab).trans hr, (congrArg Launch.stage hab).trans hs⟩

/-- A launch changes in what names and places it no more than its stage. -/
theorem updLaunch (h : s.Holds l st) {f : Launch → Launch}
    (hf : ∀ a, (f a).uid = a.uid ∧ (f a).iface = a.iface ∧ (f a).queue = a.queue ∧ (f a).record = a.record)
    {st' : Stage} (hs : ∀ a, a.stage = st → (f a).stage = st') : (s.updLaunch l.uid f).Holds l st' := by
  obtain ⟨a, ha, hu, hi, hq, hr, h5⟩ := h
  obtain ⟨f1, f2, f3, f4⟩ := hf a
  refine ⟨f a, List.mem_map.mpr ⟨a, ha, by simp [hu]⟩, ?_⟩
  exact ⟨f1.trans hu, f2.trans hi, f3.trans hq, f4.trans hr, hs a h5⟩

theorem completeLaunch (h : s.Holds l st) (e : Status) : (s.completeLaunch l.uid e).Holds l (.completed e) := by
  obtain ⟨a, ha, hu, -⟩ := id h
  obtain ⟨b, hb⟩ := exists_findBy_of_mem (key := Launch.uid) ha
  rw [hu] at hb
  have hc := h.updLaunch (f := Launch.complete e) (fun _ => ⟨rfl, rfl, rfl, rfl⟩) (st' := .completed e) fun _ _ => rfl
  unfold State.Holds at hc ⊢
  rwa [State.completeLaunch_launches (show s.launch? l.uid = some b from hb)]

end State.Holds

/-! ### Checks 1 to 5 (07 R393) -/

theorem OnlyReads.bufferFrames_go (s : State) (i : Nat) (r : LaunchRecord) (ps : List Nat) :
    OnlyReads s (State.bufferFrames.go i r s ps).2 := by
  induction ps generalizing s with
  | nil => exact refl s
  | cons p ps ih =>
    have ht := transVia_none s (s.mmu i) (65536 * p) .w r.world
    rw [State.bufferFrames.go]
    generalize s.transVia none (s.mmu i) (65536 * p) .w r.world = x at ht ⊢
    obtain ⟨pa | k, u⟩ := x
    · have hg := ht.trans (ih u)
      dsimp only
      generalize State.bufferFrames.go i r u ps = y at hg ⊢
      obtain ⟨e | t, v⟩ := y <;> exact hg
    · exact ht

theorem OnlyReads.bufferFrames (s : State) (i : Nat) (r : LaunchRecord) : OnlyReads s (s.bufferFrames i r).2 := by
  unfold State.bufferFrames
  extract_lets first pages
  split
  · exact refl s
  · exact bufferFrames_go s i r _

/-- The stage after checks 3 to 5. -/
def stageAfter : Option Status → Stage
  | some st => .completed st
  | none => .dependences

/-- The stage that checks 1 to 5 leave a launch in. -/
structure Checked (s : State) (l : Launch) (st : Stage) : Prop where
  bad : l.record.ok (s.qcountOf l.iface) = false → st = .completed .faulted
  later : l.record.ok (s.qcountOf l.iface) = true → l.record.faultVa = 0 → st = stageAfter (s.laterCheck l.iface l.record)
  ends : st = .dependences ∨ ∃ e, st = .completed e ∧ e ≠ .ok

theorem Checked.faulted {s : State} {l : Launch}
    (h : l.record.ok (s.qcountOf l.iface) = true → l.record.faultVa ≠ 0) : Checked s l (.completed .faulted) :=
  ⟨fun _ => rfl, fun hg hv => absurd hv (h hg), .inr ⟨_, rfl, by decide⟩⟩

/-- What checks 1 to 5 make of a launch that has just left its queue. -/
theorem State.queueChecks_spec {s : State} {l : Launch} (h : s.Holds l .dependences) :
    (s.queueChecks l).nextUid = s.nextUid ∧ ∃ st, (s.queueChecks l).Holds l st ∧ Checked s l st := by
  unfold State.queueChecks
  extract_lets r good
  have hbuf : ∀ x : Except FaultKind (Table Nat) × State,
      (if r.faultVa = 0 ∨ r.faultVa % 8 ≠ 0 then (.ok [], s) else s.bufferFrames l.iface r) = x →
      OnlyReads s x.2 ∧ (r.faultVa = 0 → x = (.ok [], s)) := by
    rintro x rfl
    split
    · exact ⟨OnlyReads.refl s, fun _ => rfl⟩
    · rename_i hv
      exact ⟨OnlyReads.bufferFrames s _ _, fun h0 => absurd (.inl h0) hv⟩
  split
  · rename_i k u hx
    obtain ⟨hu, h0⟩ := hbuf _ hx
    extract_lets kind
    have hn := hu.notes.trans (OnlyNotes.updLaunch u l.uid (f := fun a => { a with firstKind := some kind }) fun _ => rfl)
    refine ⟨by rw [completeLaunch_nextUid]; exact hu.nextUid, _, (h.notes hn).completeLaunch _, Checked.faulted fun _ hv => ?_⟩
    cases h0 hv
  · rename_i t u hx
    obtain ⟨hu, h0⟩ := hbuf _ hx
    extract_lets u1
    have h1 : u1.Holds l .dependences :=
      (h.notes hu.notes).updLaunch (f := fun a => { a with faultFrames := t }) (fun _ => ⟨rfl, rfl, rfl, rfl⟩) fun _ => id
    have hn : u1.nextUid = s.nextUid := hu.nextUid
    split
    · rename_i hg
      have hd := OnlyNotes.dispatcherRecord u1 l.uid .badCommand 0
      exact ⟨by rw [completeLaunch_nextUid, hd.nextUid, hn], _, (h1.notes hd).completeLaunch _,
        Checked.faulted fun hg' => by simp [good, r, hg'] at hg⟩
    · rename_i hg
      have hgood : l.record.ok (s.qcountOf l.iface) = true := by simpa [good, r] using hg
      have hlater (hv : l.record.faultVa = 0) : u1.laterCheck l.iface r = s.laterCheck l.iface l.record := by cases h0 hv; rfl
      split
      · rename_i st hst
        exact ⟨by rw [completeLaunch_nextUid, hn], _, h1.completeLaunch st, fun hb => by simp [hgood] at hb,
          fun _ hv => by rw [← hlater hv, hst]; rfl, .inr ⟨st, rfl, State.laterCheck_ne_ok hst⟩⟩
      · rename_i hst
        exact ⟨hn, _, h1, fun hb => by simp [hgood] at hb, fun _ hv => by rw [← hlater hv, hst]; rfl, .inl rfl⟩

/-! ### The launch that is taken -/

/-- The choice of a launch moves only the cursors of the levels. -/
theorem State.chooseLaunch_eq {s t : State} {x : Nat × Nat} (h : s.chooseLaunch = some (x, t)) :
    ∃ cs, t = { s with ctl := { s.ctl with cursors := cs } } := by
  unfold State.chooseLaunch at h
  simp only at h
  split at h
  · cases h
  · split at h
    · cases h
    · cases h; exact ⟨_, rfl⟩

/-- The launch that leaves a queue: the next number, with the record of the entry at the queue's head. -/
def State.taken (s : State) (i q : Nat) : Launch :=
  let n := (s.queue i q).head
  Launch.fresh s.nextUid i q (launchId q n) (LaunchRecord.ofBits (leNat (s.entryBytes i q n 256)))

/-- The state in which the taken launch is checked. -/
def State.taking (s : State) (i q : Nat) : State :=
  (({ s with nextUid := s.nextUid + 1, x := { s.x with launches := s.x.launches ++ [s.taken i q] } } : State).advanceHead i q).endTurns

theorem State.taking_checksAs (s : State) (i q : Nat) : ChecksAs s (s.taking i q) :=
  ((ChecksAs.launches s _ _).trans (ChecksAs.updQueue _ i q _)).trans (ChecksAs.cursors _ _)

theorem State.taking_holds (s : State) (i q : Nat) : (s.taking i q).Holds (s.taken i q) .dependences :=
  ⟨s.taken i q, List.mem_append_right _ (List.mem_singleton.mpr rfl), rfl, rfl, rfl, rfl, rfl⟩

theorem exec_launchQueueExit {s t : State} {i q : Nat} (h : s.chooseLaunch = some ((i, q), t)) (hr : s.recovering = false) :
    exec .launchQueueExit s = .next ((t.taking i q).queueChecks (t.taken i q)) := by
  show execLaunchQueueExit s = _
  simp only [execLaunchQueueExit, hr, h]
  rfl

end Sys2Proof.Machine
end

section
/-! SUPPORT. What a translation by the control die's walkers sees of the state (09 R168 to R170), and that a read leaves it: what the
walkers keep of a walk is what stands in the tables. -/

namespace Sys2Proof.Machine

/-! ### Memory and the map -/

/-- Memory, keys, the physical map, interfaces and the worlds of the dies are the same in t as in s. -/
structure SameMap (s t : State) : Prop where
  mem : t.mem = s.mem
  memKeys : t.memKeys = s.memKeys
  free : t.free = s.free
  ctl : t.ctl = { s.ctl with walkers := t.ctl.walkers, log := t.ctl.log }
  worlds : ∀ d, (t.die d).world = (s.die d).world

theorem OnlyReads.sameMap {s t : State} (h : OnlyReads s t) : SameMap s t := ⟨h.mem, h.memKeys, h.free, h.ctl, h.worlds⟩

namespace SameMap

theorem symm {s t : State} (h : SameMap s t) : SameMap t s where
  mem := h.mem.symm
  memKeys := h.memKeys.symm
  free := h.free.symm
  ctl := by rw [h.ctl]
  worlds d := (h.worlds d).symm

theorem trans {s t u : State} (h : SameMap s t) (k : SameMap t u) : SameMap s u where
  mem := k.mem.trans h.mem
  memKeys := k.memKeys.trans h.memKeys
  free := k.free.trans h.free
  ctl := by rw [k.ctl, h.ctl]
  worlds d := (k.worlds d).trans (h.worlds d)

section
variable {s t : State} (h : SameMap s t)
include h

theorem map : t.ctl.map = s.ctl.map := by rw [h.ctl]

theorem iface : t.iface = s.iface := by funext k; unfold State.iface; rw [h.ctl]

theorem mmu : t.mmu = s.mmu := by funext k; unfold State.mmu; rw [h.iface]

theorem gddrDie : t.gddrDie = s.gddrDie := by funext pa; unfold State.gddrDie; rw [h.map]

theorem isLpddr : t.isLpddr = s.isLpddr := by funext pa; unfold State.isLpddr; rw [h.map]

theorem isDram : t.isDram = s.isDram := by funext pa; unfold State.isDram; rw [h.gddrDie, h.isLpddr]

theorem populatedRange : t.populatedRange = s.populatedRange := by
  funext pa n; unfold State.populatedRange; rw [h.gddrDie, h.isLpddr]

theorem forbiddenRange : t.forbiddenRange = s.forbiddenRange := by funext pa n; unfold State.forbiddenRange; rw [h.map]

theorem keyOf : t.keyOf = s.keyOf := by funext w; unfold State.keyOf; rw [h.ctl]

theorem unitKey : t.unitKey = s.unitKey := by funext pa; unfold State.unitKey; rw [h.memKeys]

theorem dataKey : t.dataKey = s.dataKey := by funext n; unfold State.dataKey; rw [h.ctl]

theorem foreignUnit : t.foreignUnit = s.foreignUnit := by
  funext w u; unfold State.foreignUnit; rw [h.dataKey, h.keyOf, h.unitKey, h.mem]

theorem readByte : t.readByte = s.readByte := by
  funext w pa; unfold State.readByte; rw [h.unitKey, h.keyOf, h.isDram, h.foreignUnit, h.mem]

theorem readPhys (world pa n : Nat) : t.readPhys world pa n = s.readPhys world pa n := by
  induction n generalizing pa with
  | zero => rfl
  | succ n ih => unfold State.readPhys; rw [h.readByte, ih]

theorem logicalDies : t.logicalDies = s.logicalDies := by
  funext i; unfold State.logicalDies; rw [h.iface, h.ctl]

theorem physOf : t.physOf = s.physOf := by funext i pa; unfold State.physOf; rw [h.logicalDies]

theorem tableEntry : t.tableEntry = s.tableEntry := by
  funext i table ix; unfold State.tableEntry; rw [h.physOf, h.readPhys]

theorem tableOk : t.tableOk = s.tableOk := by
  funext i table; unfold State.tableOk; rw [h.physOf, h.isDram, h.populatedRange]

theorem ownerOf : t.ownerOf = s.ownerOf := by funext pa; unfold State.ownerOf; rw [h.gddrDie]

theorem portRefuses (via : Via) (world pa : Nat) : t.portRefuses via world pa = s.portRefuses via world pa := by
  unfold State.portRefuses
  simp only [h.gddrDie, h.worlds]

theorem leafOf : t.leafOf = s.leafOf := by
  funext i big e; unfold State.leafOf; rw [h.populatedRange, h.physOf]

theorem judge : t.judge = s.judge := by
  funext i w va need world
  unfold State.judge State.leafPermits State.leafAddr
  rw [h.physOf, h.forbiddenRange]

end

end SameMap

/-! ### Stale entries -/

/-- The entries of a table for a VA that the walkers have kept and that no longer stand there. -/
def State.stale (s : State) (i : Mmu) (level va table : Nat) : List Nat :=
  (s.readBefore i.iface level va table).filter fun e => decide (e ≠ s.tableEntry i table (va / 2 ^ levelShift level % 4096))

/-- A translation through an interface finds the same in t as in s: the walkers' caches differ in current entries at most. -/
structure Sees (i : Mmu) (s t : State) : Prop extends SameMap s t where
  stale : ∀ level va table, t.stale i level va table = s.stale i level va table

theorem State.stale_of_walkers {s t : State} (h : SameMap s t) (hw : t.ctl.walkers = s.ctl.walkers) (i : Mmu) (level va table : Nat) :
    t.stale i level va table = s.stale i level va table := by
  unfold State.stale State.readBefore
  rw [h.tableEntry, hw]

theorem SameMap.sees {s t : State} (h : SameMap s t) (hw : t.ctl.walkers = s.ctl.walkers) (i : Mmu) : Sees i s t :=
  ⟨h, State.stale_of_walkers h hw i⟩

/-- A free choice among a value and some others is one of them. -/
theorem getD_mod_mem {α : Type} (a : α) (l : List α) (n : Nat) : (a :: l).getD (n % (l.length + 1)) a ∈ a :: l := by
  have hlt : n % (l.length + 1) < (a :: l).length := Nat.mod_lt _ (Nat.succ_pos _)
  rw [List.getD_eq_getElem _ _ hlt]
  exact List.getElem_mem hlt

/-- The entry that a walk uses stands in the table, or has been kept. -/
theorem State.tableAt_ok {s : State} {i : Mmu} {world level va table e : Nat} (h : s.tableAt i world level va table = .ok e) :
    e = s.tableEntry i table (va / 2 ^ levelShift level % 4096) ∨ e ∈ s.readBefore i.iface level va table := by
  have key : State.tableAt.entry s i level va table () = e := by
    unfold State.tableAt at h
    split at h
    · cases h
    · split at h
      · split at h
        · cases h
        · exact Except.ok.inj h
      · exact Except.ok.inj h
  subst key
  unfold State.tableAt.entry
  extract_lets new
  generalize hold : (s.readBefore i.iface level va table).filter (fun e => decide (e ≠ new)) = old
  cases old with
  | nil => exact .inl rfl
  | cons a r =>
    obtain h | h := List.mem_cons.mp (getD_mod_mem new (a :: r) (Config.freeIndex s.free (va / 65536 + 2 ^ (40 + level))))
    · exact .inl h
    · have hkept : ∀ x ∈ a :: r, x ∈ s.readBefore i.iface level va table := fun x hx => by
        rw [← hold] at hx
        exact List.mem_of_mem_filter hx
      exact .inr (hkept _ h)

end Sys2Proof.Machine
end

section
/-! SUPPORT. A read of main memory by the control die (04 R62, 07 R126) has the same outcome in states that see the same map, and
leaves the map as it is. -/

namespace Sys2Proof.Machine

/-! ### Walks -/

namespace Sees

variable {i : Mmu} {s t u : State}

theorem refl (i : Mmu) (s : State) : Sees i s s := (OnlyReads.refl s).sameMap.sees rfl i

theorem symm (h : Sees i s t) : Sees i t s := ⟨h.toSameMap.symm, fun level va table => (h.stale level va table).symm⟩

theorem trans (h : Sees i s t) (k : Sees i t u) : Sees i s u :=
  ⟨h.toSameMap.trans k.toSameMap, fun level va table => (k.stale level va table).trans (h.stale level va table)⟩

section
variable (h : Sees i s t)
include h

theorem tableAt_entry (level va table : Nat) : State.tableAt.entry t i level va table () = State.tableAt.entry s i level va table () := by
  have hs := h.stale level va table
  unfold State.stale at hs
  simp only [State.tableAt.entry, h.tableEntry, h.free]
  rw [h.tableEntry] at hs
  rw [hs]

theorem tableAt (world level va table : Nat) : t.tableAt i world level va table = s.tableAt i world level va table := by
  unfold State.tableAt
  simp only [h.tableOk, h.gddrDie, h.physOf, h.worlds, h.tableAt_entry]

theorem walk (world va : Nat) : t.walk i world va = s.walk i world va := by
  have ht : t.tableAt i = s.tableAt i := by funext world level va table; exact h.tableAt world level va table
  rw [State.walk, State.walk, ht, h.leafOf]

theorem transVia_fst (va : Nat) (need : Need) (world : Nat) :
    (t.transVia none i va need world).1 = (s.transVia none i va need world).1 := by
  simp only [State.transVia, h.walk, h.judge]

end

end Sees

/-! ### What the walkers keep -/

/-- An entry that a walk reads stands in its table, unless the walkers had kept it before. -/
theorem State.walkReads_current {s : State} {i : Mmu} {world va : Nat} {e : WalkerEntry} (he : e ∈ s.walkReads i world va)
    (hn : e ∉ s.ctl.walkers) : e.entry = s.tableEntry i e.table (e.pre % 4096) := by
  have key {level table x : Nat} (hx : s.tableAt i world level va table = .ok x)
      (heq : e = ⟨i.iface, level, va / 2 ^ levelShift level, table, x⟩) : e.entry = s.tableEntry i e.table (e.pre % 4096) := by
    obtain h | h := State.tableAt_ok hx
    · subst heq; exact h
    · obtain ⟨z, hz, hzx⟩ := List.mem_map.mp h
      obtain ⟨hz, hp⟩ := List.mem_filter.mp hz
      simp only [Bool.and_eq_true, decide_eq_true_eq] at hp
      obtain ⟨⟨⟨h1, h2⟩, h3⟩, h4⟩ := hp
      have hez : e = z := by
        cases z
        simp only at h1 h2 h3 h4 hzx
        simp only [heq, h1, h2, h3, h4, hzx]
      exact absurd (hez ▸ hz) hn
  rw [State.walkReads] at he
  split at he
  · cases he
  · rename_i e0 h0
    obtain he | he := List.mem_cons.mp he
    · exact key h0 he
    · split at he
      · cases he
      · split at he
        · cases he
        · rename_i e1 h1
          obtain he | he := List.mem_cons.mp he
          · exact key h1 he
          · split at he
            · cases he
            · split at he
              · cases he
              · rename_i e2 h2
                exact key h2 (List.mem_singleton.mp he)

/-- Current entries that the walkers keep besides are none that a translation could find stale. -/
theorem State.stale_keep {s t : State} {i : Mmu} {ks : List WalkerEntry} (h : SameMap s t) (hw : t.ctl.walkers = s.ctl.walkers ++ ks)
    (hk : ∀ e ∈ ks, e.entry = s.tableEntry i e.table (e.pre % 4096)) (level va table : Nat) :
    t.stale i level va table = s.stale i level va table := by
  unfold State.stale State.readBefore
  rw [h.tableEntry, hw, List.filter_append, List.map_append, List.filter_append, List.append_right_eq_self, List.filter_eq_nil_iff]
  intro x hx
  obtain ⟨e, he, rfl⟩ := List.mem_map.mp hx
  obtain ⟨he, hp⟩ := List.mem_filter.mp he
  simp only [Bool.and_eq_true, decide_eq_true_eq] at hp
  obtain ⟨⟨-, hpre⟩, htab⟩ := hp
  simp [hk e he, hpre, htab]

theorem State.stampMessage_walkers (s : State) (m : DieMessage) : (s.stampMessage m).ctl.walkers = s.ctl.walkers := by
  unfold State.stampMessage
  extract_lets
  split_ifs <;> rfl

theorem State.request_walkers (i : Mmu) (world : Nat) (s : State) (e : WalkerEntry) :
    (State.request i world s e).ctl.walkers = s.ctl.walkers := by
  unfold State.request
  split
  · exact s.stampMessage_walkers _
  · rfl

theorem foldl_walkers {α : Type} {f : State → α → State} (hf : ∀ s a, (f s a).ctl.walkers = s.ctl.walkers) (s : State) (l : List α) :
    (l.foldl f s).ctl.walkers = s.ctl.walkers := by
  induction l generalizing s with
  | nil => rfl
  | cons a r ih => exact (ih (f s a)).trans (hf s a)

namespace Sees

/-- A walk leaves what translations find. -/
theorem afterWalk (s : State) (i : Mmu) (world va : Nat) : Sees i s (s.afterWalk i world va) := by
  have hr := (OnlyReads.afterWalk s i world va).sameMap
  obtain ⟨kept, hsub, h⟩ := s.afterWalk_eq i world va
  refine ⟨hr, State.stale_keep hr (ks := kept) ?_ fun e he => ?_⟩
  · rw [h]
    exact congrArg (· ++ kept) (foldl_walkers (State.request_walkers i world) s _)
  · obtain ⟨hmem, hnew⟩ := List.mem_filter.mp (hsub he)
    exact State.walkReads_current hmem (by simpa using hnew)

theorem logRefused (i : Mmu) (s : State) (n : Nat) (via : Via) (o world : Nat) : Sees i s (s.logRefused n via o world) :=
  (OnlyReads.logRefused s n via o world).sameMap.sees rfl i

theorem stampMessage (i : Mmu) (s : State) (m : DieMessage) : Sees i s (s.stampMessage m) :=
  (OnlyReads.stampMessage s m).sameMap.sees (s.stampMessage_walkers m) i

theorem transVia_none (s : State) (i : Mmu) (va : Nat) (need : Need) (world : Nat) :
    Sees i s (s.transVia none i va need world).2 := by
  obtain h | ⟨o, h⟩ := s.transVia_none_snd i va need world <;> rw [h]
  · exact afterWalk s i world va
  · exact (afterWalk s i world va).trans (logRefused i _ _ _ _ _)

theorem readPage (i : Mmu) (s : State) (via : Via) (world pa n : Nat) : Sees i s (s.readPage via world pa n).2 := by
  have hr := (OnlyReads.readPage s via world pa n).sameMap
  refine hr.sees ?_ i
  unfold State.readPage
  extract_lets me o
  split
  · rfl
  · split
    · rfl
    · exact (State.stampMessage_walkers _ _).trans (s.stampMessage_walkers _)

theorem readPieces (s : State) (i : Mmu) (world : Nat) (ps : List (Nat × Nat)) : Sees i s (s.readPieces none i world ps).s := by
  induction ps generalizing s with
  | nil => exact refl i s
  | cons x r ih =>
    have ht := transVia_none s i x.1 .rd world
    rw [State.readPieces]
    split
    · exact refl i s
    · split
      · rename_i h; rw [h] at ht; exact ht
      · rename_i h
        rw [h] at ht
        split
        · exact ht.trans (logRefused i _ _ _ _ _)
        · exact (ht.trans (readPage i _ _ _ _ _)).trans (ih _)

end Sees

/-! ### Outcomes of reads -/

/-- The ports of the dies hold the same, and the same responses are replayed. -/
def SamePorts (s t : State) : Prop := ∀ d, (t.die d).held = (s.die d).held ∧ (t.die d).replayed = (s.die d).replayed

namespace SamePorts

variable {s t u : State}

theorem refl (s : State) : SamePorts s s := fun _ => ⟨rfl, rfl⟩

theorem symm (h : SamePorts s t) : SamePorts t s := fun d => ⟨(h d).1.symm, (h d).2.symm⟩

theorem trans (h : SamePorts s t) (k : SamePorts t u) : SamePorts s u :=
  fun d => ⟨(k d).1.trans (h d).1, (k d).2.trans (h d).2⟩

theorem updDie (s : State) (d : Nat) {f : Die → Die} (hf : ∀ x, (f x).held = x.held ∧ (f x).replayed = x.replayed) :
    SamePorts s (s.updDie d f) := fun e => by
  rw [State.die_updDie]
  split
  · rename_i he; rw [he]; exact hf _
  · exact ⟨rfl, rfl⟩

theorem stampMessage (s : State) (m : DieMessage) : SamePorts s (s.stampMessage m) := by
  unfold State.stampMessage
  extract_lets x n reel
  split_ifs
  · exact refl s
  · exact updDie s _ fun _ => ⟨rfl, rfl⟩
  · exact updDie s m.dst (f := fun x => { x with stamp := n + 1, reelOff := _ }) fun _ => ⟨rfl, rfl⟩
  · exact updDie s _ fun _ => ⟨rfl, rfl⟩

theorem foldl {α : Type} {f : State → α → State} (hf : ∀ s a, SamePorts s (f s a)) (s : State) (l : List α) :
    SamePorts s (l.foldl f s) := by
  induction l generalizing s with
  | nil => exact refl s
  | cons a r ih => exact (hf s a).trans (ih _)

theorem request (i : Mmu) (world : Nat) (s : State) (e : WalkerEntry) : SamePorts s (State.request i world s e) := by
  unfold State.request
  split
  · exact stampMessage s _
  · exact refl s

theorem walkers (s : State) (f : List WalkerEntry → List WalkerEntry) :
    SamePorts s (s.updCtl fun c => { c with walkers := f c.walkers }) := fun _ => ⟨rfl, rfl⟩

theorem logRefused (s : State) (i : Nat) (via : Via) (o world : Nat) : SamePorts s (s.logRefused i via o world) :=
  fun _ => ⟨rfl, rfl⟩

theorem transVia_none (s : State) (i : Mmu) (va : Nat) (need : Need) (world : Nat) :
    SamePorts s (s.transVia none i va need world).2 := by
  have hw : SamePorts s (s.afterWalk i world va) := by
    obtain ⟨kept, -, h⟩ := s.afterWalk_eq i world va
    rw [h]
    exact (foldl (request i world) s _).trans (walkers _ fun ws => ws ++ kept)
  obtain h | ⟨o, h⟩ := s.transVia_none_snd i va need world <;> rw [h]
  · exact hw
  · exact hw.trans (logRefused _ _ _ _ _)

/-- The same read of one page brings the same bytes, and leaves the same at the ports. -/
theorem readPage (hp : SamePorts s t) (h : SameMap s t) (via : Via) (world pa n : Nat) :
    (t.readPage via world pa n).1 = (s.readPage via world pa n).1 ∧
      SamePorts (s.readPage via world pa n).2 (t.readPage via world pa n).2 := by
  unfold State.readPage
  simp only [h.ownerOf, h.readPhys, (hp _).1, (hp _).2]
  split
  · exact ⟨rfl, hp⟩
  · split
    · rename_i bs rest _
      refine ⟨rfl, fun d => ?_⟩
      rw [State.die_updDie, State.die_updDie]
      split
      · exact ⟨(hp _).1, rfl⟩
      · exact hp d
    · exact ⟨rfl, (((stampMessage s _).trans (stampMessage _ _)).symm.trans hp).trans ((stampMessage t _).trans (stampMessage _ _))⟩

end SamePorts

/-- A read meets the same fault, or none, in states that see the same map; with the same at the ports it brings the same bytes. -/
theorem Sees.readPieces_same {s t : State} {i : Mmu} (h : Sees i s t) (world : Nat) (ps : List (Nat × Nat)) :
    (t.readPieces none i world ps).fault = (s.readPieces none i world ps).fault ∧
      (SamePorts s t → (t.readPieces none i world ps).bytes = (s.readPieces none i world ps).bytes) := by
  induction ps generalizing s t with
  | nil => exact ⟨rfl, fun _ => rfl⟩
  | cons x r ih =>
    have h1 := h.transVia_fst x.1 .rd world
    have h2 := ((Sees.transVia_none s i x.1 .rd world).symm.trans h).trans (Sees.transVia_none t i x.1 .rd world)
    have hports (hp : SamePorts s t) :=
      ((SamePorts.transVia_none s i x.1 .rd world).symm.trans hp).trans (SamePorts.transVia_none t i x.1 .rd world)
    rw [State.readPieces, State.readPieces]
    generalize s.transVia none i x.1 .rd world = a at h1 h2 hports ⊢
    generalize t.transVia none i x.1 .rd world = b at h1 h2 hports ⊢
    obtain ⟨ra, sa⟩ := a
    obtain ⟨rb, sb⟩ := b
    change rb = ra at h1
    subst rb
    split
    · exact ⟨rfl, fun _ => rfl⟩
    · cases ra with
      | fault k => exact ⟨rfl, fun _ => rfl⟩
      | ok pa =>
        simp only [h2.portRefuses]
        split
        · exact ⟨rfl, fun _ => rfl⟩
        · have h3 := ((Sees.readPage i sa none world pa x.2).symm.trans h2).trans (Sees.readPage i sb none world pa x.2)
          have hr := ih h3
          refine ⟨hr.1, fun hp => ?_⟩
          obtain ⟨hb, hp'⟩ := (hports hp).readPage h2.toSameMap none world pa x.2
          simp only [hb, hr.2 hp']

end Sys2Proof.Machine
end

section
/-! SUPPORT. A block is placed (07 R126, R127; 20 R294): its warps start at the entry PC, and stay there when one of them is taken as
the sample of its launch. -/

namespace Sys2Proof.Machine

/-! ### Warps at the entry -/

/-- A warp at its start, wherever it is bound (04 R58). -/
structure Warp.AtEntry (pc : Word) (w : Warp) : Prop where
  p0 : w.p0 = some (Path.start pc (BitVec.allOnes 32))
  p1 : w.p1 = none
  frozen : w.frozen = none
  exited : w.exited = 0
  sregs : w.sregs = []
  vregs : w.vregs = []

theorem Warp.fresh_atEntry (r : WarpRef) (entry sched : Nat) (now : DWord) : (Warp.fresh r entry sched now).AtEntry (BitVec.ofNat 32 entry) :=
  ⟨rfl, rfl, rfl, rfl, rfl, rfl⟩

theorem Warp.AtEntry.not_parked {pc : Word} {w : Warp} (h : w.AtEntry pc) {slot : Bool} {p : Path} (hp : w.path? slot = some p) :
    p.park = .none := by
  cases slot
  · cases h.p0.symm.trans hp; rfl
  · cases h.p1.symm.trans hp

/-- Nothing is outstanding at the entry: a landing changes nothing. -/
theorem Warp.AtEntry.landPath {pc : Word} {w : Warp} (h : w.AtEntry pc) (free : Nat) (slot : Bool) : w.landPath free slot = w := by
  cases slot
  · have hp : w.path? false = some (Path.start pc (BitVec.allOnes 32)) := h.p0
    simp only [Warp.landPath, hp]
    exact Warp.setPath_self hp
  · have hp : w.path? true = none := h.p1
    simp only [Warp.landPath, hp]

/-! ### What a sample moves -/

/-- From s to t warps have moved and a die's loupe cluster has counted; blocks stay, warps at the entry stay there, and translations
find the same. -/
structure Sampled (pc : Word) (s t : State) : Prop where
  blocks : t.x.blocks = s.x.blocks
  refs : t.x.warps.map Warp.ref = s.x.warps.map Warp.ref
  entries : ∀ w ∈ s.x.warps, w.AtEntry pc → ∃ v ∈ t.x.warps, v.ref = w.ref ∧ v.AtEntry pc
  sees : ∀ i, Sees i s t

namespace Sampled

variable {pc : Word} {s t u : State}

/-- Warps are as they were. -/
theorem of_warps (hb : t.x.blocks = s.x.blocks) (hw : t.x.warps = s.x.warps) (hs : ∀ i, Sees i s t) : Sampled pc s t :=
  ⟨hb, by rw [hw], fun w hm he => ⟨w, hw ▸ hm, rfl, he⟩, hs⟩

theorem refl (s : State) : Sampled pc s s := of_warps rfl rfl fun i => Sees.refl i s

theorem trans (h : Sampled pc s t) (k : Sampled pc t u) : Sampled pc s u where
  blocks := k.blocks.trans h.blocks
  refs := k.refs.trans h.refs
  entries w hw he := by
    obtain ⟨v, hv, hvr, hve⟩ := h.entries w hw he
    obtain ⟨x, hx, hxr, hxe⟩ := k.entries v hv hve
    exact ⟨x, hx, hxr.trans hvr, hxe⟩
  sees i := (h.sees i).trans (k.sees i)

/-- Each warp changes on its own. -/
theorem map (s : State) {f : Warp → Warp} (hr : ∀ w, (f w).ref = w.ref) (he : ∀ w, w.AtEntry pc → (f w).AtEntry pc) :
    Sampled pc s { s with x := { s.x with warps := s.x.warps.map f } } where
  blocks := rfl
  refs := by simp [hr]
  entries w hw h := ⟨f w, List.mem_map_of_mem hw, hr w, he w h⟩
  sees i := ⟨⟨rfl, rfl, rfl, rfl, fun _ => rfl⟩, fun _ _ _ => rfl⟩

theorem updWarp (s : State) (r : WarpRef) {f : Warp → Warp} (hr : ∀ w, (f w).ref = w.ref)
    (he : ∀ w, w.AtEntry pc → (f w).AtEntry pc) : Sampled pc s (s.updWarp r f) := by
  refine map s (fun w => ?_) fun w hw => ?_
  · split
    · exact hr w
    · rfl
  · split
    · exact he w hw
    · exact hw

theorem setWarp (s : State) {w : Warp} (h : w.AtEntry pc) : Sampled pc s (s.setWarp w) := by
  refine map s (fun v => ?_) fun v hv => ?_
  · split
    · exact Eq.symm ‹_›
    · rfl
  · split
    · exact h
    · exact hv

theorem updLoupe (s : State) (d : Nat) (f : LoupeCluster → LoupeCluster) : Sampled pc s (s.updLoupe d f) :=
  of_warps rfl rfl <|
    (OnlyReads.updDie s d (f := fun x => { x with loupe := f x.loupe }) fun _ => rfl).sameMap.sees rfl

theorem updLaunch (s : State) (uid : Nat) (f : Launch → Launch) : Sampled pc s (s.updLaunch uid f) :=
  of_warps rfl rfl fun _ => ⟨⟨rfl, rfl, rfl, rfl, fun _ => rfl⟩, fun _ _ _ => rfl⟩

theorem nextOp (s : State) (n : Nat) : Sampled pc s { s with nextOp := n } :=
  of_warps rfl rfl fun _ => ⟨⟨rfl, rfl, rfl, rfl, fun _ => rfl⟩, fun _ _ _ => rfl⟩

end Sampled

/-! ### A warp at the entry leaves for a loupe core -/

/-- A warp that waits at no instruction has no wait to end. -/
theorem State.endWait_not_parked {s : State} {r : WarpRef} {slot : Bool} {k : Park}
    (h : ∀ w, s.warp? r = some w → (∀ p, w.path? slot = some p → p.park ≠ k) ∧ w.frozen = none) : s.endWait r slot k = s := by
  have hlive : (match s.ctxAt? r slot with
      | some c => if c.p.park = k then c.waitDone s (decodedLen (s.decodeAt c.l c.p.pc)) else s
      | none => s) = s := by
    split
    · rename_i c hc
      obtain ⟨-, -, -, hw, -, -, hp⟩ := State.ctxAt?_some hc
      rw [if_neg ((h _ hw).1 _ hp)]
    · rfl
  have hfrozen : s.endFrozen r slot k none = s := by
    unfold State.endFrozen
    split
    · rename_i w l b hw hl hb
      simp only [(h w hw).2]
    · rfl
  rw [State.endWait]
  exact (congrArg (fun t => t.endFrozen r slot k none) hlive).trans hfrozen

@[simp] theorem State.film_nil (s : State) (w : Warp) : s.film w [] = s := by
  unfold State.film
  split <;> rfl

/-- A landing changes nothing of a warp at the entry. -/
theorem Sampled.land {pc : Word} {s : State} {r : WarpRef} (h : ∀ w, s.warp? r = some w → w.AtEntry pc) (slot : Bool) :
    Sampled pc s (s.land r slot) ∧ ∀ w, (s.land r slot).warp? r = some w → w.AtEntry pc := by
  unfold State.land
  split
  · exact ⟨refl s, h⟩
  · rename_i w hw
    split
    · exact ⟨refl s, h⟩
    · rename_i p hp
      have he := h w hw
      have hwrites : p.writes = [] := by
        cases slot
        · cases he.p0.symm.trans hp; rfl
        · cases he.p1.symm.trans hp
      rw [he.landPath, hwrites]
      change Sampled pc s ((s.setWarp w).film w []) ∧ ∀ v, ((s.setWarp w).film w []).warp? r = some v → v.AtEntry pc
      rw [State.film_nil]
      refine ⟨setWarp s he, fun v hv => ?_⟩
      rw [State.warp?_setWarp, if_pos (State.warp?_ref hw).symm, hw] at hv
      exact Option.some.inj hv ▸ he

theorem Sampled.sendToLoupe {pc : Word} {s : State} {r : WarpRef} (h : ∀ w, s.warp? r = some w → w.AtEntry pc) :
    Sampled pc s (s.sendToLoupe r) := by
  have hwaits : s.endSlotWaits r = s := by
    have hone (slot : Bool) : s.endWait r slot .loupeSlot = s :=
      State.endWait_not_parked fun w hw => ⟨fun p hp => by rw [(h w hw).not_parked hp]; decide, (h w hw).frozen⟩
    unfold State.endSlotWaits State.endWaits
    rw [hone, hone]
  unfold State.sendToLoupe
  split
  · exact refl s
  · exact refl s
  · split
    · rw [hwaits]
      obtain ⟨h0, e0⟩ := land h false
      obtain ⟨h1, -⟩ := land e0 true
      exact (h0.trans h1).trans (updWarp _ r (fun _ => rfl) fun w hw => ⟨hw.p0, hw.p1, hw.frozen, hw.exited, hw.sregs, hw.vregs⟩)
    · refine (nextOp s (s.nextOp + 1)).trans (updWarp _ r (fun w => ?_) fun w hw => ?_)
      · split <;> rfl
      · split
        · exact hw
        · exact ⟨hw.p0, hw.p1, hw.frozen, hw.exited, hw.sregs, hw.vregs⟩

/-- No die samples a launch. -/
def State.NoSample (s : State) (uid : Nat) : Prop := ∀ l, s.launch? uid = some l → l.sampled = []

theorem State.takeSample_of_noSample {s : State} {l : Launch} (h : s.NoSample l.uid) (d block : Nat) : s.takeSample l d block = s := by
  unfold State.takeSample
  cases hl : s.launch? l.uid with
  | none => rfl
  | some a => simp [h a hl]

theorem Sampled.transferOrSkip {pc : Word} {s : State} {r : WarpRef} (h : ∀ w, s.warp? r = some w → w.AtEntry pc) :
    Sampled pc s (s.transferOrSkip r) := by
  unfold State.transferOrSkip
  extract_lets d
  split
  · exact sendToLoupe h
  · exact updLoupe s _ _

/-- The sample of a launch, when the warp that is taken stands at the entry. -/
theorem Sampled.takeSample {pc : Word} {s : State} {l : Launch} {block : Nat}
    (h : ∀ w, s.warp? ⟨l.uid, block, 0⟩ = some w → w.AtEntry pc) (d : Nat) : Sampled pc s (s.takeSample l d block) := by
  unfold State.takeSample
  split
  · extract_lets u
    have hu : Sampled pc s u := updLaunch s _ _
    have hw : ∀ w, u.warp? ⟨l.uid, block, 0⟩ = some w → w.AtEntry pc := h
    split
    · exact hu.trans (transferOrSkip hw)
    · exact hu
  · exact refl s

/-! ### The warps of a block start -/

theorem State.startWarps_eq (s : State) (b : Block) (entry : Nat) (ns : List Nat) :
    ∃ vs, s.startWarps b entry ns = { s with x := { s.x with warps := s.x.warps ++ vs } } ∧
      vs.map Warp.ref = (ns.map fun n => ⟨b.launch, b.id, n⟩) ∧ ∀ v ∈ vs, v.AtEntry (BitVec.ofNat 32 entry) := by
  induction ns generalizing s with
  | nil => exact ⟨[], by rw [State.startWarps, List.append_nil], rfl, fun _ hv => absurd hv List.not_mem_nil⟩
  | cons n ns ih =>
    unfold State.startWarps
    extract_lets x
    obtain ⟨vs, heq, hrefs, hall⟩ := ih { s with x := { s.x with warps := s.x.warps ++ [x] } }
    refine ⟨x :: vs, ?_, ?_, ?_⟩
    · exact heq.trans (congrArg (fun ws => { s with x := { s.x with warps := ws } }) (List.append_assoc s.x.warps [x] vs))
    · rw [List.map_cons, hrefs]; rfl
    · simp only [List.forall_mem_cons]
      exact ⟨Warp.fresh_atEntry _ _ _ _, hall⟩

end Sys2Proof.Machine
end

section
/-! SUPPORT. The blocks of a launch cluster are placed one after another (07 R126, R127), and none of them disturbs those before
it. -/

namespace Sys2Proof.Machine

/-! ### One block -/

/-- The read of a launch's arguments for one block (07 R126). -/
def State.argsOf (s : State) (l : Launch) : VaRead := s.readVa none (s.mmu l.iface) l.record.world l.record.argVa l.record.argSize

/-- The number of the block of a rank in launch cluster j. -/
def Launch.blockAt (l : Launch) (j rank : Nat) : Nat := j * l.record.cluster + rank

/-- The block of a rank with its core, as its arguments have been read. -/
def State.blockAt (s : State) (l : Launch) (j : Nat) (p : Placement) (x : Nat × Nat) : Block :=
  Block.fresh l.uid (l.blockAt j x.2) p x.1 (s.argsOf l).bytes (l.record.accn * x.2)

/-- The block is there, its arguments have been read. -/
def State.brought (s : State) (l : Launch) (j : Nat) (p : Placement) (x : Nat × Nat) : State :=
  let t := (s.argsOf l).s.sendStart p.die l.record.world (s.argsOf l).bytes
  { t with x := { t.x with blocks := t.x.blocks ++ [s.blockAt l j p x] } }

/-- One block of a launch cluster is placed. -/
def State.placeBlock (s : State) (l : Launch) (j : Nat) (p : Placement) (x : Nat × Nat) : State :=
  ((s.brought l j p x).startWarps (s.blockAt l j p x) l.record.entry (List.range l.record.warps)).takeSample l p.die (l.blockAt j x.2)

theorem State.placeBlocks_cons {s : State} {l : Launch} (h : (s.argsOf l).fault = none) (j : Nat) (p : Placement) (x : Nat × Nat)
    (rest : List (Nat × Nat)) : s.placeBlocks l j p (x :: rest) = (s.placeBlock l j p x).placeBlocks l j p rest := by
  rw [State.placeBlocks]
  have h' : (s.readVa none (s.mmu l.iface) l.record.world l.record.argVa l.record.argSize).fault = none := h
  simp only [h']
  rfl

/-- The read of the arguments meets the same fault, or none, in states that see the same map. -/
theorem Sees.argsOf {s t : State} {l : Launch} (h : Sees (s.mmu l.iface) s t) :
    (t.argsOf l).fault = (s.argsOf l).fault ∧ (SamePorts s t → (t.argsOf l).bytes = (s.argsOf l).bytes) := by
  have hr := h.readPieces_same l.record.world (pieces l.record.argVa l.record.argSize)
  unfold State.argsOf State.readVa
  rwa [h.mmu]

/-- No warp of a block is there. -/
def State.FreeOf (s : State) (launch block : Nat) : Prop := ∀ w ∈ s.x.warps, ¬(w.ref.launch = launch ∧ w.ref.block = block)

/-- Blocks stay, and warps at the entry stay there. -/
structure KeepsStarted (pc : Word) (s t : State) : Prop where
  blocks : s.x.blocks ⊆ t.x.blocks
  entries : ∀ w ∈ s.x.warps, w.AtEntry pc → ∃ v ∈ t.x.warps, v.ref = w.ref ∧ v.AtEntry pc

theorem KeepsStarted.trans {pc : Word} {s t u : State} (h : KeepsStarted pc s t) (k : KeepsStarted pc t u) : KeepsStarted pc s u where
  blocks _ hb := k.blocks (h.blocks hb)
  entries w hw he := by
    obtain ⟨v, hv, hvr, hve⟩ := h.entries w hw he
    obtain ⟨x, hx, hxr, hxe⟩ := k.entries v hv hve
    exact ⟨x, hx, hxr.trans hvr, hxe⟩

/-- A block has started: it holds the arguments in its BSM, and its warps stand at the entry. -/
structure Started (t : State) (l : Launch) (j : Nat) (p : Placement) (x : Nat × Nat) (args : List Byte) : Prop where
  block : Block.fresh l.uid (l.blockAt j x.2) p x.1 args (l.record.accn * x.2) ∈ t.x.blocks
  warps : ∀ n < l.record.warps, ∃ w ∈ t.x.warps, w.ref = ⟨l.uid, l.blockAt j x.2, n⟩ ∧ w.AtEntry (BitVec.ofNat 32 l.record.entry)

theorem Started.kept {s t : State} {l : Launch} {j : Nat} {p : Placement} {x : Nat × Nat} {args : List Byte}
    (h : Started s l j p x args) (k : KeepsStarted (BitVec.ofNat 32 l.record.entry) s t) : Started t l j p x args where
  block := k.blocks h.block
  warps n hn := by
    obtain ⟨w, hw, hr, he⟩ := h.warps n hn
    obtain ⟨v, hv, hvr, hve⟩ := k.entries w hw he
    exact ⟨v, hv, hvr.trans hr, hve⟩

/-- What the placement of one block leaves. -/
structure BlockPlaced (s t : State) (l : Launch) (j : Nat) (p : Placement) (x : Nat × Nat) : Prop where
  started : Started t l j p x (s.argsOf l).bytes
  keeps : KeepsStarted (BitVec.ofNat 32 l.record.entry) s t
  sees : Sees (s.mmu l.iface) s t
  noSample : s.NoSample l.uid → t.NoSample l.uid
  free : ∀ block, block ≠ l.blockAt j x.2 → s.FreeOf l.uid block → t.FreeOf l.uid block

/-- A block is placed, when no die samples its launch or none of its warps was there. -/
theorem State.placeBlock_placed {s : State} {l : Launch} {j : Nat} {p : Placement} {x : Nat × Nat}
    (h : s.NoSample l.uid ∨ s.FreeOf l.uid (l.blockAt j x.2)) : BlockPlaced s (s.placeBlock l j p x) l j p x := by
  have hread : OnlyReads s ((s.argsOf l).s.sendStart p.die l.record.world (s.argsOf l).bytes) :=
    (OnlyReads.readVa s _ _ _ _).trans (OnlyReads.sendStart _ _ _ _)
  have hsees : Sees (s.mmu l.iface) s ((s.argsOf l).s.sendStart p.die l.record.world (s.argsOf l).bytes) :=
    (Sees.readPieces s _ _ _).trans (Sees.stampMessage _ _ _)
  have hlaunch := hread.launch? l.uid
  obtain ⟨vs, heq, hrefs, hall⟩ :=
    (s.brought l j p x).startWarps_eq (s.blockAt l j p x) l.record.entry (List.range l.record.warps)
  unfold State.placeBlock
  rw [heq]
  unfold State.brought
  extract_lets t
  change OnlyReads s t at hread
  change Sees _ s t at hsees
  change t.launch? l.uid = _ at hlaunch
  generalize hu : ({ t with x := { t.x with
    blocks := t.x.blocks ++ [s.blockAt l j p x], warps := t.x.warps ++ vs } } : State) = u
  have hub : u.x.blocks = s.x.blocks ++ [s.blockAt l j p x] := by rw [← hu, ← hread.blocks]
  have huw : u.x.warps = s.x.warps ++ vs := by rw [← hu, ← hread.warps]
  have hus : Sees (s.mmu l.iface) s u := by
    rw [← hu]
    exact hsees.trans ⟨⟨rfl, rfl, rfl, rfl, fun _ => rfl⟩, fun _ _ _ => rfl⟩
  have hul : u.launch? l.uid = s.launch? l.uid := by rw [← hu]; exact hlaunch
  have hsampled : Sampled (BitVec.ofNat 32 l.record.entry) u (u.takeSample l p.die (l.blockAt j x.2)) := by
    obtain h | h := h
    · rw [State.takeSample_of_noSample (l := l) fun a ha => h a (hul ▸ ha)]
      exact Sampled.refl u
    · refine Sampled.takeSample (fun w hw => ?_) p.die
      have hm := mem_of_findBy hw
      rw [huw, List.mem_append] at hm
      have hr := State.warp?_ref hw
      exact hm.elim (fun hm => absurd ⟨congrArg WarpRef.launch hr, congrArg WarpRef.block hr⟩ (h w hm)) (hall w)
  have hwarps {w : Warp} : w ∈ u.x.warps ↔ w ∈ s.x.warps ∨ w ∈ vs := by rw [huw, List.mem_append]
  refine ⟨⟨?_, fun n hn => ?_⟩, ⟨?_, fun w hw => hsampled.entries w (hwarps.2 (.inl hw))⟩, hus.trans (hsampled.sees _),
    fun hn => ?_, fun block hne hfree w hw => ?_⟩
  · rw [hsampled.blocks, hub]
    exact List.mem_append_right _ (List.mem_singleton_self _)
  · have hm : (⟨l.uid, l.blockAt j x.2, n⟩ : WarpRef) ∈ vs.map Warp.ref := by
      rw [hrefs]
      exact List.mem_map_of_mem (f := fun n => (⟨l.uid, l.blockAt j x.2, n⟩ : WarpRef)) (List.mem_range.2 hn)
    obtain ⟨v, hv, hvr⟩ := List.mem_map.1 hm
    obtain ⟨w, hw, hwr, hwe⟩ := hsampled.entries v (hwarps.2 (.inr hv)) (hall v hv)
    exact ⟨w, hw, hwr.trans hvr, hwe⟩
  · rw [hsampled.blocks, hub]
    exact List.subset_append_left _ _
  · have hnu : u.NoSample l.uid := fun a ha => hn a (hul ▸ ha)
    rwa [State.takeSample_of_noSample hnu]
  · have hr : w.ref ∈ u.x.warps.map Warp.ref := hsampled.refs ▸ List.mem_map_of_mem hw
    obtain ⟨v, hv, hvr⟩ := List.mem_map.1 hr
    rw [← hvr]
    obtain hv | hv := hwarps.1 hv
    · exact hfree v hv
    · obtain ⟨n, -, hn⟩ := List.mem_map.1 (hrefs ▸ List.mem_map_of_mem hv : v.ref ∈ _)
      exact fun hc => hne (hc.2.symm.trans (congrArg WarpRef.block hn).symm)

/-! ### All blocks of a launch cluster -/

/-- The blocks of a launch cluster are placed: none disturbs those before it, and each starts with the bytes it has read. -/
theorem State.placeBlocks_started {s : State} {l : Launch} (j : Nat) (p : Placement) {xs : List (Nat × Nat)}
    (hfault : (s.argsOf l).fault = none) (hnodup : (xs.map Prod.snd).Nodup)
    (hfree : s.NoSample l.uid ∨ ∀ x ∈ xs, s.FreeOf l.uid (l.blockAt j x.2)) :
    KeepsStarted (BitVec.ofNat 32 l.record.entry) s (s.placeBlocks l j p xs) ∧
      (∀ x ∈ xs, ∃ args, Started (s.placeBlocks l j p xs) l j p x args) ∧
      ∀ x ∈ xs.head?, Started (s.placeBlocks l j p xs) l j p x (s.argsOf l).bytes := by
  induction xs generalizing s with
  | nil => exact ⟨⟨List.Subset.refl _, fun w hw he => ⟨w, hw, rfl, he⟩⟩, nofun, nofun⟩
  | cons x xs ih =>
    rw [State.placeBlocks_cons hfault]
    obtain ⟨hx, hnodup⟩ := List.nodup_cons.1 hnodup
    have hp : BlockPlaced s (s.placeBlock l j p x) l j p x :=
      State.placeBlock_placed (hfree.imp_right fun h => h x List.mem_cons_self)
    have hrest : (s.placeBlock l j p x).NoSample l.uid ∨
        ∀ y ∈ xs, (s.placeBlock l j p x).FreeOf l.uid (l.blockAt j y.2) := by
      refine hfree.imp hp.noSample fun h y hy => hp.free _ (fun heq => hx ?_) (h y (List.mem_cons_of_mem _ hy))
      exact Nat.add_left_cancel heq ▸ List.mem_map_of_mem hy
    obtain ⟨hkeeps, hstarted, -⟩ := ih (hp.sees.argsOf.1.trans hfault) hnodup hrest
    have hhead := hp.started.kept hkeeps
    refine ⟨hp.keeps.trans hkeeps, ?_, fun y hy => Option.some.inj hy ▸ hhead⟩
    exact List.forall_mem_cons.2 ⟨⟨_, hhead⟩, hstarted⟩

end Sys2Proof.Machine
end

section
/-! SUPPORT. BLOCK_PLACEMENT of one launch cluster (07 R126, R127): its cluster and engine are set up, its blocks are placed, and the
launch goes on. -/

namespace Sys2Proof.Machine

/-! ### The launch cluster is set up -/

/-- A launch with one more launch cluster placed. -/
def Launch.withPlaced (l : Launch) (j : Nat) : Launch := { l with placed := l.placed ++ [j] }

/-- The state in which the first block of a launch cluster is placed. -/
def State.opened (s : State) (l : Launch) (j : Nat) (p : Placement) : State :=
  (s.updLaunch l.uid fun l => l.withPlaced j).openCluster (l.withPlaced j) j p

theorem State.placeCluster_eq {s : State} {l : Launch} (h : s.launch? l.uid = some l) (j : Nat) (p : Placement) :
    s.placeCluster l j p = (s.opened l j p).placeBlocks (l.withPlaced j) j p p.cores.zipIdx := by
  have hl := State.launch?_updLaunch_same h (f := fun l => l.withPlaced j) fun _ => rfl
  have hgetD : ((s.updLaunch l.uid fun l => l.withPlaced j).launch? l.uid).getD l = l.withPlaced j := by rw [hl]; rfl
  exact congrArg (fun a => ((s.updLaunch l.uid fun l => l.withPlaced j).openCluster a j p).placeBlocks a j p p.cores.zipIdx) hgetD

/-- Only spans, launch clusters and engines change when a launch cluster is set up. -/
theorem State.openCluster_eq (s : State) (l : Launch) (j : Nat) (p : Placement) :
    ∃ spans clusters engines, s.openCluster l j p =
      { s with x := { s.x with spans := spans, clusters := clusters, engines := engines } } := by
  unfold State.openCluster
  extract_lets r k spans t
  split
  · exact ⟨_, _, s.x.engines, rfl⟩
  · exact ⟨_, _, _, rfl⟩

section
variable (s : State) (l : Launch) (j : Nat) (p : Placement)

theorem State.opened_launches : (s.opened l j p).x.launches = (s.updLaunch l.uid fun l => l.withPlaced j).x.launches := by
  obtain ⟨a, b, c, h⟩ := (s.updLaunch l.uid fun l => l.withPlaced j).openCluster_eq (l.withPlaced j) j p
  rw [State.opened, h]

theorem State.opened_warps : (s.opened l j p).x.warps = s.x.warps := by
  obtain ⟨a, b, c, h⟩ := (s.updLaunch l.uid fun l => l.withPlaced j).openCluster_eq (l.withPlaced j) j p
  rw [State.opened, h]
  rfl

theorem State.opened_sees : (∀ i, Sees i s (s.opened l j p)) ∧ SamePorts s (s.opened l j p) := by
  obtain ⟨a, b, c, h⟩ := (s.updLaunch l.uid fun l => l.withPlaced j).openCluster_eq (l.withPlaced j) j p
  rw [State.opened, h]
  exact ⟨fun _ => ⟨⟨rfl, rfl, rfl, rfl, fun _ => rfl⟩, fun _ _ _ => rfl⟩, fun _ => ⟨rfl, rfl⟩⟩

end

theorem State.opened_launch? {s : State} {l : Launch} (h : s.launch? l.uid = some l) (j : Nat) (p : Placement) :
    (s.opened l j p).launch? l.uid = some (l.withPlaced j) := by
  have hl := State.launch?_updLaunch_same h (f := fun l => l.withPlaced j) fun _ => rfl
  unfold State.launch? at hl ⊢
  rwa [State.opened_launches]

/-! ### The blocks of a placed launch cluster -/

/-- A placement names one core for each block of the launch cluster. -/
theorem State.length_of_placeOk {s : State} {l : Launch} {p : Placement} (h : s.placeOk l p = true) :
    p.cores.length = l.record.cluster := by
  simp only [State.placeOk, Bool.and_eq_true, decide_eq_true_eq] at h
  obtain ⟨⟨⟨⟨⟨-, hlength⟩, -⟩, -⟩, -⟩, -⟩ := h
  exact hlength

/-- The blocks of a launch cluster start, that of rank 0 with the arguments as they stand, when no die samples its launch or none
of its warps was there. -/
theorem State.placeCluster_started {s : State} {l : Launch} {j : Nat} {p : Placement} (h : s.launch? l.uid = some l)
    (hcores : p.cores.length = l.record.cluster) (hfault : (s.argsOf l).fault = none)
    (hfree : l.sampled = [] ∨ ∀ k < l.record.cluster, s.FreeOf l.uid (l.blockAt j k)) :
    ∀ k < l.record.cluster, ∃ core ∈ p.cores, ∃ bytes,
      Started (s.placeCluster l j p) l j p (core, k) bytes ∧ (k = 0 → bytes = (s.argsOf l).bytes) := by
  rw [State.placeCluster_eq h]
  obtain ⟨hsees, hports⟩ := s.opened_sees l j p
  obtain ⟨hf, hbytes⟩ := (hsees (s.mmu l.iface)).argsOf (l := l)
  have hlaunch := State.opened_launch? h j p
  have hwarps := s.opened_warps l j p
  generalize s.opened l j p = u at *
  have hnodup : (p.cores.zipIdx.map Prod.snd).Nodup := by
    rw [List.zipIdx_map_snd]
    exact List.nodup_range'
  have hfree' : u.NoSample l.uid ∨ ∀ x ∈ p.cores.zipIdx, u.FreeOf l.uid (l.blockAt j x.2) := by
    refine hfree.imp (fun hn a ha => ?_) fun hn x hx w hw => ?_
    · cases hlaunch.symm.trans ha
      exact hn
    · obtain ⟨-, hk, -⟩ := List.mem_zipIdx hx
      exact hn x.2 (by omega) w (hwarps ▸ hw)
  obtain ⟨-, hstarted, hhead⟩ := u.placeBlocks_started (l := l.withPlaced j) j p (hf.trans hfault) hnodup hfree'
  intro k hk
  have hkl : k < p.cores.length := hcores ▸ hk
  have hx : (p.cores[k], k) ∈ p.cores.zipIdx := List.mk_mem_zipIdx_iff_getElem?.2 (List.getElem?_eq_getElem hkl)
  refine ⟨p.cores[k], List.getElem_mem hkl, ?_⟩
  by_cases hk0 : k = 0
  · have hx0 : (p.cores[k], k) ∈ p.cores.zipIdx.head? := by
      subst hk0
      rw [List.head?_zipIdx, List.head?_eq_getElem?, List.getElem?_eq_getElem hkl]
      rfl
    obtain ⟨hb, hw⟩ := hhead _ hx0
    exact ⟨_, ⟨hb, hw⟩, fun _ => hbytes hports⟩
  · obtain ⟨bytes, hb, hw⟩ := hstarted _ hx
    exact ⟨bytes, ⟨hb, hw⟩, fun h0 => absurd h0 hk0⟩

/-- A launch with an unreleased block does not complete. -/
theorem State.settleLaunch_of_resident {s : State} {uid : Nat} {b : Block} (hb : b ∈ s.x.blocks) (hu : b.launch = uid)
    (hr : b.released = false) : s.settleLaunch uid = s := by
  have hres : (s.x.blocks.any fun b => decide (b.launch = uid) && !b.released) = true := by
    rw [List.any_eq_true]
    exact ⟨b, hb, by simp [hu, hr]⟩
  unfold State.settleLaunch
  split
  · rfl
  · simp only [hres, if_true]
    split <;> rfl

theorem exec_blockPlacement {s : State} {uid j : Nat} {l : Launch} {p : Placement} (h : s.launch? uid = some l)
    (hstage : l.stage = .running) (hstop : l.stopping = none) (hcores : l.record.cores = false) (hmay : l.mayPlace j = true)
    (hok : s.placeOk l p = true) (hroom : s.roomFor l j p = true) (hrec : s.recovering = false) :
    exec (.blockPlacement uid j [p]) s = .next ((s.placeCluster l j p).settleLaunch uid) := by
  have hlist : l.placeList j [p] = some [(j, p)] := by simp [Launch.placeList, hcores, hmay]
  have hall : s.placeAll uid [(j, p)] = some (s.placeCluster l j p) := by simp [State.placeAll, h, hstop, hok, hroom]
  show execBlockPlacement uid j [p] s = _
  simp [execBlockPlacement, h, hstage, hstop, hrec, hlist, hall]

end Sys2Proof.Machine
end

section
/-! SUPPORT. The events of a launch (07 R126 to R128, R131), each with what the model makes of it. -/

namespace Sys2Proof.Machine

variable {s : State} {uid : Nat} {l : Launch}

/-! ### Ageing (07 R131) -/

theorem exec_priorityAging {i q : Nat} (hhead : (s.headLevel i q).isSome = true) (hlt : (s.queue i q).aged < 3)
    (hdue : 21000000 * ((s.queue i q).aged + 1) ≤ (s.time - (s.queue i q).headClk).toNat) :
    exec (.priorityAging i q) s = .next (s.updQueue i q fun x => { x with aged := x.aged + 1 }) :=
  if_pos ⟨hhead, hlt, hdue⟩

/-! ### The queue exit (07 R131, R393) -/

/-- A launch leaves its queue in the stage of checks 1 to 5, as they stand before it does. -/
theorem launchQueueExit_spec {s1 : State} {i q : Nat} (h : s.chooseLaunch = some ((i, q), s1)) (hrec : s.recovering = false) :
    Runs .launchQueueExit s fun t => t.nextUid = s.nextUid + 1 ∧ ∃ l ∈ t.x.launches, l.uid = s.nextUid ∧ l.iface = i ∧ l.queue = q ∧
      l.record = LaunchRecord.ofBits (leNat (s1.entryBytes i q (s1.queue i q).head 256)) ∧
      (l.stage = .dependences ∨ ∃ st, l.stage = .completed st ∧ st ≠ .ok) ∧
      (l.record.ok (s1.qcountOf i) = false → l.stage = .completed .faulted) ∧
      (l.record.ok (s1.qcountOf i) = true → l.record.faultVa = 0 → l.stage = stageAfter (s.laterCheck i l.record)) := by
  obtain ⟨cs, hs1⟩ := State.chooseLaunch_eq h
  have huid : s1.nextUid = s.nextUid := by rw [hs1]
  have hchecks : ChecksAs s (s1.taking i q) := (hs1 ▸ ChecksAs.cursors s cs).trans (s1.taking_checksAs i q)
  obtain ⟨hnext, st, ⟨l, hl, hu, hi, hq, hr, hst⟩, hchecked⟩ := State.queueChecks_spec (s1.taking_holds i q)
  refine ⟨_, exec_launchQueueExit h hrec, hnext.trans (congrArg (· + 1) huid), l, hl, hu.trans huid, hi, hq, hr, hst ▸ hchecked.ends, ?_, ?_⟩
  · intro hbad
    rw [hst]
    refine hchecked.bad ?_
    rw [← hr, (s1.taking_checksAs i q).qcountOf]
    exact hbad
  · intro hgood hv
    rw [hst, hr, ← hchecks.laterCheck]
    refine hchecked.later ?_ (hr ▸ hv)
    rw [← hr, (s1.taking_checksAs i q).qcountOf]
    exact hgood

/-! ### Dependences (07 R131, R393) -/

/-- The dependences of a launch that are valid. -/
def Launch.valid (l : Launch) : List DWord := l.record.deps.filter fun d => d.getLsbD 63

theorem exec_dependenceResolution_goesOn (h : s.launch? uid = some l) (hstage : l.stage = .dependences)
    (hdeps : ∀ d ∈ l.valid, s.depStatus l.iface d = some .ok) :
    exec (.dependenceResolution uid) s = .next (s.updLaunch uid fun l => { l with stage := .placement }) := by
  have hany : ((l.valid.map fun d => s.depStatus l.iface d).any fun x => decide (x ≠ none) && decide (x ≠ some .ok)) = false := by
    rw [List.any_map, List.any_eq_false]
    intro d hd
    simp [hdeps d hd]
  have hall : ((l.valid.map fun d => s.depStatus l.iface d).all fun x => decide (x = some .ok)) = true := by
    rw [List.all_map, List.all_eq_true]
    intro d hd
    simp [hdeps d hd]
  unfold Launch.valid at hany hall
  show execDependenceResolution uid s = _
  simp only [execDependenceResolution, h, hstage, hany, hall]
  rfl

theorem exec_dependenceResolution_cancels (h : s.launch? uid = some l) (hstage : l.stage = .dependences)
    (hdep : ∃ d ∈ l.valid, ∃ st, s.depStatus l.iface d = some st ∧ st ≠ .ok) :
    exec (.dependenceResolution uid) s = .next (s.completeLaunch uid .cancelled) := by
  obtain ⟨d, hd, st, hst, hne⟩ := hdep
  have hany : ((l.valid.map fun d => s.depStatus l.iface d).any fun x => decide (x ≠ none) && decide (x ≠ some .ok)) = true := by
    rw [List.any_map, List.any_eq_true]
    exact ⟨d, hd, by simp [hst, hne]⟩
  unfold Launch.valid at hany
  show execDependenceResolution uid s = _
  simp only [execDependenceResolution, h, hstage, hany]
  rfl

/-! ### Dispatch (04 R62; 27 R377) -/

/-- An image in the code store stands at the place that the store names. -/
theorem storeImage_getElem? (code : List CodeImage) (bytes : List Byte) :
    ((storeImage code bytes).1[(storeImage code bytes).2]?.map CodeImage.bytes) = some bytes := by
  unfold storeImage
  split
  · rename_i k hk
    obtain ⟨hlt, hbytes, -⟩ := List.findIdx?_eq_some_iff_getElem.1 hk
    rw [List.getElem?_eq_getElem hlt]
    exact congrArg some (of_decide_eq_true hbytes)
  · rw [List.getElem?_concat_length]
    rfl

/-- The read of a launch's image (04 R62). -/
def State.imageRead (s : State) (l : Launch) : VaRead := s.readVa none (s.mmu l.iface) l.record.world l.record.codeVa l.record.codeSize

/-- What the dispatch makes of a launch with the image that it has read. -/
def State.dispatch (s : State) (bytes : List Byte) (l : Launch) : Launch :=
  { l with
    stage := .running, image := (storeImage s.x.code bytes).2, sig := signature bytes l.record
    privileged := decide (l.iface = 0) && (s.queue 0 l.queue).test && decide (l.record.world = 0) }

/-- The state of a launch's dispatch: the code store holds the image. -/
def State.dispatched (s : State) (l : Launch) (bytes : List Byte) : State :=
  ({ s with x := { s.x with code := (storeImage s.x.code bytes).1 } } : State).updLaunch l.uid fun a =>
    { a with
      stage := (s.dispatch bytes l).stage, image := (s.dispatch bytes l).image, sig := (s.dispatch bytes l).sig
      privileged := (s.dispatch bytes l).privileged }

theorem State.dispatched_launch? (h : s.launch? l.uid = some l) (bytes : List Byte) :
    (s.dispatched l bytes).launch? l.uid = some (s.dispatch bytes l) :=
  State.launch?_updLaunch_same (s := { s with x := { s.x with code := (storeImage s.x.code bytes).1 } }) h fun _ => rfl

/-- Beside the launch itself a dispatch notes a missing host and chooses the samples. -/
theorem exec_launchDispatch (h : s.launch? uid = some l) (hstage : l.stage = .placement) (hrec : s.recovering = false)
    (hfault : (s.imageRead l).fault = none) : ∃ ds, exec (.launchDispatch uid) s =
      .next ((((s.imageRead l).s.dispatched l (s.imageRead l).bytes).noteHostless l).sampleLaunch uid l.record.codeVa ds) := by
  have hif : ¬(l.stage ≠ .placement ∨ s.recovering = true) := by simp [hstage, hrec]
  have huid := State.launch?_uid h
  have hexec : exec (.launchDispatch uid) s = execLaunchDispatch uid s := rfl
  rw [hexec, execLaunchDispatch]
  simp only [h]
  rw [if_neg hif]
  unfold State.imageRead at hfault ⊢
  generalize s.readVa none (s.mmu l.iface) l.record.world l.record.codeVa l.record.codeSize = v at hfault ⊢
  obtain ⟨u, bytes, fault⟩ := v
  subst hfault huid
  exact ⟨_, rfl⟩

/-- A dispatch whose read meets no fault sets the launch going. -/
theorem launchDispatch_spec (h : s.launch? uid = some l) (hstage : l.stage = .placement) (hrec : s.recovering = false)
    (hfault : (s.imageRead l).fault = none) : Runs (.launchDispatch uid) s fun t => ∃ l', t.launch? uid = some l' ∧
      l'.stage = .running ∧ t.imageOf l' = (s.imageRead l).bytes ∧ l'.sig = signature (s.imageRead l).bytes l.record ∧
      (l'.privileged = true ↔ l.iface = 0 ∧ (s.queue 0 l.queue).test = true ∧ l.record.world = 0) := by
  have hread : OnlyReads s (s.imageRead l).s := OnlyReads.readVa s _ _ _ _
  obtain ⟨ds, hexec⟩ := exec_launchDispatch h hstage hrec hfault
  have huid := State.launch?_uid h
  subst huid
  generalize (s.imageRead l).s = u at hread hexec
  generalize (s.imageRead l).bytes = bytes at hexec ⊢
  have hnotes : OnlyNotes (u.dispatched l bytes) (((u.dispatched l bytes).noteHostless l).sampleLaunch l.uid l.record.codeVa ds) :=
    (OnlyNotes.noteHostless _ l).trans (OnlyNotes.sampleLaunch _ _ _ ds)
  obtain ⟨l', hl', hunnoted⟩ := hnotes.launch?_some (State.dispatched_launch? ((hread.launch? l.uid).trans h) bytes)
  have himage : l'.image = (storeImage u.x.code bytes).2 := congrArg Launch.image hunnoted
  have hpriv : l'.privileged = (decide (l.iface = 0) && (u.queue 0 l.queue).test && decide (l.record.world = 0)) :=
    congrArg Launch.privileged hunnoted
  refine ⟨_, hexec, l', hl', congrArg Launch.stage hunnoted, ?_, congrArg Launch.sig hunnoted, ?_⟩
  · rw [State.imageOf, himage, hnotes.code]
    exact congrArg (·.getD []) (storeImage_getElem? u.x.code bytes)
  · rw [hpriv, hread.queue]
    simp [and_assoc]

/-- A dispatch whose read meets a fault ends the launch. -/
theorem launchDispatch_fault (h : s.launch? uid = some l) (hstage : l.stage = .placement) (hrec : s.recovering = false)
    {x : FaultKind × Nat} (hfault : (s.imageRead l).fault = some x) : Runs (.launchDispatch uid) s fun t =>
      ∃ l', t.launch? uid = some l' ∧ l'.stage = .completed .faulted := by
  have hread : OnlyReads s (s.imageRead l).s := OnlyReads.readVa s _ _ _ _
  have hexec : exec (.launchDispatch uid) s = .next (((s.imageRead l).s.dispatcherRecord uid x.1 0).completeLaunch uid .faulted) := by
    show execLaunchDispatch uid s = _
    unfold State.imageRead at hfault ⊢
    simp [execLaunchDispatch, h, hstage, hrec, hfault]
  obtain ⟨l', hl', -⟩ := (OnlyNotes.dispatcherRecord (s.imageRead l).s uid x.1 0).launch?_some ((hread.launch? uid).trans h)
  exact ⟨_, hexec, _, State.completeLaunch_launch? hl' _, rfl⟩

/-! ### Release and energy (07 R127, R128) -/

theorem exec_blockRelease {id : Nat} {b : Block} (h : s.launch? uid = some l) (hb : s.block? uid id = some b)
    (hr : s.releasable b = true) : exec (.blockRelease uid id) s = .next (s.releaseBlock l b) := by
  show execBlockRelease uid id s = _
  simp [execBlockRelease, h, hb, hr]

theorem State.core_updCore (s : State) (k j : Nat) (f : CoreState → CoreState) :
    (s.updCore k f).core j = if j = k then f (s.core k) else s.core j := by
  by_cases h : j = k
  · subst h; simp [State.updCore, State.core, tget_tput_same]
  · simp [State.updCore, State.core, tget_tput_ne _ _ _ _ h, h]

end Sys2Proof.Machine
end

section
/-! SUPPORT. The placement of one launch cluster as its obligation states it (07 R126, R127). -/

namespace Sys2Proof.Machine

/-- BLOCK_PLACEMENT of one launch cluster. -/
theorem blockPlacement_spec {s : State} {uid j : Nat} {l : Launch} {p : Placement} (h : s.launch? uid = some l)
    (hstage : l.stage = .running) (hstop : l.stopping = none) (hcores : l.record.cores = false) (hmay : l.mayPlace j = true)
    (hok : s.placeOk l p = true) (hroom : s.roomFor l j p = true) (hrec : s.recovering = false) (hfault : (s.argsOf l).fault = none)
    (hfree : l.sampled = [] ∨ ∀ w ∈ s.x.warps, w.ref.launch = uid →
      w.ref.block < j * l.record.cluster ∨ (j + 1) * l.record.cluster ≤ w.ref.block) :
    Runs (.blockPlacement uid j [p]) s fun t => ∀ k < l.record.cluster,
      (∃ b ∈ t.x.blocks, b.launch = uid ∧ b.id = j * l.record.cluster + k ∧ b.die = p.die ∧ b.site = p.site ∧
        b.released = false ∧ b.core ∈ p.cores ∧ b.barriers = [] ∧ (k = 0 → b.bsm = writeBytes [] 0 (s.argsOf l).bytes)) ∧
      ∀ n < l.record.warps, ∃ w ∈ t.x.warps, w.ref = ⟨uid, j * l.record.cluster + k, n⟩ ∧ w.exited = 0 ∧ w.sregs = [] ∧ w.vregs = [] ∧
        w.p0 = some (Path.start (BitVec.ofNat 32 l.record.entry) (BitVec.allOnes 32)) ∧ w.p1 = none := by
  obtain rfl := State.launch?_uid h
  have hfree' : l.sampled = [] ∨ ∀ k < l.record.cluster, s.FreeOf l.uid (l.blockAt j k) := by
    refine hfree.imp_right fun hn k hk w hw ⟨hl, hb⟩ => ?_
    have hout := hn w hw hl
    rw [hb, Launch.blockAt, Nat.succ_mul] at hout
    omega
  have hplaced := State.placeCluster_started h (State.length_of_placeOk hok) hfault hfree'
  refine ⟨_, exec_blockPlacement h hstage hstop hcores hmay hok hroom hrec, fun k hk => ?_⟩
  obtain ⟨core, hcore, bytes, ⟨hblock, hwarps⟩, hbytes⟩ := hplaced k hk
  have hstays : (s.placeCluster l j p).settleLaunch l.uid = s.placeCluster l j p := State.settleLaunch_of_resident hblock rfl rfl
  rw [hstays]
  refine ⟨⟨_, hblock, rfl, rfl, rfl, rfl, rfl, hcore, rfl, fun hk0 => congrArg (writeBytes [] 0) (hbytes hk0)⟩, fun n hn => ?_⟩
  obtain ⟨w, hw, hr, he⟩ := hwarps n hn
  exact ⟨w, hw, hr, he.exited, he.sregs, he.vregs, he.p0, he.p1⟩

end Sys2Proof.Machine

namespace Sys2Proof

open Machine

/-- Settles O53: each event of a launch has its own lemma; only the conjuncts are put together here. -/
theorem launchEvents : Obligations.LaunchEvents := by
  unfold Obligations.LaunchEvents
  refine ⟨?aging, ?queueExit, ?dependences, ?dispatch, ?placement, ?release, ?energy⟩
  case aging =>
    intro s i q x hhead hlt hdue
    exact ⟨_, exec_priorityAging hhead hlt hdue, rfl, rfl, State.queue_updQueue_same s i q _⟩
  case queueExit =>
    intro s s1 i q h hrec
    obtain ⟨t, hexec, hnext, l, hl, hu, hi, hq, hr, hends, hbad, hlater⟩ := launchQueueExit_spec h hrec
    refine ⟨t, hexec, hnext, l, hl, hu, hi, hq, hr, hends, hbad, fun hgood hv => ?_, fun hgood hv hw => ?_⟩
    · rw [hlater hgood hv]
      cases s.laterCheck i l.record <;> rfl
    · rw [hlater hgood hv, State.laterCheck_world hw]
      rfl
  case dependences =>
    intro s uid l h hstage
    refine ⟨fun hdeps => ?_, fun hdep => ?_⟩
    · exact ⟨_, exec_dependenceResolution_goesOn h hstage hdeps, State.launch?_updLaunch_same h fun _ => rfl, rfl⟩
    · exact ⟨_, exec_dependenceResolution_cancels h hstage hdep, _, State.completeLaunch_launch? h _, rfl⟩
  case dispatch =>
    intro s uid l h hstage hrec
    exact ⟨launchDispatch_spec h hstage hrec, fun _ _ => launchDispatch_fault h hstage hrec⟩
  case placement =>
    intro s uid j l p h hstage hstop hcores hmay hok hroom hrec _
    exact blockPlacement_spec h hstage hstop hcores hmay hok hroom hrec
  case release =>
    intro s uid id l b h hb hr
    obtain rfl := State.launch?_uid h
    obtain rfl : b.id = id := congrArg Prod.snd (findBy_key hb)
    exact ⟨_, exec_blockRelease h hb hr, s.releaseBlock_spec l b⟩
  case energy =>
    intro s k n
    refine ⟨s.updCore k fun c => { c with budget := n }, rfl, ?_, rfl, rfl, fun j hj => ?_⟩
    · rw [State.core_updCore, if_pos rfl]
    · rw [State.core_updCore, if_neg hj]

end Sys2Proof
end

section
/-! SUPPORT. Elements of a lane word (04 R60): the elements of a word that is packed from elements, and the lanes of a mask. -/

namespace Sys2Proof.Machine

/-! ### Bits -/

theorem bitAt_eq_testBit (x i : Nat) : bitAt x i = x.testBit i := by
  simp [bitAt, Nat.testBit_eq_decide_div_mod_eq]

/-! ### Widths -/

theorem elemWidth_cases (t : Nat) : elemWidth t = 4 ∨ elemWidth t = 8 ∨ elemWidth t = 16 ∨ elemWidth t = 32 := by
  unfold elemWidth
  split <;> simp

theorem elemWidth_pos (t : Nat) : 0 < elemWidth t := by
  rcases elemWidth_cases t with h | h | h | h <;> simp [h]

/-- The elements of a word fill it. -/
theorem elemWidth_mul_count (t : Nat) : elemWidth t * (32 / elemWidth t) = 32 := by
  rcases elemWidth_cases t with h | h | h | h <;> simp [h]

/-! ### Reading and packing elements -/

theorem elemAt_lt (x w k : Nat) : elemAt x w k < 2 ^ w := Nat.mod_lt _ (Nat.two_pow_pos w)

theorem elemsFrom_eq_map (x w k n : Nat) : elemsFrom x w k n = (List.range n).map fun i => elemAt x w (k + i) := by
  induction n generalizing k with
  | zero => rfl
  | succ n ih => simp [elemsFrom, ih, List.range_succ_eq_map, Function.comp_def, Nat.add_assoc, Nat.add_comm 1]

theorem elemsOf_eq_map (x w : Nat) : elemsOf x w = (List.range (32 / w)).map (elemAt x w) := by
  simp [elemsOf, elemsFrom_eq_map]

theorem packElems_lt (w : Nat) (vs : List Nat) : packElems w vs < 2 ^ (w * vs.length) := by
  induction vs with
  | nil => simp [packElems]
  | cons v vs ih =>
    calc packElems w (v :: vs) < 2 ^ w + 2 ^ w * packElems w vs :=
          Nat.add_lt_add_right (Nat.mod_lt _ (Nat.two_pow_pos w)) _
      _ = 2 ^ w * (packElems w vs + 1) := by ring
      _ ≤ 2 ^ w * 2 ^ (w * vs.length) := Nat.mul_le_mul_left _ ih
      _ = 2 ^ (w * (v :: vs).length) := by rw [← Nat.pow_add, List.length_cons, Nat.mul_succ, Nat.add_comm]

/-- Element k + 1 of a word lies one element above element k of the rest of the word. -/
theorem elemAt_succ (x w k : Nat) : elemAt x w (k + 1) = elemAt (x / 2 ^ w) w k := by
  rw [elemAt, elemAt, Nat.div_div_eq_div_mul, ← Nat.pow_add, Nat.mul_succ, Nat.add_comm]

theorem elemAt_packElems (w : Nat) (vs : List Nat) {k : Nat} (hk : k < vs.length) :
    elemAt (packElems w vs) w k = vs[k] % 2 ^ w := by
  induction vs generalizing k with
  | nil => cases hk
  | cons v vs ih =>
    have hw := Nat.two_pow_pos w
    cases k with
    | zero => simp [elemAt, packElems, Nat.add_mul_mod_self_left]
    | succ k =>
      have hdiv : packElems w (v :: vs) / 2 ^ w = packElems w vs := by
        rw [packElems, Nat.add_mul_div_left _ _ hw, Nat.div_eq_of_lt (Nat.mod_lt _ hw), Nat.zero_add]
      rw [elemAt_succ, hdiv, ih (by simpa using hk)]
      rfl

/-- Beyond the packed elements a number has only zeros. -/
theorem elemAt_packElems_getD (w : Nat) (vs : List Nat) (k : Nat) : elemAt (packElems w vs) w k = vs.getD k 0 % 2 ^ w := by
  by_cases hk : k < vs.length
  · rw [elemAt_packElems w vs hk, List.getD_eq_getElem _ _ hk]
  · have hlen := Nat.le_of_not_lt hk
    rw [List.getD_eq_default _ _ hlen, elemAt, Nat.div_eq_of_lt
      ((packElems_lt w vs).trans_le (Nat.pow_le_pow_right (by decide) (Nat.mul_le_mul_left w hlen)))]

theorem packElems_append (w : Nat) (xs ys : List Nat) :
    packElems w (xs ++ ys) = packElems w xs + 2 ^ (w * xs.length) * packElems w ys := by
  induction xs with
  | nil => simp [packElems]
  | cons x xs ih =>
    rw [List.cons_append, packElems, ih, packElems, List.length_cons, Nat.mul_succ, Nat.pow_add]
    ring

/-- The lane word whose elements of width w are f 0, f 1, …. -/
def wordOfElems (w : Nat) (f : Nat → Nat) : Word := BitVec.ofNat 32 (packElems w ((List.range (32 / w)).map f))

theorem elemAt_wordOfElems (t : Nat) (f : Nat → Nat) {k : Nat} (hk : k < 32 / elemWidth t) :
    elemAt (wordOfElems (elemWidth t) f).toNat (elemWidth t) k = f k % 2 ^ elemWidth t := by
  have hlt := packElems_lt (elemWidth t) ((List.range (32 / elemWidth t)).map f)
  rw [List.length_map, List.length_range, elemWidth_mul_count] at hlt
  rw [wordOfElems, BitVec.toNat_ofNat, Nat.mod_eq_of_lt hlt, elemAt_packElems _ _ (by simpa using hk)]
  simp

/-! ### Operations on elements -/

theorem zipWith_map_range {α β γ : Type} (f : α → β → γ) (g : Nat → α) (h : Nat → β) (n : Nat) :
    List.zipWith f ((List.range n).map g) ((List.range n).map h) = (List.range n).map fun k => f (g k) (h k) := by
  rw [List.zipWith_map, List.zipWith_self]

theorem mapElems_eq (w : Nat) (f : Nat → Nat) (x : Word) : mapElems w f x = wordOfElems w fun k => f (elemAt x.toNat w k) := by
  rw [mapElems, elemsOf_eq_map, List.map_map]
  rfl

theorem zipElems_eq (w : Nat) (f : Nat → Nat → Nat) (x y : Word) :
    zipElems w f x y = wordOfElems w fun k => f (elemAt x.toNat w k) (elemAt y.toNat w k) := by
  rw [zipElems, elemsOf_eq_map, elemsOf_eq_map, zipWith_map_range, wordOfElems]

theorem zip3Elems_eq (w : Nat) (f : Nat → Nat → Nat → Nat) (x y z : Word) :
    zip3Elems w f x y z = wordOfElems w fun k => f (elemAt x.toNat w k) (elemAt y.toNat w k) (elemAt z.toNat w k) := by
  rw [zip3Elems, elemsOf_eq_map, elemsOf_eq_map, elemsOf_eq_map, zipWith_map_range, zipWith_map_range, wordOfElems]

/-- The status bits of n elements together. -/
def unionBits (n : Nat) (f : Nat → Nat) : Nat := (List.range n).foldl (fun e k => e ||| f k) 0

theorem packRes_map_range (w : Nat) (g : Nat → Nat × Nat) :
    packRes w ((List.range (32 / w)).map g) = (wordOfElems w fun k => (g k).1, unionBits (32 / w) fun k => (g k).2) := by
  simp [packRes, wordOfElems, unionBits, List.map_map, Function.comp_def, List.foldl_map]

theorem unionBits_succ (n : Nat) (f : Nat → Nat) : unionBits (n + 1) f = unionBits n f ||| f n := by
  simp [unionBits, List.range_succ]

theorem unionBits_congr {n : Nat} {f g : Nat → Nat} (h : ∀ k < n, f k = g k) : unionBits n f = unionBits n g := by
  induction n with
  | zero => rfl
  | succ n ih => rw [unionBits_succ, unionBits_succ, ih fun k hk => h k (by omega), h n (by omega)]

/-- A bit is among those of n elements when one of them has it. -/
theorem testBit_unionBits (n : Nat) (f : Nat → Nat) (i : Nat) :
    (unionBits n f).testBit i = (List.range n).any fun k => (f k).testBit i := by
  induction n with
  | zero => simp [unionBits]
  | succ n ih => simp [unionBits_succ, ih, List.range_succ]

/-- Elements that set one and the same bit, or none. -/
theorem unionBits_ite (n b : Nat) (p : Nat → Bool) :
    unionBits n (fun k => if p k then b else 0) = if (List.range n).any p then b else 0 := by
  induction n with
  | zero => rfl
  | succ n ih =>
    rw [unionBits_succ, ih, List.range_succ, List.any_append]
    cases (List.range n).any p <;> cases hp : p n <;> simp [hp]

/-! ### Lanes of a mask -/

theorem mem_lanesFrom (q : LaneMask) (l k n : Nat) : l ∈ lanesFrom q k n ↔ k ≤ l ∧ l < k + n ∧ q.getLsbD l = true := by
  induction n generalizing k with
  | zero => simp [lanesFrom]; omega
  | succ n ih =>
    have hstep : (k + 1 ≤ l ∧ l < k + 1 + n ∧ q.getLsbD l = true) ∨ (l = k ∧ q.getLsbD k = true) ↔
        k ≤ l ∧ l < k + (n + 1) ∧ q.getLsbD l = true := by
      constructor
      · rintro (⟨h1, h2, h3⟩ | ⟨rfl, h⟩)
        · exact ⟨by omega, by omega, h3⟩
        · exact ⟨le_refl _, by omega, h⟩
      · rintro ⟨h1, h2, h3⟩
        by_cases hk : l = k
        · exact .inr ⟨hk, hk ▸ h3⟩
        · exact .inl ⟨by omega, by omega, h3⟩
    rw [← hstep, lanesFrom]
    by_cases hq : q.getLsbD k = true
    · simp [hq, ih, or_comm]
    · simp [hq, ih]

@[simp] theorem mem_lanesOf (q : LaneMask) (l : Nat) : l ∈ lanesOf q ↔ l < 32 ∧ q.getLsbD l = true := by
  simp [lanesOf, mem_lanesFrom]

theorem getLsbD_laneBit {l i : Nat} (hl : l < 32) (hi : i < 32) : (laneBit l).getLsbD i = decide (i = l) := by
  simp only [laneBit, hl, if_true, BitVec.getLsbD_ofNat, hi, decide_true, Bool.true_and, Nat.testBit_two_pow]
  exact decide_eq_decide.mpr eq_comm

end Sys2Proof.Machine
end

section
/-! SUPPORT. What a lane instruction does when some of its lanes fault (19 R284): waits for splice results, the lanes that
complete, and the fault that the others share. -/

namespace Sys2Proof.Machine

/-! ### Waiting for splice results -/

/-- A path that parks at its instruction. -/
theorem Ctx.parkAt_parks {c : Ctx} (h : c.At c.s) (k : Park) : c.Parks (c.parkAt c.s k) c.w k := by
  have hm := Moves.updPath h.warp h.path fun p => { p with park := k, starve := 0, starved := false }
  have hb := hm.trans (Moves.bump hm.after)
  exact ⟨hb.only, c.w.loupe.lastClk, hb.after⟩

theorem Ctx.At.own {c : Ctx} {s : State} (h : c.At s) : c.At c.s := h.state ▸ h

/-- `drained` does k, or waits. -/
theorem Ctx.drained_drained {c : Ctx} (h : c.At c.s) {k : State} {P : State → Prop} (hk : P k) :
    c.Drained (c.drained k) (P (c.drained k)) := by
  unfold Ctx.Drained Ctx.drained
  cases c.s.splicing c.ref with
  | true => exact Ctx.parkAt_parks h .drain
  | false => exact hk

/-! ### Completing in some lanes -/

theorem Warp.updPath_id (w : Warp) (k : Bool) : (w.updPath k fun p => p) = w := by
  cases k <;> simp [Warp.updPath, Warp.setPath, Warp.path?]

theorem State.updPath_id (s : State) (r : WarpRef) (k : Bool) : (s.updPath r k fun p => p) = s := by
  simp [State.updPath, State.updWarp, Warp.updPath_id]

/-- The lanes that do not fault complete as an instruction without the switch marker does. -/
theorem Ctx.retireLanes_writes {c : Ctx} (h : c.At c.s) (active : LaneMask) (reads dests : List Nat)
    (ws : List (WTarget × Word)) (dest : Option Nat) (flags : Nat) (npc : Word) :
    c.Writes ((((c.traceHazards c.s active reads dests).updPath c.ref c.slot fun p => p.outstanding c.p.pc ws).retireTo
      c.ref c.slot active c.p.pc dest flags npc).bump) npc false ws := by
  obtain ⟨c1, h1, e1⟩ := Moves.traceHazards c h.warp active reads dests
  have hp1 : (c.w.clocked c1).path? c.slot = some c.p := by simpa using h.path
  obtain ⟨u, hu⟩ := Path.outstanding_eq c.p ws
  have h2 := h1.trans (Moves.updPath h1.after hp1 fun p => p.outstanding c.p.pc ws)
  simp only [hu] at h2
  have hdone := Ctx.done_of_retire false ws h2 c1 rfl e1 h.launch active c.p.pc dest flags npc
  have hmark : (fun p : Path => p.mark false) = fun p => p := rfl
  rwa [hmark, State.updPath_id] at hdone

/-- All that `completeLanes` does: the instruction completes, or the faulting lanes fault together. -/
theorem Ctx.completeLanes_spec {c : Ctx} (h : c.At c.s) (sh : Shape) (active : LaneMask) (out : LaneOut) :
    match out.faults with
    | [] => c.Writes (c.completeLanes c.s sh active out) (c.next sh.len) sh.m out.writes
    | e :: _ => c.LaneFaults (c.completeLanes c.s sh active out) (c.next sh.len) out.writes e.kind out.faults := by
  unfold Ctx.completeLanes
  cases hf : out.faults with
  | nil => exact Ctx.complete_done h.now sh active out.writes _
  | cons e es =>
    refine Ctx.drained_drained (P := fun t => ∃ s1, c.Writes s1 (c.next sh.len) false out.writes ∧
      t = { s1.deliver c.ref c.slot .lane e.kind (e :: es) (faultMask (e :: es)) c.p.pc (c.next sh.len) with free := t.free }) h
      ⟨_, Ctx.retireLanes_writes h active sh.reads _ out.writes _ 64 _, rfl⟩

theorem Ctx.completeLanes_writes {c : Ctx} (h : c.At c.s) (sh : Shape) (active : LaneMask) (ws : List (WTarget × Word)) :
    c.Writes (c.completeLanes c.s sh active ⟨ws, []⟩) (c.next sh.len) sh.m ws :=
  Ctx.completeLanes_spec h sh active ⟨ws, []⟩

/-- The instruction completes with its writes, or the lanes of a list that is not empty fault INVALID_OP together. -/
def Ctx.WritesOrInvalid (c : Ctx) (t : State) (len : Nat) (m : Bool) (ws : List (WTarget × Word)) (bad : List Nat) : Prop :=
  if bad = [] then c.Writes t (c.next len) m ws
  else c.LaneFaults t (c.next len) ws .invalidOp (faultsOf .invalidOp bad)

@[simp] theorem Ctx.writesOrInvalid_nil (c : Ctx) (t : State) (len : Nat) (m : Bool) (ws : List (WTarget × Word)) :
    c.WritesOrInvalid t len m ws [] ↔ c.Writes t (c.next len) m ws := by simp [Ctx.WritesOrInvalid]

theorem Ctx.completeLanes_invalid {c : Ctx} (h : c.At c.s) (sh : Shape) (active : LaneMask) (ws : List (WTarget × Word))
    (bad : List Nat) : c.WritesOrInvalid (c.completeLanes c.s sh active ⟨ws, faultsOf .invalidOp bad⟩) sh.len sh.m ws bad := by
  cases bad with
  | nil => exact Ctx.completeLanes_writes h sh active ws
  | cons l bad => exact Ctx.completeLanes_spec h sh active ⟨ws, faultsOf .invalidOp (l :: bad)⟩

/-! ### The form of a lane instruction -/

/-- A lane instruction whose registers are sound runs its lane function over the Active lanes. -/
theorem laneOpWith_eq {s : State} {c : Ctx} (h : s.ctx? = some c) (sh : Shape) (extra : Ctx → List Nat)
    (typeOk : Ctx → Bool) (d : Nat) (f : Ctx → Nat → LaneRes) (ht : typeOk c = true) (hr : c.Ready sh.vregs) :
    laneOpWith s sh extra typeOk d f = .next (c.completeLanes c.s { sh with reads := sh.reads ++ extra c ++ c.guardReads }
      c.active (overLanes d (f c) (lanesOf c.active))) := by
  obtain ⟨hb, hi, hs⟩ := hr
  have hb' : sh.inBounds c.l.record.regs = true := by simpa [Shape.inBounds] using hb
  rw [laneOpWith, issueOp_next h sh typeOk _ hb' ht]
  simp only [Ctx.softLanes_none hi hs, Ctx.disarm, if_true, Ctx.guarded_eq (Ctx.soundS_none hi hs)]
  rw [overLanes_congr d fun l _ => withSoft_zero (f c) l]

/-- A lane that gives words and status bits, or faults INVALID_OP where it traps. -/
def trapRes (trap : Bool) (ws : List Word) (st : Nat) : LaneRes := if trap then .fault .invalidOp 0 0 else .ok ws st

@[simp] theorem trapRes_true (ws : List Word) (st : Nat) : trapRes true ws st = .fault .invalidOp 0 0 := rfl

@[simp] theorem trapRes_false (ws : List Word) (st : Nat) : trapRes false ws st = .ok ws st := rfl

theorem overLanes_trapRes (d : Nat) (trap : Nat → Bool) (ws : Nat → List Word) (st : Nat → Nat) (ls : List Nat) :
    overLanes d (fun l => trapRes (trap l) (ws l) (st l)) ls
      = ⟨(ls.filter fun l => !trap l).flatMap fun l =>
          laneWrites l d (ws l) ++ if st l = 0 then [] else [(.stSet l, BitVec.ofNat 32 (st l))],
        faultsOf .invalidOp (ls.filter trap)⟩ := by
  induction ls with
  | nil => rfl
  | cons l r ih =>
    cases ht : trap l with
    | false => simp [overLanes, ih, ht, LaneRes.out]
    | true => simp [overLanes, ih, ht, LaneRes.out, faultsOf]

/-- A lane that gives the word x and the status bits st, or takes the trap that MODE has armed for them (05 R81). -/
def Ctx.laneRes (c : Ctx) (x : Word) (st : Nat) : LaneRes :=
  match c.trapOf st with
  | some k => .fault k 0 0
  | none => .ok [x] st

theorem Ctx.laneRes_fault {c : Ctx} {st : Nat} {k : FaultKind} (h : c.trapOf st = some k) (x : Word) :
    c.laneRes x st = .fault k 0 0 := by simp [Ctx.laneRes, h]

theorem Ctx.laneRes_ok {c : Ctx} {st : Nat} (h : c.trapOf st = none) (x : Word) : c.laneRes x st = .ok [x] st := by
  simp [Ctx.laneRes, h]

/-- An invalid operation comes before a division by zero (06 R115). -/
theorem Ctx.laneRes_eq (c : Ctx) (x : Word) (st : Nat) : c.laneRes x st =
    if modeTrapNv c.p.mode ∧ hasBit st stNV then .fault .invalidOp 0 0
    else if modeTrapDiv c.p.mode ∧ hasBit st stDZ then .fault .divide 0 0
    else .ok [x] st := by
  unfold Ctx.laneRes Ctx.trapOf
  by_cases hnv : modeTrapNv c.p.mode = true ∧ hasBit st stNV = true
  · simp only [if_pos hnv]
  · by_cases hdz : modeTrapDiv c.p.mode = true ∧ hasBit st stDZ = true
    · simp only [if_neg hnv, if_pos hdz]
    · simp only [if_neg hnv, if_neg hdz]

theorem overLanes_laneRes (c : Ctx) (d : Nat) (val : Nat → Word) (st : Nat → Nat) (ls : List Nat) :
    overLanes d (fun l => c.laneRes (val l) (st l)) ls
      = ⟨laneListSt (ls.filter fun l => (c.trapOf (st l)).isNone) d val st,
         ls.filterMap fun l => (c.trapOf (st l)).map fun k => ⟨l, k, 0, 0⟩⟩ := by
  induction ls with
  | nil => rfl
  | cons l r ih =>
    cases ht : c.trapOf (st l) with
    | none => simp [overLanes, ih, Ctx.laneRes_ok ht, ht, LaneRes.out, laneWrites, laneListSt]
    | some k => simp [overLanes, ih, Ctx.laneRes_fault ht, ht, LaneRes.out]

/-- A lane instruction that gives one word and status bits in each lane, under the traps of MODE. -/
theorem laneOpWith_lanes {s : State} {c : Ctx} (h : s.ctx? = some c) (sh : Shape) (extra : Ctx → List Nat)
    (typeOk : Ctx → Bool) (d : Nat) (f : Ctx → Nat → LaneRes) (val : Nat → Word) (st : Nat → Nat)
    (ht : typeOk c = true) (hr : c.Ready sh.vregs) (hf : ∀ l ∈ lanesOf c.active, f c l = c.laneRes (val l) (st l)) :
    ∃ t, laneOpWith s sh extra typeOk d f = .next t ∧ c.Lanes t sh.len sh.m (lanesOf c.active) d val st := by
  refine ⟨_, laneOpWith_eq h sh extra typeOk d f ht hr, ?_⟩
  rw [overLanes_congr d hf, overLanes_laneRes]
  have hspec := Ctx.completeLanes_spec (State.ctx?_at h).own { sh with reads := sh.reads ++ extra c ++ c.guardReads } c.active
    ⟨laneListSt ((lanesOf c.active).filter fun l => (c.trapOf (st l)).isNone) d val st,
      (lanesOf c.active).filterMap fun l => (c.trapOf (st l)).map fun k => ⟨l, k, 0, 0⟩⟩
  unfold Ctx.Lanes
  cases hes : (lanesOf c.active).filterMap fun l => (c.trapOf (st l)).map fun k => (⟨l, k, 0, 0⟩ : LaneEntry) with
  | nil =>
    have hall : (lanesOf c.active).filter (fun l => (c.trapOf (st l)).isNone) = lanesOf c.active := by
      rw [List.filter_eq_self]
      intro l hl
      simpa using List.filterMap_eq_nil_iff.mp hes l hl
    rw [hes, hall] at hspec
    rw [hall]
    exact hspec
  | cons e es =>
    rw [hes] at hspec
    exact hspec

/-- The same of an instruction whose register reads do not depend on MODE. -/
theorem runs_lanes {s : State} {c : Ctx} (h : s.ctx? = some c) {i : Instr} (sh : Shape) (typeOk : Ctx → Bool) (d : Nat)
    (f : Ctx → Nat → LaneRes) (val : Nat → Word) (st : Nat → Nat) (hi : exec i s = laneOp s sh typeOk d f)
    (ht : typeOk c = true) (hr : c.Ready sh.vregs) (hf : ∀ l ∈ lanesOf c.active, f c l = c.laneRes (val l) (st l)) :
    Runs i s fun t => c.Lanes t sh.len sh.m (lanesOf c.active) d val st := by
  unfold Runs
  rw [hi]
  exact laneOpWith_lanes h sh _ typeOk d f val st ht hr hf

/-- An instruction that writes one word in each Active lane and never faults. -/
theorem runs_laneWord {s : State} {c : Ctx} (h : s.ctx? = some c) {i : Instr} (sh : Shape) (typeOk : Ctx → Bool) (d : Field)
    (f : Ctx → Nat → Word) (hi : exec i s = laneWord s sh typeOk d f) (ht : typeOk c = true) (hr : c.Ready sh.vregs) :
    Runs i s fun t => c.Writes t (c.next sh.len) sh.m (laneSet c.active d.toNat (f c)) := by
  unfold Runs
  rw [hi]
  exact laneWord_done h sh typeOk d f (by simpa [Shape.inBounds] using hr.1) ht hr.2.1 hr.2.2

/-- An instruction that writes one word and status bits in each Active lane, none of which faults. -/
theorem runs_laneSetSt {s : State} {c : Ctx} (h : s.ctx? = some c) {i : Instr} (sh : Shape) (typeOk : Ctx → Bool) (d : Nat)
    (f : Ctx → Nat → LaneRes) (val : Nat → Word) (st : Nat → Nat) (hi : exec i s = laneOp s sh typeOk d f)
    (ht : typeOk c = true) (hr : c.Ready sh.vregs) (hf : ∀ l ∈ lanesOf c.active, f c l = .ok [val l] (st l)) :
    Runs i s fun t => c.Writes t (c.next sh.len) sh.m (laneSetSt c.active d val st) := by
  unfold Runs
  rw [hi]
  exact laneOpWith_done h sh _ typeOk d f val st (by simpa [Shape.inBounds] using hr.1) ht hr.2.1 hr.2.2 hf

end Sys2Proof.Machine
end

section
/-! SUPPORT. The arithmetic that scalar and vector integer instructions share (06 R91 to R94): shifts, division, bit counts and bit
fields, for fields of every width. -/

namespace Sys2Proof.Machine

/-! ### Signed fields (04 R73) -/

theorem two_pow_eq_double {w : Nat} (hw : 0 < w) : 2 ^ w = 2 * 2 ^ (w - 1) := by
  obtain ⟨v, rfl⟩ := Nat.exists_eq_succ_of_ne_zero hw.ne'
  simp [Nat.pow_succ, Nat.mul_comm]

/-- A field below the sign bit stands for itself, any other for itself less 2^w. -/
theorem sext_of_lt {x w : Nat} (hx : x < 2 ^ w) :
    sext x w = if x < 2 ^ (w - 1) then (x : Int) else (x : Int) - ((2 ^ w : Nat) : Int) := by
  simp [sext, Nat.mod_eq_of_lt hx]

theorem sext_toNat {w : Nat} (hw : 0 < w) (x : BitVec w) : sext x.toNat w = x.toInt := by
  have h2 := two_pow_eq_double hw
  rw [sext_of_lt x.isLt, BitVec.toInt_eq_toNat_cond, h2]
  congr 1
  simp

theorem sext_bounds {x w : Nat} (hw : 0 < w) (hx : x < 2 ^ w) :
    -((2 ^ (w - 1) : Nat) : Int) ≤ sext x w ∧ sext x w < ((2 ^ (w - 1) : Nat) : Int) := by
  have h2 := two_pow_eq_double hw
  rw [sext_of_lt hx]
  split <;> omega

theorem sext_eq_zero {x w : Nat} (hx : x < 2 ^ w) : sext x w = 0 ↔ x = 0 := by
  have hp := Nat.two_pow_pos (w - 1)
  rw [sext_of_lt hx]
  split <;> omega

/-- The most negative value. -/
theorem sext_eq_min {x w : Nat} (hw : 0 < w) (hx : x < 2 ^ w) : sext x w = -(2 ^ (w - 1) : Int) ↔ x = 2 ^ (w - 1) := by
  have h2 := two_pow_eq_double hw
  have hp := Nat.two_pow_pos (w - 1)
  have hcast : ((2 : Int) ^ (w - 1)) = ((2 ^ (w - 1) : Nat) : Int) := by simp
  rw [sext_of_lt hx, hcast]
  split <;> omega

theorem sext_eq_neg_one {x w : Nat} (hw : 0 < w) (hx : x < 2 ^ w) : sext x w = -1 ↔ x = 2 ^ w - 1 := by
  have h2 := two_pow_eq_double hw
  have hp := Nat.two_pow_pos (w - 1)
  rw [sext_of_lt hx]
  split <;> omega

/-! ### Integers modulo 2^w (00 R6) -/

theorem wrapN_lt (w : Nat) (z : Int) : wrapN w z < 2 ^ w := by
  have hp : (0 : Int) < 2 ^ w := by positivity
  have hlt := Int.emod_lt_of_pos z hp
  have hge := Int.emod_nonneg z hp.ne'
  have hcast : ((2 : Int) ^ w) = ((2 ^ w : Nat) : Int) := by simp
  rw [wrapN]
  omega

theorem wrapN_natCast (w n : Nat) : wrapN w (n : Int) = n % 2 ^ w := by
  have hcast : ((2 : Int) ^ w) = ((2 ^ w : Nat) : Int) := by simp
  rw [wrapN, hcast, ← Int.natCast_mod, Int.toNat_natCast]

theorem wrapN_of_lt {w n : Nat} (h : n < 2 ^ w) : wrapN w (n : Int) = n := by rw [wrapN_natCast, Nat.mod_eq_of_lt h]

/-- A multiple of 2^w does not count. -/
theorem wrapN_add_two_pow (w : Nat) (z : Int) : wrapN w (z + ((2 ^ w : Nat) : Int)) = wrapN w z := by
  simp [wrapN]

theorem ofNat_wrapN (w : Nat) (z : Int) : BitVec.ofNat w (wrapN w z) = BitVec.ofInt w z := by
  apply BitVec.eq_of_toNat_eq
  rw [BitVec.toNat_ofNat, Nat.mod_eq_of_lt (wrapN_lt w z), BitVec.toNat_ofInt, wrapN]
  simp

/-! ### Shifts (06 R93) -/

theorem shiftBy_left (x w n : Nat) : shiftBy .left x w n = x * 2 ^ n % 2 ^ w := by
  simp only [shiftBy]
  split
  · rfl
  next h => exact (Nat.mod_eq_zero_of_dvd ((Nat.pow_dvd_pow 2 (Nat.le_of_not_lt h)).trans (Nat.dvd_mul_left ..))).symm

theorem shiftBy_logical {x w : Nat} (hx : x < 2 ^ w) (n : Nat) : shiftBy .logical x w n = x / 2 ^ n := by
  simp only [shiftBy]
  split
  · rfl
  next h =>
    exact (Nat.div_eq_of_lt (hx.trans_le (Nat.pow_le_pow_right (by decide) (Nat.le_of_not_lt h)))).symm

theorem shiftBy_arithmetic {x w : Nat} (hw : 0 < w) (hx : x < 2 ^ w) (n : Nat) :
    shiftBy .arithmetic x w n = wrapN w (sext x w / 2 ^ n) := by
  simp only [shiftBy]
  split
  · rfl
  next h =>
    have hpow : 2 ^ (w - 1) ≤ 2 ^ n := Nat.pow_le_pow_right (by decide) (by omega)
    have hcast : ((2 : Int) ^ n) = ((2 ^ n : Nat) : Int) := by simp
    obtain ⟨hlo, hhi⟩ := sext_bounds hw hx
    have hp := Nat.two_pow_pos w
    rw [hcast]
    by_cases hneg : sext x w < 0
    · have hq : sext x w / ((2 ^ n : Nat) : Int) = -1 := by
        rw [Int.ediv_eq_iff_of_pos (by have := Nat.two_pow_pos n; omega)]
        omega
      have hw1 : wrapN w (-1) = 2 ^ w - 1 := by
        rw [← wrapN_add_two_pow, ← wrapN_of_lt (w := w) (n := 2 ^ w - 1) (by omega)]
        congr 1
        omega
      rw [hq, hw1, if_pos (by simpa using hneg)]
    · have hq : sext x w / ((2 ^ n : Nat) : Int) = 0 := Int.ediv_eq_zero_of_lt (by omega) (by omega)
      rw [hq, if_neg (by simpa using hneg)]
      simp [wrapN]

/-! ### Division (06 R92) -/

section
variable {a b w : Nat} (ha : a < 2 ^ w) (hb : b < 2 ^ w)
include ha hb

theorem divide_unsigned : divide a b w false = if b = 0 then (2 ^ w - 1, a, .dz) else (a / b, a % b, .none) := by
  have hq : a / b < 2 ^ w := (Nat.div_le_self a b).trans_lt ha
  have hr : a % b < 2 ^ w := (Nat.mod_le a b).trans_lt ha
  simp only [divide, asInt, Bool.false_eq_true, if_false, Nat.mod_eq_of_lt ha, Nat.mod_eq_of_lt hb, false_and, Int.natCast_eq_zero]
  rw [← Int.ofNat_tdiv, ← Int.ofNat_tmod, wrapN_of_lt hq, wrapN_of_lt hr]

/-- The overflow of the most negative value by -1 gives what the exact quotient and remainder wrap to. -/
theorem divide_signed (hw : 0 < w) : divide a b w true =
    if b = 0 then (2 ^ w - 1, a, .dz)
    else (wrapN w ((sext a w).tdiv (sext b w)), wrapN w ((sext a w).tmod (sext b w)),
      if a = 2 ^ (w - 1) ∧ b = 2 ^ w - 1 then .ov else .none) := by
  simp only [divide, asInt, if_true, true_and, sext_eq_zero hb, sext_eq_min hw ha, sext_eq_neg_one hw hb]
  split
  · rfl
  · split
    next hov =>
      have hm1 := (sext_eq_neg_one hw hb).mpr hov.2
      have hmin := (sext_eq_min hw ha).mpr hov.1
      have hq : wrapN w ((sext a w).tdiv (sext b w)) = a := by
        have hneg : (sext a w).tdiv (sext b w) = ((2 ^ (w - 1) : Nat) : Int) := by rw [hm1, hmin]; simp
        rw [hneg, ← hov.1, wrapN_of_lt ha]
      have hr : wrapN w ((sext a w).tmod (sext b w)) = 0 := by simp [hm1, wrapN]
      rw [hq, hr]
    · rfl

end

/-! ### Bit counts (06 R91, R104) -/

theorem popc_eq_countP (x w : Nat) : popc x w = (List.range w).countP fun i => x.testBit i := by
  induction w with
  | zero => rfl
  | succ w ih =>
    rw [popc, ih, List.range_succ, List.countP_append, bitAt_eq_testBit, Nat.add_comm]
    cases hb : x.testBit w <;> simp [b2n, hb]

/-- The leading zero bits of a field, and the 1 bit below them. -/
theorem clz_spec (x w : Nat) : clz x w ≤ w ∧ (∀ i, w - clz x w ≤ i → i < w → x.testBit i = false) ∧
    (clz x w < w → x.testBit (w - 1 - clz x w) = true) := by
  induction w with
  | zero => simp [clz]
  | succ w ih =>
    rw [clz, bitAt_eq_testBit]
    cases hb : x.testBit w with
    | true => simpa [hb] using fun i hi hi' => absurd hi' (by omega)
    | false =>
      obtain ⟨hle, hzero, hone⟩ := ih
      simp only [Bool.false_eq_true, if_false]
      refine ⟨by omega, fun i hi hi' => ?_, fun hlt => ?_⟩
      · by_cases hiw : i = w
        · exact hiw ▸ hb
        · exact hzero i (by omega) (by omega)
      · have := hone (by omega)
        rwa [show w + 1 - 1 - (1 + clz x w) = w - 1 - clz x w by omega]

theorem testBit_brev (x w i : Nat) (hi : i < w) : (brev x w).testBit (w - 1 - i) = x.testBit i := by
  induction w with
  | zero => omega
  | succ w ih =>
    rw [brev, bitAt_eq_testBit, Nat.add_sub_cancel]
    by_cases hiw : i = w
    · subst hiw
      cases hb : x.testBit i <;> simp [b2n, Nat.testBit_zero, Nat.add_mod]
    · obtain ⟨j, hj⟩ : ∃ j, w - i = j + 1 := ⟨w - i - 1, by omega⟩
      have hhalf : (b2n (x.testBit w) + 2 * brev x w) / 2 = brev x w := by
        cases x.testBit w with
        | false => simp [b2n]
        | true => simp only [b2n, if_true]; omega
      rw [hj, Nat.testBit_add_one, hhalf, ← ih (by omega), show w - 1 - i = j by omega]

theorem brev_lt (x w : Nat) : brev x w < 2 ^ w := by
  induction w with
  | zero => simp [brev]
  | succ w ih =>
    have hb : b2n (bitAt x w) ≤ 1 := by cases bitAt x w <;> simp [b2n]
    rw [brev, Nat.pow_succ]
    omega

/-- The first 1 bit of a field from bit k on. -/
theorem ffs_spec (x k n : Nat) : k ≤ ffs x k n ∧ ffs x k n ≤ k + n ∧ (∀ i, k ≤ i → i < ffs x k n → x.testBit i = false) ∧
    (ffs x k n < k + n → x.testBit (ffs x k n) = true) := by
  induction n generalizing k with
  | zero => simpa [ffs] using fun i hi hi' => absurd hi' (by omega)
  | succ n ih =>
    rw [ffs, bitAt_eq_testBit]
    cases hb : x.testBit k with
    | true => simpa [hb] using fun i hi hi' => absurd hi' (by omega)
    | false =>
      obtain ⟨hge, hle, hzero, hone⟩ := ih (k + 1)
      simp only [Bool.false_eq_true, if_false]
      refine ⟨by omega, by omega, fun i hi hi' => ?_, fun hlt => hone (by omega)⟩
      by_cases hik : i = k
      · exact hik ▸ hb
      · exact hzero i (by omega) hi'

/-! ### Bit fields (06 R94) -/

theorem fieldPos_eq (b : Word) : fieldPos b = b.toNat % 32 := by simp [fieldPos, bits]

theorem fieldWidth_eq (b : Word) : fieldWidth b = min (b.toNat / 256 % 64) (32 - b.toNat % 32) := by
  rw [fieldWidth, fieldPos_eq]
  simp [bits]

theorem getLsbD_fieldMask (b : Word) {i : Nat} (hi : i < 32) :
    (fieldMask b).getLsbD i = decide (fieldPos b ≤ i ∧ i < fieldPos b + fieldWidth b) := by
  rw [fieldMask, BitVec.getLsbD_ofNat, Nat.testBit_mul_two_pow, Nat.testBit_two_pow_sub_one]
  by_cases h : fieldPos b ≤ i
  · simp [hi, h]; omega
  · simp [h]

theorem getLsbD_bitInsert (d a b : Word) {i : Nat} (hi : i < 32) : (bitInsert d a b).getLsbD i =
    if fieldPos b ≤ i ∧ i < fieldPos b + fieldWidth b then a.getLsbD (i - fieldPos b) else d.getLsbD i := by
  simp only [bitInsert, BitVec.getLsbD_or, BitVec.getLsbD_and, BitVec.getLsbD_not, BitVec.getLsbD_shiftLeft,
    getLsbD_fieldMask b hi, hi, decide_true, Bool.true_and]
  split
  next h => simp [h]
  next h => simp [h]

theorem fieldPos_add_fieldWidth_le (b : Word) : fieldPos b + fieldWidth b ≤ 32 := by
  rw [fieldWidth_eq, fieldPos_eq]
  omega

theorem getLsbD_bitExtract_unsigned (a b : Word) (i : Nat) :
    (bitExtract a b false).getLsbD i = (decide (i < fieldWidth b) && a.getLsbD (fieldPos b + i)) := by
  have hle := fieldPos_add_fieldWidth_le b
  simp only [bitExtract, Bool.false_eq_true, if_false, BitVec.getLsbD_ushiftRight, BitVec.getLsbD_and]
  by_cases hi : fieldPos b + i < 32
  · simp [getLsbD_fieldMask b hi, Bool.and_comm]
  · simp [BitVec.getLsbD_of_ge _ _ (Nat.le_of_not_lt hi)]

theorem bitExtract_unsigned_lt (a b : Word) : (bitExtract a b false).toNat < 2 ^ fieldWidth b := by
  refine Nat.lt_pow_two_of_testBit _ fun i hi => ?_
  have := getLsbD_bitExtract_unsigned a b i
  simpa [BitVec.getLsbD, Nat.not_lt.mpr hi] using this

/-- The signed extract is the sign extension of the unsigned one from the field's width. -/
theorem bitExtract_signed (a b : Word) (hw : fieldWidth b ≠ 0) :
    bitExtract a b true = (BitVec.ofNat (fieldWidth b) (bitExtract a b false).toNat).signExtend 32 := by
  have hx := bitExtract_unsigned_lt a b
  rw [BitVec.signExtend, ← sext_toNat (Nat.pos_of_ne_zero hw), BitVec.toNat_ofNat, Nat.mod_eq_of_lt hx]
  simp [bitExtract, hw]

theorem getLsbD_bitExtract (a b : Word) (signed : Bool) {i : Nat} (hi : i < 32) : (bitExtract a b signed).getLsbD i =
    if i < fieldWidth b then a.getLsbD (fieldPos b + i)
    else signed && decide (fieldWidth b ≠ 0) && a.getLsbD (fieldPos b + fieldWidth b - 1) := by
  cases signed with
  | false => simp [getLsbD_bitExtract_unsigned]
  | true =>
    by_cases hw : fieldWidth b = 0
    · simp [bitExtract, hw]
    · have hbit (j : Nat) (hj : j < fieldWidth b) :
          (BitVec.ofNat (fieldWidth b) (bitExtract a b false).toNat).getLsbD j = a.getLsbD (fieldPos b + j) := by
        rw [BitVec.getLsbD_ofNat]
        have := getLsbD_bitExtract_unsigned a b j
        simpa [BitVec.getLsbD, hj] using this
      rw [bitExtract_signed a b hw, BitVec.getLsbD_signExtend, BitVec.msb_eq_getLsbD_last, hbit (fieldWidth b - 1) (by omega)]
      split
      next h => rw [hbit i h]; simp [hi]
      next h => simp [hi, hw, show fieldPos b + (fieldWidth b - 1) = fieldPos b + fieldWidth b - 1 by omega]

end Sys2Proof.Machine
end

section
/-! SUPPORT. The scalar integer instructions (06 R89 to R94): the form that they share, the words that they write, and division under
TRAPDIV. -/

namespace Sys2Proof.Machine

/-! ### The form of a scalar instruction -/

section
variable {s : State} {c : Ctx} (h : s.ctx? = some c) (hs : c.SoundS) {i : Instr} {m : Bool} {d a : Field} {b : Src} {v : Word}
include h hs

theorem runs_scalarOp {sh : Shape} {f : Ctx → Word} (hi : exec i s = scalarOp s sh d f) (hv : f c = v) :
    Runs i s fun t => c.Scalar t (c.next sh.len) sh.m d v := by
  unfold Runs
  rw [hi, ← hv]
  exact scalarOp_done h hs sh d f

/-- op sD, sA, sB. -/
theorem runs_scalarSss {rd : Bool} {f : Ctx → Word} (hi : exec i s = scalarOp s (.sss m rd d a b) d f) (hv : f c = v) :
    Runs i s fun t => c.Scalar t (c.next b.len) m d v := runs_scalarOp h hs hi hv

/-- op sD, sA. -/
theorem runs_scalarSs {f : Ctx → Word} (hi : exec i s = scalarOp s (.ss m a) d f) (hv : f c = v) :
    Runs i s fun t => c.Scalar t (c.next 4) m d v := runs_scalarOp h hs hi hv

/-! ### Division under TRAPDIV (06 R92) -/

/-- A division that does not meet an armed trap condition writes its quotient or remainder. -/
theorem runs_scalarDiv {signed quotient : Bool} (hi : exec i s = scalarDiv s m d a b signed quotient)
    (hno : modeTrapDiv c.p.mode = false ∨ (divide (c.sr a.toNat).toNat (c.sb b).toNat 32 signed).2.2 = .none)
    (hv : BitVec.ofNat 32 (if quotient then (divide (c.sr a.toNat).toNat (c.sb b).toNat 32 signed).1
      else (divide (c.sr a.toNat).toNat (c.sb b).toNat 32 signed).2.1) = v) :
    Runs i s fun t => c.Scalar t (c.next b.len) m d v := by
  unfold Runs
  rw [hi, ← hv]
  refine ⟨_, withCtx_next h _, ?_⟩
  have hgo : ¬(modeTrapDiv c.p.mode = true ∧ (divide (c.sr a.toNat).toNat (c.sb b).toNat 32 signed).2.2 ≠ .none) :=
    fun hcond => hno.elim (by simp [hcond.1]) hcond.2
  simp only [if_neg hgo]
  exact Ctx.scalarDone_done (State.ctx?_at h) hs (.sss m false d a b) d _ _

omit hs in
/-- A division that meets an armed trap condition faults DIVIDE. -/
theorem runs_scalarDiv_fault {signed quotient : Bool} (hi : exec i s = scalarDiv s m d a b signed quotient)
    (htrap : modeTrapDiv c.p.mode = true)
    (hflag : (divide (c.sr a.toNat).toNat (c.sb b).toNat 32 signed).2.2 ≠ .none) :
    Runs i s fun t => t = c.readFault .divide ⟨m, b.len, [], sRd a :: b.sregs⟩ := by
  unfold Runs
  rw [hi]
  refine ⟨_, withCtx_next h _, ?_⟩
  simp [htrap, hflag, Shape.sss]

end

/-! ### The words written -/

theorem toNat_eq_zero_iff (x : Word) : x.toNat = 0 ↔ x = 0 := by
  constructor
  · exact fun h => BitVec.eq_of_toNat_eq (by simpa using h)
  · rintro rfl; rfl

theorem toNat_eq_intMin_iff (x : Word) : x.toNat = 2 ^ (32 - 1) ↔ x = BitVec.intMin 32 := by
  constructor
  · exact fun h => BitVec.eq_of_toNat_eq (by simpa using h)
  · rintro rfl; rfl

theorem toNat_eq_allOnes_iff (x : Word) : x.toNat = 2 ^ 32 - 1 ↔ x = BitVec.allOnes 32 := by
  constructor
  · exact fun h => BitVec.eq_of_toNat_eq (by simpa using h)
  · rintro rfl; rfl

theorem divide_word_signed (x y : Word) : divide x.toNat y.toNat 32 true =
    if y = 0 then (2 ^ 32 - 1, x.toNat, .dz)
    else (wrapN 32 (x.toInt.tdiv y.toInt), wrapN 32 (x.toInt.tmod y.toInt),
      if x = BitVec.intMin 32 ∧ y = BitVec.allOnes 32 then .ov else .none) := by
  simp only [divide_signed x.isLt y.isLt (by decide : 0 < 32), sext_toNat (by decide : 0 < 32), toNat_eq_zero_iff, toNat_eq_intMin_iff,
    toNat_eq_allOnes_iff]

theorem divide_word_unsigned (x y : Word) : divide x.toNat y.toNat 32 false =
    if y = 0 then (2 ^ 32 - 1, x.toNat, .dz) else (x.toNat / y.toNat, x.toNat % y.toNat, .none) := by
  simp only [divide_unsigned x.isLt y.isLt, toNat_eq_zero_iff]

theorem ofInt_tdiv (x y : Word) : BitVec.ofInt 32 (x.toInt.tdiv y.toInt) = x.sdiv y :=
  BitVec.eq_of_toInt_eq (by rw [BitVec.toInt_ofInt, BitVec.toInt_sdiv])

theorem ofInt_tmod (x y : Word) : BitVec.ofInt 32 (x.toInt.tmod y.toInt) = x.srem y := by
  rw [← BitVec.toInt_srem, BitVec.ofInt_toInt]

theorem divide_word_sdiv (x y : Word) : BitVec.ofNat 32 (divide x.toNat y.toNat 32 true).1
    = if y = 0 then BitVec.allOnes 32 else x.sdiv y := by
  rw [divide_word_signed]
  split
  · rfl
  · rw [ofNat_wrapN, ofInt_tdiv]

theorem divide_word_srem (x y : Word) : BitVec.ofNat 32 (divide x.toNat y.toNat 32 true).2.1
    = if y = 0 then x else x.srem y := by
  rw [divide_word_signed]
  split
  · simp
  · rw [ofNat_wrapN, ofInt_tmod]

theorem divide_word_udiv (x y : Word) : BitVec.ofNat 32 (divide x.toNat y.toNat 32 false).1
    = if y = 0 then BitVec.allOnes 32 else x / y := by
  rw [divide_word_unsigned]
  split
  · rfl
  · rw [← BitVec.toNat_udiv, BitVec.ofNat_toNat, BitVec.setWidth_eq]

theorem divide_word_umod (x y : Word) : BitVec.ofNat 32 (divide x.toNat y.toNat 32 false).2.1
    = if y = 0 then x else x % y := by
  rw [divide_word_unsigned]
  split
  · simp
  · rw [← BitVec.toNat_umod, BitVec.ofNat_toNat, BitVec.setWidth_eq]

theorem divide_word_signed_flag (x y : Word) : (divide x.toNat y.toNat 32 true).2.2 = .none ↔
    y ≠ 0 ∧ ¬(x = BitVec.intMin 32 ∧ y = BitVec.allOnes 32) := by
  rw [divide_word_signed]
  split
  next hy => simp [hy]
  next hy =>
    split
    next hov => simp [hov]
    next hov => simp only [hov, hy, ne_eq, not_false_eq_true, and_self]

theorem divide_word_unsigned_flag (x y : Word) : (divide x.toNat y.toNat 32 false).2.2 = .none ↔ y ≠ 0 := by
  rw [divide_word_unsigned]
  split
  next hy => simp [hy]
  next hy => simpa using hy

/-- The high half of a 64-bit product. -/
theorem extractLsb'_ofInt_high (z : Int) : (BitVec.ofInt 64 z).extractLsb' 32 32 = BitVec.ofInt 32 (z / 2 ^ 32) := by
  apply BitVec.eq_of_toNat_eq
  rw [BitVec.extractLsb'_toNat, BitVec.toNat_ofInt, BitVec.toNat_ofInt, Nat.shiftRight_eq_div_pow]
  omega

theorem mulh_signed (x y : Word) :
    BitVec.ofInt 32 (x.toInt * y.toInt / 2 ^ 32) = (x.signExtend 64 * y.signExtend 64).extractLsb' 32 32 := by
  rw [BitVec.signExtend, BitVec.signExtend, ← BitVec.ofInt_mul, extractLsb'_ofInt_high]

theorem mulh_unsigned (x y : Word) :
    BitVec.ofNat 32 (x.toNat * y.toNat / 2 ^ 32) = (x.zeroExtend 64 * y.zeroExtend 64).extractLsb' 32 32 := by
  have hx : x.toNat * y.toNat < 2 ^ 64 := calc
    x.toNat * y.toNat < 2 ^ 32 * 2 ^ 32 := Nat.mul_lt_mul'' x.isLt y.isLt
    _ = 2 ^ 64 := by norm_num
  apply BitVec.eq_of_toNat_eq
  rw [BitVec.extractLsb'_toNat, BitVec.toNat_ofNat, Nat.shiftRight_eq_div_pow, BitVec.toNat_mul, BitVec.toNat_setWidth,
    BitVec.toNat_setWidth, Nat.mod_eq_of_lt (by omega : x.toNat < 2 ^ 64), Nat.mod_eq_of_lt (by omega : y.toNat < 2 ^ 64),
    Nat.mod_eq_of_lt hx]

theorem shiftBy_word_left (x : Word) (n : Nat) : BitVec.ofNat 32 (shiftBy .left x.toNat 32 n) = x <<< n := by
  apply BitVec.eq_of_toNat_eq
  rw [shiftBy_left, BitVec.toNat_ofNat, Nat.mod_mod, BitVec.toNat_shiftLeft, Nat.shiftLeft_eq]

theorem shiftBy_word_logical (x : Word) (n : Nat) : BitVec.ofNat 32 (shiftBy .logical x.toNat 32 n) = x >>> n := by
  apply BitVec.eq_of_toNat_eq
  rw [shiftBy_logical x.isLt, BitVec.toNat_ofNat, BitVec.toNat_ushiftRight, Nat.shiftRight_eq_div_pow,
    Nat.mod_eq_of_lt ((Nat.div_le_self ..).trans_lt x.isLt)]

theorem shiftBy_word_arithmetic (x : Word) (n : Nat) :
    BitVec.ofNat 32 (shiftBy .arithmetic x.toNat 32 n) = x.sshiftRight n := by
  rw [shiftBy_arithmetic (by decide) x.isLt, ofNat_wrapN, sext_toNat (by decide), BitVec.sshiftRight, Int.shiftRight_eq_div_pow]
  rfl

theorem bitExtract_eq_and (x y : Word) : bitExtract x y false =
    (x >>> (y.toNat % 32)) &&& BitVec.ofNat 32 (2 ^ min (y.toNat / 256 % 64) (32 - y.toNat % 32) - 1) := by
  apply BitVec.eq_of_getLsbD_eq
  intro i hi
  rw [getLsbD_bitExtract_unsigned, fieldPos_eq, fieldWidth_eq, BitVec.getLsbD_and, BitVec.getLsbD_ushiftRight, BitVec.getLsbD_ofNat,
    Nat.testBit_two_pow_sub_one]
  simp [hi, Bool.and_comm]

theorem popc_le (x w : Nat) : popc x w ≤ w := by
  rw [popc_eq_countP]
  exact List.countP_le_length.trans_eq List.length_range

theorem popc_word (x : Word) :
    (BitVec.ofNat 32 (popc x.toNat 32)).toNat = (List.range 32).countP fun i => x.getLsbD i := by
  rw [BitVec.toNat_ofNat, Nat.mod_eq_of_lt ((popc_le x.toNat 32).trans_lt (by decide)), popc_eq_countP]
  rfl

theorem clz_word (x : Word) :
    let v : Word := BitVec.ofNat 32 (clz x.toNat 32)
    v.toNat ≤ 32 ∧ (∀ i, i < v.toNat → x.getLsbD (31 - i) = false) ∧ (v.toNat < 32 → x.getLsbD (31 - v.toNat) = true) := by
  obtain ⟨hle, hzero, hone⟩ := clz_spec x.toNat 32
  have hv : (BitVec.ofNat 32 (clz x.toNat 32)).toNat = clz x.toNat 32 := by
    rw [BitVec.toNat_ofNat, Nat.mod_eq_of_lt (by omega)]
  intro v
  rw [hv]
  exact ⟨hle, fun i hi => hzero _ (by omega) (by omega), hone⟩

theorem brev_word (x : Word) (i : Nat) (hi : i < 32) : (BitVec.ofNat 32 (brev x.toNat 32)).getLsbD (31 - i) = x.getLsbD i := by
  rw [BitVec.getLsbD_ofNat, testBit_brev x.toNat 32 i hi]
  simp [BitVec.getLsbD, show 31 - i < 32 by omega]

theorem ffs_word (x : Word) :
    let v : Word := BitVec.ofNat 32 (ffs x.toNat 0 32)
    v.toNat ≤ 32 ∧ (∀ i, i < v.toNat → x.getLsbD i = false) ∧ (v.toNat < 32 → x.getLsbD v.toNat = true) := by
  obtain ⟨-, hle, hzero, hone⟩ := ffs_spec x.toNat 0 32
  have hv : (BitVec.ofNat 32 (ffs x.toNat 0 32)).toNat = ffs x.toNat 0 32 := by
    rw [BitVec.toNat_ofNat, Nat.mod_eq_of_lt (by omega)]
  intro v
  rw [hv]
  exact ⟨by omega, fun i hi => hzero _ (by omega) hi, fun hlt => hone (by omega)⟩

theorem boolWord_decide (p : Prop) [Decidable p] : boolWord (decide p) = if p then 1 else 0 := by
  simp [boolWord]

theorem boolWord_decide_not (p : Prop) [Decidable p] : boolWord (decide ¬p) = if p then 0 else 1 := by
  by_cases hp : p <;> simp [boolWord, hp]

end Sys2Proof.Machine

namespace Sys2Proof

open Machine

/-- Settles O18: every scalar form is one shared operation with a word of its own. -/
theorem scalarIntegerResults : Obligations.ScalarIntegerResults := by
  intro s c h hs m d a b x y z n p w bin un
  have flagS := divide_word_signed_flag x y
  have flagN := divide_word_unsigned_flag x y
  refine ⟨runs_scalarSss h hs rfl rfl, runs_scalarSss h hs rfl rfl, runs_scalarSss h hs rfl rfl,
    runs_scalarSss h hs rfl (mulh_signed x y), runs_scalarSss h hs rfl (mulh_unsigned x y),
    fun hno => ?signedDivision, fun hno => ?unsignedDivision, fun htrap hcond => ?signedFault, fun htrap hcond => ?unsignedFault,
    runs_scalarSss h hs rfl rfl, runs_scalarSss h hs rfl rfl, runs_scalarSss h hs rfl rfl, runs_scalarSss h hs rfl rfl,
    runs_scalarSss h hs rfl (shiftBy_word_left x n), runs_scalarSss h hs rfl (shiftBy_word_logical x n),
    runs_scalarSss h hs rfl (shiftBy_word_arithmetic x n),
    runs_scalarSss h hs rfl rfl, runs_scalarSss h hs rfl rfl, runs_scalarSss h hs rfl rfl, runs_scalarSss h hs rfl rfl,
    runs_scalarSss h hs rfl (bitExtract_eq_and x y), ?insert,
    runs_scalarSss h hs rfl (boolWord_decide _), runs_scalarSss h hs rfl (boolWord_decide_not _),
    runs_scalarSss h hs rfl (boolWord_decide _), runs_scalarSss h hs rfl (boolWord_decide _),
    runs_scalarSss h hs rfl (boolWord_decide _), runs_scalarSss h hs rfl (boolWord_decide _),
    runs_scalarSss h hs rfl rfl, runs_scalarOp (sh := ⟨m, b.len, [], b.sregs⟩) h hs rfl rfl,
    ⟨_, popc_word x, runs_scalarSs h hs rfl rfl⟩, ⟨_, clz_word x, runs_scalarSs h hs rfl rfl⟩,
    ⟨_, brev_word x, runs_scalarSs h hs rfl rfl⟩, ⟨_, ffs_word x, runs_scalarSs h hs rfl rfl⟩⟩
  case signedDivision =>
    have hno' := hno.imp_right flagS.mpr
    exact ⟨runs_scalarDiv h hs rfl hno' (divide_word_sdiv x y), runs_scalarDiv h hs rfl hno' (divide_word_srem x y)⟩
  case unsignedDivision =>
    have hno' := hno.imp_right flagN.mpr
    exact ⟨runs_scalarDiv h hs rfl hno' (divide_word_udiv x y), runs_scalarDiv h hs rfl hno' (divide_word_umod x y)⟩
  case signedFault =>
    have hflag : (divide x.toNat y.toNat 32 true).2.2 ≠ .none := fun hnone => by
      obtain ⟨hy, hov⟩ := flagS.mp hnone
      exact hcond.elim hy hov
    simp only [List.forall_mem_cons, List.not_mem_nil, false_implies, implies_true, and_true]
    exact ⟨runs_scalarDiv_fault h (d := d) (signed := true) (quotient := true) rfl htrap hflag,
      runs_scalarDiv_fault h (d := d) (signed := true) (quotient := false) rfl htrap hflag⟩
  case unsignedFault =>
    have hflag : (divide x.toNat y.toNat 32 false).2.2 ≠ .none := fun hnone => flagN.mp hnone hcond
    simp only [List.forall_mem_cons, List.not_mem_nil, false_implies, implies_true, and_true]
    exact ⟨runs_scalarDiv_fault h (d := d) (signed := false) (quotient := true) rfl htrap hflag,
      runs_scalarDiv_fault h (d := d) (signed := false) (quotient := false) rfl htrap hflag⟩
  case insert =>
    refine ⟨bitInsert z x y, fun i hi => ?_, runs_scalarSss h hs rfl rfl⟩
    rw [getLsbD_bitInsert z x y hi, fieldPos_eq, fieldWidth_eq]

end Sys2Proof
end

section
/-! SUPPORT. The control instructions of one path (06 R95 to R100; 04 R61). A path that a RETRY has put back goes on at the NPC of
its fault, so that two successors which agree otherwise are the same to it (19 R290). -/

namespace Sys2Proof.Machine

/-! ### Successors -/

theorem Ctx.Done.congr_npc {c : Ctx} {t : State} {w : Warp} {p : Path} {npc npc' : Word} {m : Bool} {ws : List (WTarget × Word)}
    (h : c.Done t w p npc m ws) (hn : p.back.getD npc = p.back.getD npc') : c.Done t w p npc' m ws := by
  obtain ⟨clk, u, ht, hclk⟩ := h.warp
  refine ⟨h.frame, ⟨clk, u, ?_, hclk⟩, h.quiet⟩
  rw [ht]
  simp only [Ctx.after, Path.after, hn]

theorem Ctx.back_next (c : Ctx) (len : Nat) :
    c.p.back.getD (c.next len) = c.p.back.getD (c.p.pc + BitVec.ofNat 32 len) := by
  unfold Ctx.next
  cases c.p.back <;> rfl

/-! ### The form of a control instruction -/

/-- What the issuing path was does not count, once it is replaced. -/
theorem Ctx.after_setPath (c : Ctx) (w : Warp) (q : Option Path) (p : Path) (npc : Word) (m : Bool)
    (ws : List (WTarget × Word)) (clk : Option DWord) (u : List Uncovered) :
    c.after (w.setPath c.slot q) p npc m ws clk u = c.after w p npc m ws clk u := by
  unfold Ctx.after
  cases c.slot <;> rfl

section
variable {s : State} {c : Ctx} (h : s.ctx? = some c) (hs : c.SoundS) {i : Instr}
include h hs

/-- A control instruction that only goes on elsewhere. -/
theorem runs_goOn {sh : Shape} {npc : Ctx → Word} {npc' : Word}
    (hi : exec i s = withCtx s fun c => c.controlDone c.s sh none (npc c))
    (hn : c.p.back.getD (npc c) = c.p.back.getD npc') : Runs i s fun t => c.Writes t npc' sh.m [] := by
  unfold Runs
  rw [hi]
  exact ⟨_, withCtx_next h _, (Ctx.controlDone_done (State.ctx?_at h).own.now hs sh none _).congr_npc hn⟩

/-- A scalar-unit instruction that goes on at a PC of its own. -/
theorem runs_scalarGoOn {sh : Shape} {d : Field} {npc : Ctx → Word} {npc' v : Word} {f : Ctx → Word}
    (hi : exec i s = withCtx s fun c => c.scalarDone sh [(d.toNat, f c)] (npc c)) (hv : f c = v)
    (hn : c.p.back.getD (npc c) = c.p.back.getD npc') : Runs i s fun t => c.Scalar t npc' sh.m d v := by
  unfold Runs
  rw [hi, ← hv]
  exact ⟨_, withCtx_next h _, Ctx.Done.congr_npc (Ctx.scalarDone_done (State.ctx?_at h) hs sh d (f c) _) hn⟩

/-- A control instruction that changes a register of its path. -/
theorem controlDone_updPath (sh : Shape) (f : Path → Path) (hf : (f c.p).pc = c.p.pc) (npc : Word) :
    c.Done (c.controlDone (c.s.updPath c.ref c.slot f) sh none npc) c.w (f c.p) npc sh.m [] := by
  obtain ⟨hframe, hwarp, hquiet⟩ := Ctx.controlDone_done ((State.ctx?_at h).own.now.updPath f hf) hs sh none npc
  refine ⟨hframe, ?_, hquiet⟩
  simpa only [Ctx.after_setPath] using hwarp

end

/-! ### RET and BRX (06 R97) -/

theorem and_three_eq_zero_iff (x : Word) : x &&& 3 = 0 ↔ x.toNat % 4 = 0 := by
  rw [← toNat_eq_zero_iff, BitVec.toNat_and]
  exact iff_of_eq (congrArg (· = 0) (Nat.and_two_pow_sub_one_eq_mod x.toNat 2))

section
variable {s : State} {c : Ctx} (h : s.ctx? = some c) {i : Instr} {m : Bool} {a : Field} (hi : exec i s = jumpTo m a s)
include h hi

theorem runs_jumpTo (hs : c.SoundS) (ha : c.sr a.toNat &&& 3 = 0) : Runs i s fun t => c.Writes t (c.sr a.toNat) m [] := by
  rw [and_three_eq_zero_iff] at ha
  unfold Runs
  rw [hi]
  refine ⟨_, withCtx_next h _, ?_⟩
  simp only [ha, ne_eq, not_true_eq_false, if_false]
  exact Ctx.controlDone_done (State.ctx?_at h).own.now hs ⟨m, 4, [], [sRd a]⟩ none _

theorem runs_jumpTo_misaligned (ha : c.sr a.toNat &&& 3 ≠ 0) :
    Runs i s fun t => t = c.pathFault s .misaligned 0 (c.sr a.toNat) ⟨m, 4, [], [sRd a]⟩ := by
  rw [ne_eq, and_three_eq_zero_iff] at ha
  unfold Runs
  rw [hi]
  refine ⟨_, withCtx_next h _, ?_⟩
  simp only [ne_eq, ha, not_false_eq_true, if_true, (State.ctx?_at h).state]
  rfl

end

/-! ### MODE (03 R55) -/

theorem modeLegal_iff (v : Word) :
    modeLegal v = true ↔ v.toNat / 2 ^ 19 % 8 ≤ 4 ∧ v.toNat / 2 ^ 24 % 8 ≤ 5 ∧ v.toNat < 2 ^ 28 := by
  have hlt := v.isLt
  have hregs : Config.maskRegs = 1 := rfl
  have hguard : modeGuard v + Config.maskRegs - 1 ≤ 63 := by simp only [modeGuard, bits, hregs]; omega
  have hmemb : modeMemb v + Config.maskRegs - 1 ≤ 63 := by simp only [modeMemb, bits, hregs]; omega
  simp only [modeLegal, hguard, hmemb, decide_true, Bool.or_true, Bool.and_true, Bool.and_eq_true, decide_eq_true_eq, and_assoc]
  simp only [modeRnd, modeScope, bits]
  refine and_congr_right fun _ => and_congr_right fun _ => ?_
  omega

section
variable {s : State} {c : Ctx} (h : s.ctx? = some c) {m : Bool} {b : Src}
include h

theorem runs_setmode (hs : c.SoundS) (hv : modeLegal (c.sb b) = true) :
    Runs (.setmode m b) s fun t => c.Done t c.w { c.p with mode := c.sb b } (c.next b.len) m [] := by
  refine ⟨_, withCtx_next h _, ?_⟩
  simp only [hv, if_true]
  exact controlDone_updPath h hs ⟨m, b.len, [], b.sregs⟩ (fun p => { p with mode := c.sb b }) rfl _

theorem runs_setmode_illegal (hv : modeLegal (c.sb b) ≠ true) :
    Runs (.setmode m b) s fun t => t = c.pathFault s .illegalMode 0 0 ⟨m, b.len, [], b.sregs⟩ := by
  refine ⟨_, withCtx_next h _, ?_⟩
  simp only [if_neg hv, (State.ctx?_at h).state]

theorem runs_setix (hs : c.SoundS) :
    Runs (.setix m b) s fun t => c.Done t c.w { c.p with ix := c.sb b } (c.next b.len) m [] :=
  ⟨_, withCtx_next h _, controlDone_updPath h hs ⟨m, b.len, [], b.sregs⟩ (fun p => { p with ix := c.sb b }) rfl _⟩

end

end Sys2Proof.Machine

namespace Sys2Proof

open Machine

/-- Settles O26: each control instruction is one shared operation; what differs is where the path goes on. -/
theorem controlResults : Obligations.ControlResults := by
  intro s c h hs m d a b lit go v
  refine ⟨runs_goOn (sh := ⟨m, 4, [], []⟩) h hs rfl (c.back_next 4), runs_goOn (sh := ⟨m, 8, [], []⟩) h hs rfl rfl,
    runs_goOn (sh := ⟨m, 8, [], [sRd a]⟩) h hs rfl ?bz, runs_goOn (sh := ⟨m, 8, [], [sRd a]⟩) h hs rfl ?bnz,
    runs_scalarGoOn (sh := ⟨m, 8, [], []⟩) h hs rfl rfl rfl, fun ha => ⟨runs_jumpTo h rfl hs ha, runs_jumpTo h rfl hs ha⟩,
    fun ha => ⟨runs_jumpTo_misaligned h rfl ha, runs_jumpTo_misaligned h rfl ha⟩,
    runs_scalarGoOn (sh := ⟨m, 8, [], [sRd d]⟩) h hs rfl rfl ?loop,
    fun hr hsc hz => runs_setmode h hs ((modeLegal_iff v).mpr ⟨hr, hsc, hz⟩),
    fun hv => runs_setmode_illegal h (mt (modeLegal_iff v).mp hv),
    runs_scalarGoOn (sh := ⟨m, 4, [], []⟩) h hs rfl rfl (c.back_next 4), runs_setix h hs⟩
  case bz =>
    split
    · rfl
    · exact c.back_next 8
  case bnz =>
    split
    · exact c.back_next 8
    · rfl
  case loop =>
    simp only [sub_eq_zero]
    split
    · exact c.back_next 8
    · rfl

end Sys2Proof
end

section
/-! SUPPORT. The type check at issue (06 R88, R120, R121; 03 R51): which types an instruction accepts, and that the check comes after
the register check and before the guard. -/

namespace Sys2Proof.Machine

/-! ### Types -/

theorem intTypes_eq (c : Ctx) : intTypes c = [0, 1, 2, 3, 4, 5, 14].contains c.etype := by
  rw [Bool.eq_iff_iff]
  simp [intTypes, isIntType]
  omega

theorem fpTypes_eq (c : Ctx) : fpTypes c = [6, 7, 8].contains c.etype := by
  rw [Bool.eq_iff_iff]
  simp [fpTypes, isFpType, or_assoc]

theorem treeTypes_eq (c : Ctx) : treeTypes c = (decide (c.etype ≤ 8) || decide (c.etype = 14)) := by
  rw [Bool.eq_iff_iff]
  simp [treeTypes, isIntType, isFpType]
  omega

theorem wordTypes_eq (c : Ctx) : wordTypes c = decide (c.etype ≤ 1) := by
  rw [Bool.eq_iff_iff]
  simp [wordTypes]
  omega

theorem dot4Types_eq (t : Nat) : (decide (t = 4) || decide (t = 5)) = [4, 5].contains t := by
  rw [Bool.eq_iff_iff]
  simp

theorem fdot4Types_eq (t : Nat) : (decide (9 ≤ t) && decide (t ≤ 12)) = [9, 10, 11, 12].contains t := by
  rw [Bool.eq_iff_iff]
  simp
  omega

/-- The floating-point types (05 R75). -/
abbrev FloatType (t : Nat) : Prop := 6 ≤ t ∧ t ≤ 13

/-- The integer types (05 R74). -/
abbrev IntType (t : Nat) : Prop := t ≤ 5 ∨ t = 14

theorem isFloat_iff (t : Nat) : isFloat t = true ↔ FloatType t := by
  constructor
  · intro h
    unfold isFloat floatFmt at h
    split at h
    case h_9 => cases h
    all_goals decide
  · rintro ⟨hlo, hhi⟩
    interval_cases t <;> rfl

theorem isIntType_iff (t : Nat) : isIntType t = true ↔ IntType t := by simp [isIntType]

theorem sameClass_iff (x t : Nat) : sameClass x t = true ↔ FloatType x ∧ FloatType t ∨ IntType x ∧ IntType t := by
  simp only [sameClass, Bool.or_eq_true, Bool.and_eq_true, isFloat_iff, isIntType_iff]

/-! ### Instructions that list their types -/

/-- 06 R88: a type that the instruction does not take faults, once its registers lie within the allotment. -/
theorem issueOp_illegalMode {s : State} {c : Ctx} (h : s.ctx? = some c) (sh : Shape) (typeOk : Ctx → Bool) (f : Ctx → State)
    (hb : ∀ n ∈ sh.vregs, n < c.l.record.regs) (ht : typeOk c = false) :
    issueOp s sh typeOk f = .next (c.issueFault .illegalMode sh.len) := by
  have hb' : sh.inBounds c.l.record.regs = true := by simpa [Shape.inBounds] using hb
  simp [issueOp, withCtx, h, hb', ht]

/-- The instruction is issued under the checks of `issueOp`, with its own registers, length and list of types. -/
def IssuedUnderTypeCheck (i : Instr) : Prop :=
  ∃ (sh : Shape) (typeOk : Ctx → Bool) (f : Ctx → State), (∀ s, exec i s = issueOp s sh typeOk f) ∧
    sh.vregs = directVregs i ∧ sh.len = 4 * (encode i).length ∧ ∀ c, typeOk c = acceptsType c.etype i

/-- Every instruction that does not take every type is issued under the check. -/
theorem issuedUnderTypeCheck (i : Instr) {t : Nat} (h : acceptsType t i = false) : IssuedUnderTypeCheck i := by
  cases i
  any_goals cases h
  case vadd | vsub | vmul | vmulh | vmulhn | vmad | vdiv | vdivn | vrem | vremn | vshl | vshr | vsra | vmin | vmax | vminn | vmaxn
      | vceq | vcne | vclt | vcle => exact ⟨_, _, _, fun _ => rfl, rfl, len_encB _ _ _ _ _, intTypes_eq⟩
  case vabs | vneg | vpopc | vclz | vbrev => exact ⟨_, _, _, fun _ => rfl, rfl, rfl, intTypes_eq⟩
  case vfadd | vfsub | vfmul | vfma | vfms | vfnma | vfmin | vfmax | vfcpsgn | vfceq | vfclt | vfcle | vfcun | vfdiv | afadd | afmin
      | afmax | redfadd => exact ⟨_, _, _, fun _ => rfl, rfl, len_encB _ _ _ _ _, fpTypes_eq⟩
  case vfabs | vfneg | vfclass | vfsqrt | vfrint | vfrcp | vfrsq | vfexp2 | vflog2 | vfsinpi | vfcospi | vftanh =>
    exact ⟨_, _, _, fun _ => rfl, rfl, rfl, fpTypes_eq⟩
  case vred | vscan => exact ⟨_, _, _, fun _ => rfl, rfl, rfl, treeTypes_eq⟩
  case redmin | redmax => exact ⟨_, _, _, fun _ => rfl, rfl, len_encB _ _ _ _ _, wordTypes_eq⟩
  case vdot4 => exact ⟨_, _, _, fun _ => rfl, rfl, len_encB _ _ _ _ _, fun c => dot4Types_eq c.etype⟩
  case vdot4m | vdot8 => exact ⟨_, _, _, fun _ => rfl, rfl, len_encB _ _ _ _ _, fun _ => rfl⟩
  case vfdot4 => exact ⟨_, _, _, fun _ => rfl, rfl, len_encB _ _ _ _ _, fun c => fdot4Types_eq c.etype⟩
  case vfdot8 => exact ⟨_, _, _, fun _ => rfl, rfl, len_encB _ _ _ _ _, fun _ => rfl⟩

/-! ### Conversions -/

/-- The part of a word that a conversion names lies within it. -/
theorem partOk_iff (x t p : Nat) :
    partOk x t p = true ↔ p < max (elemWidth x) (elemWidth t) / min (elemWidth x) (elemWidth t) := by
  unfold partOk
  split
  next h => rw [max_eq_right h, min_eq_left h, decide_eq_true_iff]
  next h =>
    have h' := (Nat.lt_of_not_le h).le
    rw [max_eq_left h', min_eq_right h', decide_eq_true_iff]

theorem cvtType_eq (lit : Word) : cvtType lit = lit.toNat % 16 := by simp [cvtType, bits]

theorem cvtPart_eq (lit : Word) : cvtPart lit = lit.toNat / 16 % 8 := by simp [cvtPart, bits]

/-- The part that a conversion's literal names lies within the wider word. -/
abbrev PartIn (lit : Word) (x : Nat) : Prop :=
  lit.toNat / 16 % 8 < max (elemWidth x) (elemWidth (lit.toNat % 16)) / min (elemWidth x) (elemWidth (lit.toNat % 16))

/-- What a conversion asks of its types and its part. -/
def cvtTypeOk (ok : Nat → Nat → Bool) (lit : Word) (x : Nat) : Prop := ok x (lit.toNat % 16) = true ∧ PartIn lit x

theorem cvtTypeOk_iff (ok : Nat → Nat → Bool) (lit : Word) (x : Nat) :
    (ok x (cvtType lit) && partOk x (cvtType lit) (cvtPart lit)) = true ↔ cvtTypeOk ok lit x := by
  rw [Bool.and_eq_true, partOk_iff, cvtType_eq, cvtPart_eq, cvtTypeOk]

section
variable (lit : Word) (x : Nat)

theorem cvtTypeOk_vcvtw : cvtTypeOk (fun x t => sameClass x t && decide (elemWidth x ≤ elemWidth t)) lit x ↔
    (FloatType x ∧ FloatType (lit.toNat % 16) ∨ IntType x ∧ IntType (lit.toNat % 16)) ∧
      elemWidth x ≤ elemWidth (lit.toNat % 16) ∧ PartIn lit x := by
  rw [cvtTypeOk, Bool.and_eq_true, sameClass_iff, decide_eq_true_iff, and_assoc]

theorem cvtTypeOk_vcvtn : cvtTypeOk (fun x t => sameClass x t && decide (elemWidth t ≤ elemWidth x)) lit x ↔
    (FloatType x ∧ FloatType (lit.toNat % 16) ∨ IntType x ∧ IntType (lit.toNat % 16)) ∧
      elemWidth (lit.toNat % 16) ≤ elemWidth x ∧ PartIn lit x := by
  rw [cvtTypeOk, Bool.and_eq_true, sameClass_iff, decide_eq_true_iff, and_assoc]

theorem cvtTypeOk_vcvtfi : cvtTypeOk (fun x t => isFloat x && isIntType t) lit x ↔
    FloatType x ∧ IntType (lit.toNat % 16) ∧ PartIn lit x := by
  rw [cvtTypeOk, Bool.and_eq_true, isFloat_iff, isIntType_iff, and_assoc]

theorem cvtTypeOk_vcvtif : cvtTypeOk (fun x t => isIntType x && isFloat t) lit x ↔
    IntType x ∧ FloatType (lit.toNat % 16) ∧ PartIn lit x := by
  rw [cvtTypeOk, Bool.and_eq_true, isFloat_iff, isIntType_iff, and_assoc]

end

/-- 06 R120: a pair of types or a part that the conversion does not take faults. -/
theorem exec_cvt_illegalMode {s : State} {c : Ctx} (h : s.ctx? = some c) {i : Instr} {m : Bool} {d a : Field} {lit : Word}
    {ok : Nat → Nat → Bool} (hi : exec i s = cvtOp s m d a lit ok) (hb : ∀ n ∈ [d.toNat, a.toNat], n < c.l.record.regs)
    (ht : ¬cvtTypeOk ok lit c.etype) : exec i s = .next (c.issueFault .illegalMode 8) := by
  rw [hi]
  rw [← cvtTypeOk_iff, Bool.not_eq_true] at ht
  exact issueOp_illegalMode h (.vvl m false d a) _ _ hb ht

end Sys2Proof.Machine

namespace Sys2Proof

open Machine

/-- Settles O12: the instructions that list their types share one check, and the conversions have one of their own. -/
theorem typeFaultsPrecedeTheGuard : Obligations.TypeFaultsPrecedeTheGuard := by
  refine ⟨fun i s c h hregs hty => ?listed, fun s c h m d a lit hd ha => ?conversions⟩
  case listed =>
    obtain ⟨sh, typeOk, f, hexec, hvregs, hlen, hok⟩ := issuedUnderTypeCheck i hty
    rw [hexec, issueOp_illegalMode h sh typeOk f (hvregs ▸ hregs) ((hok c).trans hty), hlen]
  case conversions =>
    intro t ws wt part fl int same faults
    have hb : ∀ n ∈ [d.toNat, a.toNat], n < c.l.record.regs := by simpa using ⟨hd, ha⟩
    exact ⟨fun hbad => exec_cvt_illegalMode h rfl hb (mt (cvtTypeOk_vcvtw lit c.etype).mp hbad),
      fun hbad => exec_cvt_illegalMode h rfl hb (mt (cvtTypeOk_vcvtn lit c.etype).mp hbad),
      fun hbad => exec_cvt_illegalMode h rfl hb (mt (cvtTypeOk_vcvtfi lit c.etype).mp hbad),
      fun hbad => exec_cvt_illegalMode h rfl hb (mt (cvtTypeOk_vcvtif lit c.etype).mp hbad)⟩

end Sys2Proof
end

section
/-! SUPPORT. The vector integer instructions of two and three operands (06 R101 to R103): the forms that they share, the elements that
they write, and the status bits of division. -/

namespace Sys2Proof.Machine

/-! ### The elements (06 R102) -/

theorem wrapN_mod (w : Nat) (z : Int) : wrapN w z % 2 ^ w = wrapN w z := Nat.mod_eq_of_lt (wrapN_lt w z)

section
variable {x y w : Nat} (hx : x < 2 ^ w) (hy : y < 2 ^ w)
include hx hy

omit hx in
theorem wrapN_sub : wrapN w ((x : Int) - y) = (x + (2 ^ w - y)) % 2 ^ w := by
  rw [← wrapN_add_two_pow, ← wrapN_natCast]
  congr 1
  omega

theorem mul_div_two_pow_lt : x * y / 2 ^ w < 2 ^ w := by
  rw [Nat.div_lt_iff_lt_mul (Nat.two_pow_pos w)]
  exact Nat.mul_lt_mul'' hx hy

theorem pick_lt (signed larger : Bool) : pick w signed larger x y < 2 ^ w := by
  unfold pick
  split
  · exact hy
  · exact hx

omit hx hy in
theorem pick_min_signed : pick w true false x y = if sext x w ≤ sext y w then x else y := by
  by_cases h : sext x w ≤ sext y w <;> simp [pick, asInt, h]

omit hx hy in
theorem pick_max_signed : pick w true true x y = if sext x w ≤ sext y w then y else x := by
  by_cases h : sext x w ≤ sext y w <;> simp [pick, asInt, h]

theorem pick_min_unsigned : pick w false false x y = min x y := by
  simp only [pick, asInt, Bool.false_eq_true, if_false, Nat.mod_eq_of_lt hx, Nat.mod_eq_of_lt hy, Int.ofNat_le]
  by_cases h : x ≤ y
  · simp [h]
  · simp [h, (Nat.lt_of_not_le h).le]

theorem pick_max_unsigned : pick w false true x y = max x y := by
  simp only [pick, asInt, Bool.false_eq_true, if_false, Nat.mod_eq_of_lt hx, Nat.mod_eq_of_lt hy, Int.ofNat_le]
  by_cases h : x ≤ y
  · simp [h]
  · simp [h, (Nat.lt_of_not_le h).le]

end

/-! ### Quotients and remainders (06 R92, R103) -/

section
variable {x y w : Nat} (hx : x < 2 ^ w) (hy : y < 2 ^ w)
include hx hy

theorem divide_signed_quotient_mod (hw : 0 < w) : (divide x y w true).1 % 2 ^ w
    = if y = 0 then 2 ^ w - 1 else wrapN w ((sext x w).tdiv (sext y w)) := by
  have hp := Nat.two_pow_pos w
  rw [divide_signed hx hy hw]
  split
  · exact Nat.mod_eq_of_lt (by omega)
  · exact wrapN_mod _ _

theorem divide_signed_remainder_mod (hw : 0 < w) : (divide x y w true).2.1 % 2 ^ w
    = if y = 0 then x else wrapN w ((sext x w).tmod (sext y w)) := by
  rw [divide_signed hx hy hw]
  split
  · exact Nat.mod_eq_of_lt hx
  · exact wrapN_mod _ _

theorem divide_unsigned_quotient_mod : (divide x y w false).1 % 2 ^ w = if y = 0 then 2 ^ w - 1 else x / y := by
  have hp := Nat.two_pow_pos w
  rw [divide_unsigned hx hy]
  split
  · exact Nat.mod_eq_of_lt (by omega)
  · exact Nat.mod_eq_of_lt ((Nat.div_le_self ..).trans_lt hx)

theorem divide_unsigned_remainder_mod : (divide x y w false).2.1 % 2 ^ w = if y = 0 then x else x % y := by
  rw [divide_unsigned hx hy]
  split
  · exact Nat.mod_eq_of_lt hx
  · exact Nat.mod_eq_of_lt ((Nat.mod_le ..).trans_lt hx)

end

/-! ### Status of division (06 R92, R103) -/

theorem unionBits_or (n : Nat) (f g : Nat → Nat) : unionBits n (fun k => f k ||| g k) = unionBits n f ||| unionBits n g := by
  induction n with
  | zero => simp [unionBits]
  | succ n ih =>
    rw [unionBits_succ, unionBits_succ, unionBits_succ, ih]
    ac_rfl

theorem divide_unsigned_bits {x y w : Nat} (hx : x < 2 ^ w) (hy : y < 2 ^ w) :
    (divide x y w false).2.2.bits = if decide (y = 0) then 8 else 0 := by
  rw [divide_unsigned hx hy]
  by_cases h : y = 0 <;> simp [h, DivFlag.bits, stDZ]

theorem divide_signed_bits {x y w : Nat} (hx : x < 2 ^ w) (hy : y < 2 ^ w) (hw : 0 < w) : (divide x y w true).2.2.bits =
    (if decide (y = 0) then 8 else 0) ||| (if decide (x = 2 ^ (w - 1) ∧ y = 2 ^ w - 1) then 32 else 0) := by
  have hp := Nat.one_lt_two_pow hw.ne'
  rw [divide_signed hx hy hw]
  by_cases h : y = 0
  · have hov : ¬(x = 2 ^ (w - 1) ∧ y = 2 ^ w - 1) := by omega
    simp [if_pos h, hov, decide_eq_true h, DivFlag.bits, stDZ]
  · rw [if_neg h, decide_eq_false h]
    by_cases hov : x = 2 ^ (w - 1) ∧ y = 2 ^ w - 1
    · rw [if_pos hov, decide_eq_true hov]
      rfl
    · rw [if_neg hov, decide_eq_false hov]
      rfl

theorem b2n_or (p q : Bool) : (if p then 8 else 0) ||| (if q then 32 else 0) = 8 * b2n p + 32 * b2n q := by
  cases p <;> cases q <;> rfl

theorem b2n_ite (p : Bool) : (if p then 8 else 0) = 8 * b2n p := by cases p <;> rfl

/-! ### The forms of two and three operands -/

section
variable {s : State} {c : Ctx} (h : s.ctx? = some c) {i : Instr} {m : Bool} {d a : Field} {b : Src} (ht : intTypes c = true)
  (hr : c.Ready (d.toNat :: a.toNat :: b.vregs))
include h ht hr

/-- Element k of each lane is f of the operands' elements k. -/
theorem runs_elemOp {f : Nat → Nat → Nat → Nat} {g : Nat → Nat → Nat → Nat} (hi : exec i s = elemOp s m d a b f)
    (hg : ∀ x y z, x < 2 ^ elemWidth c.etype → y < 2 ^ elemWidth c.etype →
      f (elemWidth c.etype) x y % 2 ^ elemWidth c.etype = g x y z) :
    ∃ val : Nat → Word, (Runs i s fun t => c.Writes t (c.next b.len) m (laneSet c.active d.toNat val)) ∧
      ∀ l ∈ lanesOf c.active, ∀ k, k < 32 / elemWidth c.etype → elemAt (val l).toNat (elemWidth c.etype) k
        = g (elemAt (c.v a.toNat l).toNat (elemWidth c.etype) k) (elemAt (c.vb b l).toNat (elemWidth c.etype) k)
            (elemAt (c.v d.toNat l).toNat (elemWidth c.etype) k) := by
  refine ⟨_, runs_laneWord h (.vvv m false d a b) intTypes d _ hi ht hr, fun l _ k hk => ?_⟩
  rw [zipElems_eq, elemAt_wordOfElems _ _ hk]
  exact hg _ _ _ (elemAt_lt ..) (elemAt_lt ..)

/-- The lanes of a division give the quotients or remainders, with the status bits of all their elements. -/
theorem runs_vectorDiv {signed quotient : Bool} (hi : exec i s = vectorDiv s m d a b signed quotient) {st : Nat → Nat}
    {g : Nat → Nat → Nat} (hst : ∀ l, unionBits (32 / elemWidth c.etype) (fun k => (divide
      (elemAt (c.v a.toNat l).toNat (elemWidth c.etype) k) (elemAt (c.vb b l).toNat (elemWidth c.etype) k)
      (elemWidth c.etype) signed).2.2.bits) = st l)
    (hg : ∀ x y, x < 2 ^ elemWidth c.etype → y < 2 ^ elemWidth c.etype →
      (if quotient then (divide x y (elemWidth c.etype) signed).1 else (divide x y (elemWidth c.etype) signed).2.1)
        % 2 ^ elemWidth c.etype = g x y)
    (hno : modeTrapDiv c.p.mode = false ∨ ∀ l ∈ lanesOf c.active, st l = 0) :
    ∃ val : Nat → Word, (Runs i s fun t => c.Writes t (c.next b.len) m (laneSetSt c.active d.toNat val st)) ∧
      ∀ l ∈ lanesOf c.active, ∀ k, k < 32 / elemWidth c.etype → elemAt (val l).toNat (elemWidth c.etype) k
        = g (elemAt (c.v a.toNat l).toNat (elemWidth c.etype) k) (elemAt (c.vb b l).toNat (elemWidth c.etype) k) := by
  refine ⟨fun l => wordOfElems (elemWidth c.etype) fun k =>
      if quotient then (divide (elemAt (c.v a.toNat l).toNat (elemWidth c.etype) k)
        (elemAt (c.vb b l).toNat (elemWidth c.etype) k) (elemWidth c.etype) signed).1
      else (divide (elemAt (c.v a.toNat l).toNat (elemWidth c.etype) k)
        (elemAt (c.vb b l).toNat (elemWidth c.etype) k) (elemWidth c.etype) signed).2.1,
    runs_laneSetSt h (.vvv m false d a b) intTypes d.toNat _ _ st hi ht hr fun l hl => ?_, fun l _ k hk => ?_⟩
  · have hgo : ¬(modeTrapDiv c.p.mode = true ∧ st l ≠ 0) := fun hcond => hno.elim (by simp [hcond.1]) fun hz => hcond.2 (hz l hl)
    simp only [elemsOf_eq_map, zipWith_map_range, List.map_map, Function.comp_def, packRes_map_range, hst, if_neg hgo]
  · rw [elemAt_wordOfElems _ _ hk]
    exact hg _ _ (elemAt_lt ..) (elemAt_lt ..)

end

/-- The element that a multiply-add writes takes its third operand from the old vD. -/
theorem runs_vmad {s : State} {c : Ctx} (h : s.ctx? = some c) {m : Bool} {d a : Field} {b : Src} (ht : intTypes c = true)
    (hr : c.Ready (d.toNat :: a.toNat :: b.vregs)) :
    ∃ val : Nat → Word, (Runs (.vmad m d a b) s fun t => c.Writes t (c.next b.len) m (laneSet c.active d.toNat val)) ∧
      ∀ l ∈ lanesOf c.active, ∀ k, k < 32 / elemWidth c.etype → elemAt (val l).toNat (elemWidth c.etype) k
        = (elemAt (c.v a.toNat l).toNat (elemWidth c.etype) k * elemAt (c.vb b l).toNat (elemWidth c.etype) k
            + elemAt (c.v d.toNat l).toNat (elemWidth c.etype) k) % 2 ^ elemWidth c.etype := by
  refine ⟨_, runs_laneWord h (.vvv m true d a b) intTypes d _ rfl ht hr, fun l _ k hk => ?_⟩
  rw [zip3Elems_eq, elemAt_wordOfElems _ _ hk, Nat.mod_mod]

end Sys2Proof.Machine

namespace Sys2Proof

open Machine

/-- Settles O19: the instructions share their forms, and each has a fact about its elements. -/
theorem vectorArithmeticResults : Obligations.VectorArithmeticResults := by
  refine ⟨fun s c h ht m d a b hr => ?binary, fun s c h ht m d a b hr => ?division⟩
  case binary =>
    intro w bin
    have elem {i f g} (hi : exec i s = elemOp s m d a b f)
        (hg : ∀ x y z, x < 2 ^ w → y < 2 ^ w → f w x y % 2 ^ w = g x y z) : bin i g := runs_elemOp h ht hr hi hg
    have mad : bin (.vmad m d a b) fun x y z => (x * y + z) % 2 ^ w := runs_vmad h ht hr
    clear_value bin
    exact ⟨elem (rfl : execVadd m d a b s = _) fun x y _ _ _ => Nat.mod_mod _ _,
      elem (rfl : execVsub m d a b s = _) fun x y _ _ hy => (wrapN_mod _ _).trans (wrapN_sub hy),
      elem (rfl : execVmul m d a b s = _) fun x y _ _ _ => Nat.mod_mod _ _,
      elem (rfl : execVmulh m d a b s = _) fun x y _ _ _ => wrapN_mod _ _,
      elem (rfl : execVmulhn m d a b s = _) fun x y _ hx hy => Nat.mod_eq_of_lt (mul_div_two_pow_lt hx hy),
      mad,
      elem (rfl : execVshl m d a b s = _) fun x y _ _ _ => by rw [shiftBy_left, Nat.mod_mod],
      elem (rfl : execVshr m d a b s = _) fun x y _ hx _ => by
        rw [shiftBy_logical hx, Nat.mod_eq_of_lt ((Nat.div_le_self ..).trans_lt hx)],
      elem (rfl : execVsra m d a b s = _) fun x y _ hx _ => by rw [shiftBy_arithmetic (elemWidth_pos _) hx, wrapN_mod],
      elem (rfl : execVmin m d a b s = _) fun x y _ hx hy => (Nat.mod_eq_of_lt (pick_lt hx hy ..)).trans pick_min_signed,
      elem (rfl : execVmax m d a b s = _) fun x y _ hx hy => (Nat.mod_eq_of_lt (pick_lt hx hy ..)).trans pick_max_signed,
      elem (rfl : execVminn m d a b s = _) fun x y _ hx hy => (Nat.mod_eq_of_lt (pick_lt hx hy ..)).trans (pick_min_unsigned hx hy),
      elem (rfl : execVmaxn m d a b s = _) fun x y _ hx hy => (Nat.mod_eq_of_lt (pick_lt hx hy ..)).trans (pick_max_unsigned hx hy)⟩
  case division =>
    intro w x y dz ov run sst ust
    have hw : 0 < w := elemWidth_pos _
    have stSigned (l : Nat) : unionBits (32 / w) (fun k => (divide (x l k) (y l k) w true).2.2.bits) = sst l := by
      rw [unionBits_congr fun k _ => divide_signed_bits (elemAt_lt ..) (elemAt_lt ..) hw, unionBits_or, unionBits_ite, unionBits_ite,
        b2n_or]
    have stUnsigned (l : Nat) : unionBits (32 / w) (fun k => (divide (x l k) (y l k) w false).2.2.bits) = ust l := by
      rw [unionBits_congr fun k _ => divide_unsigned_bits (elemAt_lt ..) (elemAt_lt ..), unionBits_ite, b2n_ite]
    have div {i signed quotient st g} (hi : exec i s = vectorDiv s m d a b signed quotient)
        (hst : ∀ l, unionBits (32 / w) (fun k => (divide (x l k) (y l k) w signed).2.2.bits) = st l)
        (hg : ∀ x y, x < 2 ^ w → y < 2 ^ w →
          (if quotient then (divide x y w signed).1 else (divide x y w signed).2.1) % 2 ^ w = g x y) : run i st g :=
      runs_vectorDiv h ht hr hi hst hg
    clear_value run
    exact ⟨div (rfl : execVdiv m d a b s = _) stSigned fun x y hx hy => divide_signed_quotient_mod hx hy hw,
      div (rfl : execVrem m d a b s = _) stSigned fun x y hx hy => divide_signed_remainder_mod hx hy hw,
      div (rfl : execVdivn m d a b s = _) stUnsigned fun x y hx hy => divide_unsigned_quotient_mod hx hy,
      div (rfl : execVremn m d a b s = _) stUnsigned fun x y hx hy => divide_unsigned_remainder_mod hx hy⟩

end Sys2Proof
end

section
/-! SUPPORT. Compares (06 R107, R111): the mask that they write, lane by lane, and the lanes that fault. -/

namespace Sys2Proof.Machine

/-! ### The mask -/

/-- A lane of a compare: its bit and its status bits, or INVALID_OP where it traps. -/
def cmpRes (trap holds : Bool) (st : Nat) : CmpRes := if trap then .fault .invalidOp else .ok holds st

theorem cmpLanes_cmpRes (trap holds : Nat → Bool) (st : Nat → Nat) (ls : List Nat) :
    cmpLanes (fun l => cmpRes (trap l) (holds l) (st l)) ls = lanesWhere (fun l => !trap l && holds l) ls := by
  induction ls with
  | nil => rfl
  | cons l r ih => cases ht : trap l <;> cases hh : holds l <;> simp [cmpLanes, lanesWhere, cmpRes, ht, hh, ← ih]

theorem getLsbD_lanesWhere (f : Nat → Bool) (ls : List Nat) (hls : ∀ l ∈ ls, l < 32) {i : Nat} (hi : i < 32) :
    (lanesWhere f ls).getLsbD i = true ↔ i ∈ ls ∧ f i = true := by
  induction ls with
  | nil => simp [lanesWhere]
  | cons l r ih =>
    have hl := hls l (List.mem_cons_self ..)
    have ih' := ih fun x hx => hls x (List.mem_cons_of_mem _ hx)
    have hbit : (lanesWhere f (l :: r)).getLsbD i = true ↔ (i = l ∧ f l = true) ∨ (lanesWhere f r).getLsbD i = true := by
      rw [lanesWhere]
      cases hf : f l <;> simp [getLsbD_laneBit hl hi]
    rw [hbit, ih', List.mem_cons]
    constructor
    · rintro (⟨rfl, h⟩ | ⟨h, h'⟩)
      · exact ⟨.inl rfl, h⟩
      · exact ⟨.inr h, h'⟩
    · rintro ⟨rfl | h, h'⟩
      · exact .inl ⟨rfl, h'⟩
      · exact .inr ⟨h, h'⟩

theorem getLsbD_cmpLanes (q : LaneMask) (trap holds : Nat → Bool) (st : Nat → Nat) {l : Nat} (hl : l < 32) :
    (cmpLanes (fun l => cmpRes (trap l) (holds l) (st l)) (lanesOf q)).getLsbD l = true ↔
      q.getLsbD l = true ∧ trap l = false ∧ holds l = true := by
  rw [cmpLanes_cmpRes, getLsbD_lanesWhere _ _ (fun l hl => ((mem_lanesOf q l).mp hl).1) hl, mem_lanesOf, Bool.and_eq_true,
    Bool.not_eq_true', and_iff_right hl]

/-! ### Status and faults -/

/-- The status bits that a compare sets in the lanes of a list. -/
def statusWrites (st : Nat → Nat) (ls : List Nat) : List (WTarget × Word) :=
  ls.flatMap fun l => if st l = 0 then [] else [(.stSet l, BitVec.ofNat 32 (st l))]

theorem cmpRes_lane (trap holds : Bool) (st : Nat) : (cmpRes trap holds st).lane = trapRes trap [] st := by
  cases trap <;> rfl

theorem overLanes_cmpRes (trap holds : Nat → Bool) (st : Nat → Nat) (ls : List Nat) :
    overLanes 0 (fun l => (cmpRes (trap l) (holds l) (st l)).lane) ls
      = ⟨statusWrites st (ls.filter fun l => !trap l), faultsOf .invalidOp (ls.filter trap)⟩ := by
  simp only [cmpRes_lane, overLanes_trapRes]
  rfl

@[simp] theorem statusWrites_zero (ls : List Nat) : statusWrites (fun _ => 0) ls = [] := by simp [statusWrites]

/-! ### The form of a compare -/

section
variable {s : State} {c : Ctx} (h : s.ctx? = some c) {i : Instr} {m : Bool} {d a : Field} {b : Src}
  (hr : c.Ready (a.toNat :: b.vregs))
include h hr

/-- A compare whose registers are sound writes the mask of its Active lanes. -/
theorem maskOp_eq {typeOk : Ctx → Bool} (ht : typeOk c = true) (f : Ctx → Nat → CmpRes) :
    maskOp s m d a b typeOk f = .next (c.completeLanes c.s
      { Shape.svv m a b with reads := (Shape.svv m a b).reads ++ c.guardReads } c.active
      ⟨(.s d.toNat, cmpLanes (f c) (lanesOf c.active)) :: (overLanes 0 (fun l => (f c l).lane) (lanesOf c.active)).writes,
        (overLanes 0 (fun l => (f c l).lane) (lanesOf c.active)).faults⟩) := by
  obtain ⟨hb, hinj, hs⟩ := hr
  have hb' : (Shape.svv m a b).inBounds c.l.record.regs = true := by simpa [Shape.inBounds, Shape.svv] using hb
  rw [maskOp, issueOp_next h _ typeOk _ hb' ht]
  simp only [Ctx.softLanes_none hinj hs, Ctx.disarm, if_true, Ctx.guarded_eq (Ctx.soundS_none hinj hs),
    BitVec.ofNat_eq_ofNat, BitVec.getLsbD_zero, Bool.false_eq_true, if_false]

/-- The mask holds the lanes that do not trap and whose condition holds; the others that trap fault INVALID_OP. -/
theorem runs_maskOp {typeOk : Ctx → Bool} (ht : typeOk c = true) {f : Ctx → Nat → CmpRes}
    (hi : exec i s = maskOp s m d a b typeOk f) (trap holds : Nat → Bool) (st : Nat → Nat)
    (hf : f c = fun l => cmpRes (trap l) (holds l) (st l)) :
    ∃ v : Word,
      (Runs i s fun t => c.WritesOrInvalid t b.len m
        ((.s d.toNat, v) :: statusWrites st ((lanesOf c.active).filter fun l => !trap l)) ((lanesOf c.active).filter trap)) ∧
      ∀ l, l < 32 → (v.getLsbD l = true ↔ c.active.getLsbD l = true ∧ trap l = false ∧ holds l = true) := by
  refine ⟨cmpLanes (f c) (lanesOf c.active), ⟨_, hi.trans (maskOp_eq h hr ht f), ?_⟩, fun l hl => ?_⟩
  · rw [hf, overLanes_cmpRes]
    exact Ctx.completeLanes_invalid (State.ctx?_at h).own _ c.active _ _
  · rw [hf]
    exact getLsbD_cmpLanes c.active trap holds st hl

end

/-- A condition on all pairs of elements. -/
theorem all_zipWith_elems {α β : Type} (f : α → β → Bool) (g : Nat → α) (g' : Nat → β) (n : Nat) :
    (List.zipWith f ((List.range n).map g) ((List.range n).map g')).all id = true ↔ ∀ k, k < n → f (g k) (g' k) = true := by
  simp

theorem any_zipWith_elems {α β : Type} (f : α → β → Bool) (g : Nat → α) (g' : Nat → β) (n : Nat) :
    (List.zipWith f ((List.range n).map g) ((List.range n).map g')).any id = (List.range n).any fun k => f (g k) (g' k) := by
  rw [zipWith_map_range, List.any_map]
  rfl

end Sys2Proof.Machine
end

section
/-! SUPPORT. Unary vector integer instructions, the forms on whole lane words, integer compares and lane status (06 R104 to R108). -/

namespace Sys2Proof.Machine

/-! ### Unary elements (06 R104) -/

section
variable {x w : Nat} (hw : 0 < w) (hx : x < 2 ^ w)
include hx

theorem wrapN_neg : wrapN w (-(x : Int)) = (2 ^ w - x) % 2 ^ w := by
  have := wrapN_sub (x := 0) hx
  simpa using this

include hw

theorem wrapN_abs : wrapN w (if sext x w < 0 then -(sext x w) else sext x w) = if 2 ^ (w - 1) ≤ x then 2 ^ w - x else x := by
  have h2 := two_pow_eq_double hw
  have hp := Nat.two_pow_pos (w - 1)
  rw [sext_of_lt hx]
  by_cases h : x < 2 ^ (w - 1)
  · rw [if_pos h, if_neg (by omega), if_neg (by omega), wrapN_of_lt hx]
  · rw [if_neg h, if_pos (by omega), if_pos (by omega), ← wrapN_of_lt (w := w) (n := 2 ^ w - x) (by omega)]
    congr 1
    omega

omit hw in
/-- The leading zero bits place the value between two powers of two. -/
theorem clz_bounds : clz x w ≤ w ∧ x < 2 ^ (w - clz x w) ∧ (clz x w < w → 2 ^ (w - clz x w - 1) ≤ x) := by
  obtain ⟨hle, hzero, hone⟩ := clz_spec x w
  refine ⟨hle, Nat.lt_pow_two_of_testBit x fun i hi => ?_, fun hlt => ?_⟩
  · by_cases hiw : i < w
    · exact hzero i hi hiw
    · exact Nat.testBit_lt_two_pow (hx.trans_le (Nat.pow_le_pow_right (by decide) (Nat.le_of_not_lt hiw)))
  · rw [show w - clz x w - 1 = w - 1 - clz x w by omega]
    exact Nat.ge_two_pow_of_testBit (hone hlt)

end

section
variable {s : State} {c : Ctx} (h : s.ctx? = some c) {i : Instr} {m : Bool} {d a : Field}
include h

/-- Element k of each lane is related to the operand's element k, with the status bits of all elements. -/
theorem runs_elemUnary (ht : intTypes c = true) (hr : c.Ready [d.toNat, a.toNat]) {f : Nat → Nat → Nat → Nat × Nat}
    (hi : exec i s = elemUnary s m d a f) {st : Nat → Nat} {P : Nat → Nat → Prop}
    (hst : ∀ l, unionBits (32 / elemWidth c.etype) (fun k => (f c.etype (elemWidth c.etype)
      (elemAt (c.v a.toNat l).toNat (elemWidth c.etype) k)).2) = st l)
    (hP : ∀ x, x < 2 ^ elemWidth c.etype → P x ((f c.etype (elemWidth c.etype) x).1 % 2 ^ elemWidth c.etype)) :
    ∃ val : Nat → Word, (Runs i s fun t => c.Writes t (c.next 4) m (laneSetSt c.active d.toNat val st)) ∧
      ∀ l ∈ lanesOf c.active, ∀ k, k < 32 / elemWidth c.etype →
        P (elemAt (c.v a.toNat l).toNat (elemWidth c.etype) k) (elemAt (val l).toNat (elemWidth c.etype) k) := by
  refine ⟨fun l => wordOfElems (elemWidth c.etype) fun k =>
      (f c.etype (elemWidth c.etype) (elemAt (c.v a.toNat l).toNat (elemWidth c.etype) k)).1,
    runs_laneSetSt h (.vv m d a) intTypes d.toNat _ _ st hi ht hr fun l _ => ?_, fun l _ k hk => ?_⟩
  · simp only [elemsOf_eq_map, List.map_map, Function.comp_def, packRes_map_range, hst]
  · rw [elemAt_wordOfElems _ _ hk]
    exact hP _ (elemAt_lt ..)

/-! ### Whole lane words (06 R105, R106) -/

theorem runs_wordOp {b : Src} (hr : c.Ready (d.toNat :: a.toNat :: b.vregs)) {f : Word → Word → Word}
    (hi : exec i s = wordOp s m d a b f) :
    Runs i s fun t => c.Writes t (c.next b.len) m (laneSet c.active d.toNat fun l => f (c.v a.toNat l) (c.vb b l)) :=
  runs_laneWord h (.vvv m false d a b) anyType d (fun c l => f (c.v a.toNat l) (c.vb b l)) hi rfl hr

/-- A lane instruction that names vD alone. -/
theorem runs_setLanes (hr : c.Ready [d.toNat]) {reads : List Nat} {f : Ctx → Nat → Word}
    (hi : exec i s = laneWord s ⟨m, 4, [d.toNat], reads⟩ anyType d f) :
    Runs i s fun t => c.Writes t (c.next 4) m (laneSet c.active d.toNat (f c)) :=
  runs_laneWord h ⟨m, 4, [d.toNat], reads⟩ anyType d f hi rfl hr

/-! ### Compares (06 R107) -/

theorem runs_intCompare {b : Src} (ht : intTypes c = true) (hr : c.Ready (a.toNat :: b.vregs)) {f : Int → Int → Bool}
    (hi : exec i s = intCompare s m d a b f) :
    ∃ v : Word, (Runs i s fun t => c.Writes t (c.next b.len) m [(.s d.toNat, v)]) ∧
      ∀ l, l < 32 → (v.getLsbD l = true ↔ c.active.getLsbD l = true ∧ ∀ k, k < 32 / elemWidth c.etype →
        f (asInt (elemAt (c.v a.toNat l).toNat (elemWidth c.etype) k) (elemWidth c.etype) (isSigned c.etype))
          (asInt (elemAt (c.vb b l).toNat (elemWidth c.etype) k) (elemWidth c.etype) (isSigned c.etype)) = true) := by
  obtain ⟨v, hruns, hv⟩ := runs_maskOp h hr ht hi (fun _ => false)
    (fun l => allPairs (fun x y => f (asInt x (elemWidth c.etype) (isSigned c.etype)) (asInt y (elemWidth c.etype) (isSigned c.etype)))
      (elemsOf (c.v a.toNat l).toNat (elemWidth c.etype)) (elemsOf (c.vb b l).toNat (elemWidth c.etype))) (fun _ => 0) rfl
  refine ⟨v, by simpa using hruns, fun l hl => ?_⟩
  rw [hv l hl, allPairs, elemsOf_eq_map, elemsOf_eq_map, all_zipWith_elems]
  simp only [true_and]

/-! ### Lane status (06 R108) -/

theorem runs_vclrst {b : Src} (hs : c.SoundS) : Runs (.vclrst m b) s fun t => c.Writes t (c.next b.len) m
    ((lanesOf c.active).map fun l => (.stClr l, c.sb b &&& 0x3F)) := by
  have hsoft : c.softLanes b.sregs c.active = 0 := by
    refine Ctx.softWhere_none fun l _ e he => ?_
    cases b with
    | lit w => cases he
    | reg r =>
      obtain rfl : e = (256 + r.toNat, 0) := by simpa [Src.sregs, ownLane] using he
      exact hs _ (by omega)
  refine ⟨_, issueOp_next h ⟨m, b.len, [], b.sregs⟩ anyType _ rfl rfl, ?_⟩
  simp only [Ctx.guarded_eq hs, hsoft]
  have hall : c.active &&& ~~~(0 : LaneMask) = c.active := BitVec.and_allOnes
  rw [hall]
  exact Ctx.completeLanes_writes (State.ctx?_at h).own ⟨m, b.len, [], b.sregs ++ c.guardReads⟩ c.active _

end

end Sys2Proof.Machine

namespace Sys2Proof

open Machine

/-- Settles O20: the unary forms and the compares each share an operation; those on whole words write what they read. -/
theorem vectorUnaryWordCompareResults : Obligations.VectorUnaryWordCompareResults := by
  refine ⟨fun s c h ht m d a hr => ?unary, fun s c h m d a b => ⟨fun hr => ?words, fun hr => ?move, fun hr => ?lanes⟩,
    fun s c h m d a b => ⟨fun ht hr => ?compares, fun hr => ?getStatus, runs_vclrst h⟩⟩
  case unary =>
    intro w sg x ov run
    have hw : 0 < w := elemWidth_pos _
    have elem {i f st P} (hi : exec i s = elemUnary s m d a f)
        (hst : ∀ l, unionBits (32 / w) (fun k => (f c.etype w (x l k)).2) = st l)
        (hP : ∀ x, x < 2 ^ w → P x ((f c.etype w x).1 % 2 ^ w)) : run i st P := runs_elemUnary h ht hr hi hst hP
    have noStatus (l : Nat) : unionBits (32 / w) (fun _ => 0) = (fun _ => 0) l := by
      simpa using unionBits_ite (32 / w) 0 fun _ => true
    clear_value run
    refine ⟨elem (rfl : execVabs m d a s = _) (fun l => ?absStatus) fun x hx => ?abs,
      elem (rfl : execVneg m d a s = _) (fun l => ?negStatus) fun x hx => ?neg,
      elem (rfl : execVpopc m d a s = _) noStatus fun x hx => ?popc, elem (rfl : execVclz m d a s = _) noStatus fun x hx => ?clz,
      elem (rfl : execVbrev m d a s = _) noStatus fun x hx => ?brev⟩
    case absStatus =>
      cases hsg : isSigned c.etype with
      | true => simpa [sg, ov, hsg, stOV] using unionBits_ite (32 / w) 32 fun k => decide (x l k = 2 ^ (w - 1))
      | false => simpa [sg, ov, hsg] using noStatus l
    case negStatus =>
      cases hsg : isSigned c.etype with
      | true => simpa [sg, ov, hsg, stOV] using unionBits_ite (32 / w) 32 fun k => decide (x l k = 2 ^ (w - 1))
      | false => simpa [sg, ov, hsg] using noStatus l
    case abs =>
      cases hsg : isSigned c.etype with
      | true =>
        simp only [sg, hsg, if_true, true_and]
        rw [wrapN_mod, wrapN_abs hw hx]
      | false => simp [sg, hsg, Nat.mod_eq_of_lt hx]
    case neg => rw [wrapN_mod, wrapN_neg hx]
    case popc => rw [popc_eq_countP]
    case clz =>
      obtain ⟨hle, hbounds⟩ := clz_bounds hx
      rw [Nat.mod_eq_of_lt (hle.trans_lt Nat.lt_two_pow_self)]
      exact ⟨hle, hbounds⟩
    case brev =>
      rw [Nat.mod_eq_of_lt (brev_lt x w)]
      exact fun i hi => testBit_brev x w i hi
  case words =>
    refine ⟨runs_wordOp h hr (f := fun x y => x &&& y) rfl, runs_wordOp h hr (f := fun x y => x ||| y) rfl,
      runs_wordOp h hr (f := fun x y => x ^^^ y) rfl, runs_wordOp h hr (f := fun x y => x &&& ~~~y) rfl,
      ⟨_, runs_laneWord h (.vvv m false d a b) anyType d (fun c l => bitExtract (c.v a.toNat l) (c.vb b l) (isSigned c.etype))
          rfl rfl hr, ?extract⟩,
      ⟨_, runs_laneWord h (.vvv m true d a b) anyType d (fun c l => bitInsert (c.v d.toNat l) (c.v a.toNat l) (c.vb b l))
          rfl rfl hr, ?insert⟩⟩
    case extract =>
      intro l _ p w i hi
      rw [getLsbD_bitExtract _ _ _ hi, fieldPos_eq, fieldWidth_eq]
    case insert =>
      intro l _ p w i hi
      rw [getLsbD_bitInsert _ _ _ hi, fieldPos_eq, fieldWidth_eq]
  case move => exact runs_laneWord h ⟨m, b.len, d.toNat :: b.vregs, b.vregs⟩ anyType d (fun c l => c.vb b l) rfl rfl hr
  case lanes =>
    have get := runs_setLanes h hr (i := .vget m d a) (rfl : execVget m d a s = _)
    refine ⟨runs_setLanes h hr (f := fun c _ => c.sr a.toNat) rfl, fun ha => ?_, fun ha => ?_, fun ha => ?_, fun ha => ?_, fun ha => ?_⟩
    all_goals
      rw [ha] at get
      exact get
  case compares =>
    intro w mask
    have cmp {i : Instr} {f : Int → Int → Prop} {_ : ∀ x y, Decidable (f x y)}
        (hi : exec i s = intCompare s m d a b fun x y => decide (f x y)) : mask i f := by
      simpa only [decide_eq_true_eq] using runs_intCompare h ht hr hi
    clear_value mask
    exact ⟨cmp (rfl : execVceq m d a b s = _), cmp (rfl : execVcne m d a b s = _), cmp (rfl : execVclt m d a b s = _),
      cmp (rfl : execVcle m d a b s = _)⟩
  case getStatus => exact runs_setLanes h hr (rfl : execVgetst m d s = _)

end Sys2Proof
end

section
/-! SUPPORT. The floating-point arithmetic of lanes (06 R109 to R116): the form that its instructions share, a lane's result under
the traps of MODE. -/

namespace Sys2Proof.Machine

/-! ### A lane's result -/

theorem fpLane_eq_laneRes (c : Ctx) (rs : List (Nat × Nat)) :
    fpLane c rs = c.laneRes (packRes (elemWidth c.etype) rs).1 (packRes (elemWidth c.etype) rs).2 := by
  rw [Ctx.laneRes_eq, fpLane]

theorem fpElems_eq_map (c : Ctx) (x : Word) : fpElems c x
    = (List.range (32 / elemWidth c.etype)).map fun k => elemVal c.etype (elemAt x.toNat (elemWidth c.etype) k) := by
  rw [fpElems, elemsOf_eq_map, List.map_map]
  rfl

/-! ### The forms of floating-point instructions -/

/-- The result of an arithmetic form: in each lane the elements of g rounded, and the status of all of them. -/
def FpResult (s : State) (c : Ctx) (i : Instr) (len : Nat) (m : Bool) (d : Field) (g : Nat → Nat → Res) : Prop :=
  ∃ val : Nat → Word,
    (Runs i s fun t => c.Lanes t len m (lanesOf c.active) d.toNat val
      fun l => unionBits (32 / elemWidth c.etype) fun k => (roundRes c (g l k)).2) ∧
    ∀ l ∈ lanesOf c.active, ∀ k, k < 32 / elemWidth c.etype →
      elemAt (val l).toNat (elemWidth c.etype) k = (roundRes c (g l k)).1 % 2 ^ elemWidth c.etype

/-- Element k of register n in lane l, as a value. -/
def Ctx.fp (c : Ctx) (n l k : Nat) : FVal := elemVal c.etype (elemAt (c.v n l).toNat (elemWidth c.etype) k)

/-- Element k of the B operand in lane l, as a value. -/
def Ctx.fpB (c : Ctx) (b : Src) (l k : Nat) : FVal := elemVal c.etype (elemAt (c.vb b l).toNat (elemWidth c.etype) k)

section
variable {s : State} {c : Ctx} (h : s.ctx? = some c) {i : Instr}
include h

/-- Element k of lane l is the first component of g l k, the lane's status bits are the second components together. -/
theorem runs_fpLanes {sh : Shape} {d : Field} {F : Ctx → Nat → LaneRes} (hi : exec i s = laneOp s sh fpTypes d.toNat F)
    (ht : fpTypes c = true) (hr : c.Ready sh.vregs) (g : Nat → Nat → Nat × Nat)
    (hF : ∀ l ∈ lanesOf c.active, F c l = fpLane c ((List.range (32 / elemWidth c.etype)).map (g l))) :
    ∃ val : Nat → Word,
      (Runs i s fun t => c.Lanes t sh.len sh.m (lanesOf c.active) d.toNat val
        fun l => unionBits (32 / elemWidth c.etype) fun k => (g l k).2) ∧
      ∀ l ∈ lanesOf c.active, ∀ k, k < 32 / elemWidth c.etype →
        elemAt (val l).toNat (elemWidth c.etype) k = (g l k).1 % 2 ^ elemWidth c.etype := by
  refine ⟨fun l => wordOfElems (elemWidth c.etype) fun k => (g l k).1, runs_lanes h sh fpTypes d.toNat F _ _ hi ht hr fun l hl => ?_,
    fun l _ k hk => elemAt_wordOfElems _ _ hk⟩
  rw [hF l hl, fpLane_eq_laneRes, packRes_map_range]

variable {m : Bool} {d a : Field} {b : Src} (ht : fpTypes c = true)
include ht

theorem runs_fpUnary (hr : c.Ready [d.toNat, a.toNat]) {f : Nat → FVal → Res} (hi : exec i s = fpUnary s m d a f) :
    FpResult s c i 4 m d fun l k => f c.rnd (c.fp a.toNat l k) := by
  refine runs_fpLanes h (sh := .vv m d a) hi ht hr (fun l k => roundRes c (f c.rnd (c.fp a.toNat l k))) fun l _ => ?_
  rw [fpElems_eq_map, List.map_map]
  rfl

variable (hr : c.Ready (d.toNat :: a.toNat :: b.vregs))
include hr

theorem runs_fpBinary {f : Nat → FVal → FVal → Res} (hi : exec i s = fpBinary s m d a b f) :
    FpResult s c i b.len m d fun l k => f c.rnd (c.fp a.toNat l k) (c.fpB b l k) := by
  refine runs_fpLanes h (sh := .vvv m false d a b) hi ht hr
    (fun l k => roundRes c (f c.rnd (c.fp a.toNat l k) (c.fpB b l k))) fun l _ => ?_
  rw [fpElems_eq_map, fpElems_eq_map, zipWith_map_range]
  rfl

theorem runs_fpTernary {f : Nat → FVal → FVal → FVal → Res} (hi : exec i s = fpTernary s m d a b f) :
    FpResult s c i b.len m d fun l k => f c.rnd (c.fp a.toNat l k) (c.fpB b l k) (c.fp d.toNat l k) := by
  refine runs_fpLanes h (sh := .vvv m true d a b) hi ht hr
    (fun l k => roundRes c (f c.rnd (c.fp a.toNat l k) (c.fpB b l k) (c.fp d.toNat l k))) fun l _ => ?_
  rw [fpElems_eq_map, fpElems_eq_map, fpElems_eq_map, zipWith_map_range, zipWith_map_range]
  rfl

end

end Sys2Proof.Machine

namespace Sys2Proof

open Machine

/-- Settles O21: every form is unary, binary or ternary over the elements, with an exact function of its own. -/
theorem floatArithmeticResults : Obligations.FloatArithmeticResults := by
  intro s c h ht m d a b w x y z run
  refine ⟨fun hr => ?binary, fun hr => ?unary⟩
  case binary =>
    have bin (f : Nat → FVal → FVal → Res) {i} (hi : exec i s = fpBinary s m d a b f) :
        run i b.len fun l k => f c.rnd (x l k) (y l k) := runs_fpBinary h ht hr hi
    have ter (f : Nat → FVal → FVal → FVal → Res) {i} (hi : exec i s = fpTernary s m d a b f) :
        run i b.len fun l k => f c.rnd (x l k) (y l k) (z l k) := runs_fpTernary h ht hr hi
    exact ⟨bin (fun r x y => addF r x y) rfl, bin (fun r x y => addF r x (negVal y)) rfl, bin (fun _ x y => mulF x y) rfl,
      ter (fun r x y z => fmaF r x y z) rfl, ter (fun r x y z => fmaF r x y (negVal z)) rfl,
      ter (fun r x y z => fmaF r (negVal x) y z) rfl, bin (fun _ x y => divF x y) rfl,
      bin (fun _ x y => minmaxF false x y) rfl, bin (fun _ x y => minmaxF true x y) rfl⟩
  case unary =>
    have un (f : Nat → FVal → Res) {i} (hi : exec i s = fpUnary s m d a f) : run i 4 fun l k => f c.rnd (x l k) :=
      runs_fpUnary h ht hr hi
    exact ⟨un (fun _ x => sqrtF x) rfl, un (fun r x => rintF r x) rfl, un (fun _ x => rcpF x) rfl, un (fun _ x => rsqF x) rfl,
      un (fun _ x => exp2F x) rfl, un (fun _ x => log2F x) rfl, un (fun _ x => sinpiF x) rfl, un (fun _ x => cospiF x) rfl,
      un (fun _ x => tanhF x) rfl⟩

end Sys2Proof
end

section
/-! SUPPORT. Floating-point sign operations, classification and compares (06 R111 to R113). -/

namespace Sys2Proof.Machine

/-! ### The formats of 06 R109 -/

theorem fpTypes_cases {c : Ctx} (ht : fpTypes c = true) : c.etype = 6 ∨ c.etype = 7 ∨ c.etype = 8 := by
  simpa [fpTypes, isFpType, or_assoc] using ht

section
variable {t : Nat} (ht : t = 6 ∨ t = 7 ∨ t = 8)
include ht

theorem elemVal_eq_fdecode (x : Nat) : elemVal t x = fdecode (fmtOf t) x := by rcases ht with rfl | rfl | rfl <;> rfl

/-- The sign bit is the highest one. -/
theorem fmtOf_signBit : (fmtOf t).ex + (fmtOf t).man = elemWidth t - 1 := by rcases ht with rfl | rfl | rfl <;> rfl

theorem fmtOf_canon : (fmtOf t).canon.getD 0 = if t = 6 then 0x7FC00000 else if t = 7 then 0x7E00 else 0x7FC0 := by
  rcases ht with rfl | rfl | rfl <;> rfl

theorem fmtOf_canon_lt : (fmtOf t).canon.getD 0 < 2 ^ elemWidth t := by rcases ht with rfl | rfl | rfl <;> decide

theorem two_pow_ten_lt : 2 ^ 10 < 2 ^ elemWidth t := by rcases ht with rfl | rfl | rfl <;> decide

/-! ### Sign operations (06 R112) -/

theorem signElem_fst_mod (x : Nat) (neg : Bool) : (signElem (fmtOf t) x neg).1 % 2 ^ elemWidth t =
    if (elemVal t x).isNaN then (if t = 6 then 0x7FC00000 else if t = 7 then 0x7E00 else 0x7FC0)
    else x % 2 ^ (elemWidth t - 1) + b2n neg * 2 ^ (elemWidth t - 1) := by
  have h2 := two_pow_eq_double (elemWidth_pos t)
  have hsum : x % 2 ^ (elemWidth t - 1) + b2n neg * 2 ^ (elemWidth t - 1) < 2 ^ elemWidth t := by
    have hx := Nat.mod_lt x (Nat.two_pow_pos (elemWidth t - 1))
    cases neg <;> simp only [b2n] <;> simp <;> omega
  rw [elemVal_eq_fdecode ht, ← fmtOf_canon ht, signElem, fmtOf_signBit ht]
  cases fdecode (fmtOf t) x with
  | nan s => exact Nat.mod_eq_of_lt (fmtOf_canon_lt ht)
  | inf n => exact Nat.mod_eq_of_lt hsum
  | fin n m e => exact Nat.mod_eq_of_lt hsum

theorem signElem_snd (x : Nat) (neg : Bool) :
    (signElem (fmtOf t) x neg).2 = if decide (elemVal t x = .nan true) then stNV else 0 := by
  rw [elemVal_eq_fdecode ht, signElem]
  cases fdecode (fmtOf t) x with
  | nan s => cases s <;> rfl
  | inf n => rfl
  | fin n m e => rfl

theorem signOf_eq_testBit (x : Nat) : signOf (fmtOf t) x = x.testBit (elemWidth t - 1) := by
  rw [signOf, fmtOf_signBit ht, bitAt_eq_testBit]

end

/-! ### Classification (06 R113) -/

theorem fclass_lt (f : FloatFmt) (x : Nat) : fclass f x < 2 ^ 10 := by
  unfold fclass
  split <;> split_ifs <;> decide

/-! ### Conditions on values (06 R111) -/

theorem not_ordered (x y : FVal) : (!ordered x y) = (x.isNaN || y.isNaN) := by simp [ordered]

theorem ordered_iff (x y : FVal) : ordered x y = true ↔ (x.isNaN || y.isNaN) = false := by
  rw [← not_ordered, Bool.not_eq_false']

theorem anySNaN_cons (x : FVal) (r : List FVal) : anySNaN (x :: r) = (decide (x = .nan true) || anySNaN r) := by
  cases x with
  | nan s => cases s <;> rfl
  | inf n => rfl
  | fin n m e => rfl

theorem signals_eq (x y : FVal) : signals x y = (decide (x = .nan true) || decide (y = .nan true)) := by
  rw [signals, anySNaN_cons, anySNaN_cons]
  exact congrArg _ (Bool.or_false _)

/-! ### The forms -/

/-- The status bits of a lane that compares: NV where nv holds for one of its elements. -/
def Ctx.cmpStatus (c : Ctx) (nv : Nat → Nat → Bool) (l : Nat) : Nat :=
  if (List.range (32 / elemWidth c.etype)).any (nv l) then stNV else 0

/-- The lane traps on them. -/
def Ctx.cmpTrap (c : Ctx) (nv : Nat → Nat → Bool) (l : Nat) : Bool := modeTrapNv c.p.mode && decide (c.cmpStatus nv l ≠ 0)

theorem Ctx.cmpTrap_iff (c : Ctx) (nv : Nat → Nat → Bool) (l : Nat) : c.cmpTrap nv l = true ↔
    modeTrapNv c.p.mode = true ∧ (List.range (32 / elemWidth c.etype)).any (nv l) = true := by
  unfold Ctx.cmpTrap Ctx.cmpStatus
  cases (List.range (32 / elemWidth c.etype)).any (nv l) <;> simp [stNV]

section
variable {s : State} {c : Ctx} (h : s.ctx? = some c) {i : Instr} {m : Bool} {d a : Field} {b : Src} (ht : fpTypes c = true)
include h ht

/-- A compare's bit is set in the Active lanes that do not trap and in which the condition holds for every element. -/
theorem runs_fpCompare (hr : c.Ready (a.toNat :: b.vregs)) {cond nv : FVal → FVal → Bool}
    (hi : exec i s = fpCompare s m d a b cond nv) {nv' : Nat → Nat → Bool} {holds : Nat → Nat → Prop}
    (hnv : ∀ l k, nv (c.fp a.toNat l k) (c.fpB b l k) = nv' l k)
    (hholds : ∀ l k, cond (c.fp a.toNat l k) (c.fpB b l k) = true ↔ holds l k) :
    ∃ v : Word,
      (Runs i s fun t => c.WritesOrInvalid t b.len m
        ((.s d.toNat, v) :: statusWrites (c.cmpStatus nv') ((lanesOf c.active).filter fun l => !c.cmpTrap nv' l))
        ((lanesOf c.active).filter (c.cmpTrap nv'))) ∧
      ∀ l, l < 32 → (v.getLsbD l = true ↔ c.active.getLsbD l = true ∧ c.cmpTrap nv' l = false ∧
        ∀ k, k < 32 / elemWidth c.etype → holds l k) := by
  have hlane (l : Nat) : (List.zipWith nv (fpElems c (c.v a.toNat l)) (fpElems c (c.vb b l))).any id
      = (List.range (32 / elemWidth c.etype)).any (nv' l) := by
    rw [fpElems_eq_map, fpElems_eq_map, any_zipWith_elems, ← funext (hnv l)]
    rfl
  obtain ⟨v, hruns, hv⟩ := runs_maskOp h hr ht hi (c.cmpTrap nv')
    (fun l => (List.zipWith cond (fpElems c (c.v a.toNat l)) (fpElems c (c.vb b l))).all id) (c.cmpStatus nv') (funext fun l => by
      simp only [hlane, cmpRes, Ctx.cmpTrap_iff, Ctx.cmpStatus])
  refine ⟨v, hruns, fun l hl => ?_⟩
  rw [hv l hl, fpElems_eq_map, fpElems_eq_map, all_zipWith_elems]
  exact and_congr_right fun _ => and_congr_right fun _ => forall₂_congr fun k _ => hholds l k

/-- A sign operation writes elements with a sign bit of their own, and canonical NaNs. -/
theorem runs_signElems {sh : Shape} {F : Ctx → Nat → LaneRes} (hi : exec i s = laneOp s sh fpTypes d.toNat F)
    (hr : c.Ready sh.vregs) (e : Nat → Nat → Nat) (neg : Nat → Nat → Bool)
    (hF : ∀ l, F c l = fpLane c ((List.range (32 / elemWidth c.etype)).map fun k => signElem (fmtOf c.etype) (e l k) (neg l k))) :
    ∃ val : Nat → Word,
      (Runs i s fun t => c.Lanes t sh.len sh.m (lanesOf c.active) d.toNat val
        (c.cmpStatus fun l k => decide (elemVal c.etype (e l k) = .nan true))) ∧
      ∀ l ∈ lanesOf c.active, ∀ k, k < 32 / elemWidth c.etype → elemAt (val l).toNat (elemWidth c.etype) k =
        if (elemVal c.etype (e l k)).isNaN then (if c.etype = 6 then 0x7FC00000 else if c.etype = 7 then 0x7E00 else 0x7FC0)
        else e l k % 2 ^ (elemWidth c.etype - 1) + b2n (neg l k) * 2 ^ (elemWidth c.etype - 1) := by
  have hty := fpTypes_cases ht
  obtain ⟨val, hruns, hval⟩ := runs_fpLanes h hi ht hr (fun l k => signElem (fmtOf c.etype) (e l k) (neg l k)) fun l _ => hF l
  have hst : (fun l => unionBits (32 / elemWidth c.etype) fun k => (signElem (fmtOf c.etype) (e l k) (neg l k)).2)
      = c.cmpStatus fun l k => decide (elemVal c.etype (e l k) = .nan true) := by
    funext l
    rw [unionBits_congr fun k _ => signElem_snd hty (e l k) (neg l k), unionBits_ite]
    rfl
  refine ⟨val, hst ▸ hruns, fun l hl k hk => ?_⟩
  rw [hval l hl k hk, signElem_fst_mod hty]

end

end Sys2Proof.Machine

namespace Sys2Proof

open Machine

/-- Settles O23: sign operations and compares each share one form. -/
theorem floatSignAndCompareResults : Obligations.FloatSignAndCompareResults := by
  intro s c h ht m d a b w canon e g x y some' sign cmp nan snan
  have hty := fpTypes_cases ht
  refine ⟨fun hr => ?signs, fun hr => ?copySign, fun hr => ?compares⟩
  case signs =>
    have un {i neg} (hi : exec i s = signOp s m d a neg) {neg' : Nat → Nat → Bool}
        (hneg : ∀ l k, neg ((e l k).testBit (w - 1)) = neg' l k) : sign i 4 neg' := by
      refine runs_signElems h ht (sh := .vv m d a) hi hr e neg' fun l => ?_
      simp only [elemsOf_eq_map, List.map_map, Function.comp_def, signOf_eq_testBit hty, ← hneg]
      rfl
    refine ⟨un (i := .vfabs m d a) (neg := fun _ => false) rfl fun _ _ => rfl,
      un (i := .vfneg m d a) (neg := fun n => !n) rfl fun _ _ => rfl,
      _, runs_laneWord h (.vv m d a) fpTypes d (fun c l => mapElems (elemWidth c.etype) (fclass (fmtOf c.etype)) (c.v a.toNat l))
        rfl ht hr, fun l _ k hk => ?_⟩
    rw [mapElems_eq, elemAt_wordOfElems _ _ hk]
    exact Nat.mod_eq_of_lt ((fclass_lt _ _).trans (two_pow_ten_lt hty))
  case copySign =>
    refine runs_signElems h ht (sh := .vvv m false d a b) (i := .vfcpsgn m d a b) rfl hr e
      (fun l k => (g l k).testBit (w - 1)) fun l => ?_
    simp only [elemsOf_eq_map, zipWith_map_range, signOf_eq_testBit hty]
    rfl
  case compares =>
    have ord (l k : Nat) : (!ordered (x l k) (y l k)) = nan l k := not_ordered _ _
    have sig (l k : Nat) : signals (x l k) (y l k) = snan l k := signals_eq _ _
    have com {i} {cond nv : FVal → FVal → Bool} {nv' : Nat → Nat → Bool} {holds : Nat → Nat → Prop}
        (hi : exec i s = fpCompare s m d a b cond nv) (hnv : ∀ l k, nv (x l k) (y l k) = nv' l k)
        (hholds : ∀ l k, cond (x l k) (y l k) = true ↔ holds l k) : cmp i nv' holds := runs_fpCompare h ht hr hi hnv hholds
    clear_value cmp
    refine ⟨com (rfl : execVfceq m d a b s = _) sig fun l k => ?_, com (rfl : execVfclt m d a b s = _) ord fun l k => ?_,
      com (rfl : execVfcle m d a b s = _) ord fun l k => ?_, com (rfl : execVfcun m d a b s = _) sig fun l k => ?_⟩
    · rw [Bool.and_eq_true, ordered_iff, decide_eq_true_iff]
    · rw [Bool.and_eq_true, ordered_iff, decide_eq_true_iff]
    · rw [Bool.and_eq_true, ordered_iff, decide_eq_true_iff]
    · rw [not_ordered]

end Sys2Proof
end

section
/-! SUPPORT. Rounding sets no DZ bit (05 R79, R80), so that TRAPDIV stops no dot product and no conversion; the packed dot products
and the decode of trits (06 R117 to R119). -/

namespace Sys2Proof.Machine

/-! ### Rounding and DZ -/

/-- A set of status bits without DZ. -/
abbrev NoDZ (f : Nat) : Prop := f / 8 % 2 = 0

theorem noDZ_iff (f : Nat) : NoDZ f ↔ f.testBit 3 = false := by
  rw [Nat.testBit_eq_decide_div_mod_eq, decide_eq_false_iff_not, NoDZ]
  omega

theorem NoDZ.or {f g : Nat} (hf : NoDZ f) (hg : NoDZ g) : NoDZ (f ||| g) := by
  rw [noDZ_iff] at *
  rw [Nat.testBit_or, hf, hg]
  rfl

theorem NoDZ.hasBit {f : Nat} (hf : NoDZ f) : hasBit f stDZ = false := by
  simp [Machine.hasBit, stDZ, show f / 8 % 2 = 0 from hf]

theorem NoDZ.unionBits {n : Nat} {f : Nat → Nat} (hf : ∀ k, NoDZ (f k)) : NoDZ (unionBits n f) := by
  simp only [noDZ_iff] at *
  simp [testBit_unionBits, hf]

theorem NoDZ.foldl {α : Type} (f : α → Nat) (xs : List α) (hf : ∀ x ∈ xs, NoDZ (f x)) {z : Nat} (hz : NoDZ z) :
    NoDZ (xs.foldl (fun e x => e ||| f x) z) := by
  induction xs generalizing z with
  | nil => exact hz
  | cons x xs ih =>
    exact ih (fun y hy => hf y (List.mem_cons_of_mem _ hy)) (hz.or (hf x (List.mem_cons_self ..)))

theorem roundF_noDZ (f : FloatFmt) (rnd : Nat) (sat : Bool) (x : Exact) : NoDZ (roundF f rnd sat x).2 := by
  cases x with
  | nan s =>
    simp only [roundF]
    cases f.canon <;> cases s <;> simp [stNV]
  | inf neg =>
    simp only [roundF]
    cases f.hasInf <;> simp [stOF]
  | fin neg m e sticky =>
    simp only [roundF]
    split_ifs <;> simp [stOF, stNX, stUF]

theorem roundI_noDZ (w : Nat) (signed : Bool) (rnd : Nat) (x : Exact) : NoDZ (roundI w signed rnd x).2 := by
  cases x with
  | nan s => simp [roundI, stNV]
  | inf neg => simp [roundI, stNV]
  | fin neg m e sticky =>
    simp only [roundI]
    split_ifs <;> simp [stOF, stNX]

theorem roundTo_noDZ (t rnd : Nat) (sat : Bool) (x : Exact) : NoDZ (roundTo t rnd sat x).2 := by
  unfold roundTo
  cases floatFmt t with
  | some f => exact roundF_noDZ f rnd sat x
  | none =>
    cases intFmt t with
    | some p => exact roundI_noDZ p.1 p.2 rnd x
    | none => simp

/-- A lane whose status has no DZ bit can only take the trap of an invalid operation. -/
theorem Ctx.laneRes_of_noDZ {c : Ctx} {st : Nat} (h : NoDZ st) (x : Word) : c.laneRes x st =
    if modeTrapNv c.p.mode ∧ Machine.hasBit st stNV then .fault .invalidOp 0 0 else .ok [x] st := by
  rw [Ctx.laneRes_eq, h.hasBit]
  simp

/-! ### Integer dot products (06 R117) -/

theorem dotInt_eq_foldl (w : Nat) (sx sy : Bool) (x y : Word) : dotInt w sx sy x y
    = (List.range (32 / w)).foldl (fun t k => t + asInt (elemAt x.toNat w k) w sx * asInt (elemAt y.toNat w k) w sy) 0 := by
  rw [dotInt, elemsOf_eq_map, elemsOf_eq_map, zipWith_map_range, List.foldl_map]

/-! ### Floating-point dot products (06 R118) -/

theorem mulVal_noDZ (x y : FVal) : NoDZ (mulVal x y).2 := by
  unfold mulVal
  split
  case h_4 | h_5 => split <;> simp [stNV]
  all_goals simp

theorem dotFp_noDZ (rnd : Nat) (acc : FVal) (xs ys : List FVal) : NoDZ (dotFp rnd acc xs ys).2 := by
  have hsnan (l : List FVal) : NoDZ (snanFlag l) := by
    unfold snanFlag
    split <;> simp [stNV]
  have hsum (l : List FVal) : NoDZ (sumVals rnd l).2 := by
    unfold sumVals
    split_ifs <;> simp [stNV]
  simp only [dotFp]
  refine NoDZ.foldl (fun p : FVal × Nat => p.2) _ (fun p hp => ?_) (((hsum _).or ?_).or (hsnan _))
  · obtain ⟨j, hj, rfl⟩ := List.getElem_of_mem hp
    rw [List.getElem_zipWith]
    exact mulVal_noDZ _ _
  · split <;> simp [stNV]

/-- The elements of 8 bits that VFDOT4 takes. -/
theorem elemWidth_fdot4 {t : Nat} (hlo : 9 ≤ t) (hhi : t ≤ 12) : elemWidth t = 8 := by interval_cases t <;> rfl

/-- The dot product of a lane: its operands' elements and the accumulator. -/
def Ctx.fdot (c : Ctx) (d a : Field) (b : Src) (l : Nat) : Res :=
  dotFp c.rnd (f32Val (c.v d.toNat l)) (fpElems c (c.v a.toNat l)) (fpElems c (c.vb b l))

/-! ### The forms of the dot products -/

section
variable {s : State} {c : Ctx} (h : s.ctx? = some c) {i : Instr} {m : Bool} {d a : Field} {b : Src}
  (hr : c.Ready (d.toNat :: a.toNat :: b.vregs))
include h hr

theorem runs_dotOp {ok : Nat → Bool} {w : Nat} {sx sy : Nat → Bool} (hi : exec i s = dotOp s m d a b ok w sx sy)
    (hok : ok c.etype = true) {sx' sy' : Bool} (hsx : sx c.etype = sx') (hsy : sy c.etype = sy') :
    Runs i s fun t => c.Writes t (c.next b.len) m (laneSet c.active d.toNat fun l =>
      c.v d.toNat l + BitVec.ofInt 32 ((List.range (32 / w)).foldl (fun t k =>
        t + asInt (elemAt (c.v a.toNat l).toNat w k) w sx' * asInt (elemAt (c.vb b l).toNat w k) w sy') 0)) := by
  simp only [← dotInt_eq_foldl, ← hsx, ← hsy]
  exact runs_laneWord h (.vvv m true d a b) (fun c => ok c.etype) d
    (fun c l => c.v d.toNat l + BitVec.ofInt 32 (dotInt w (sx c.etype) (sy c.etype) (c.v a.toNat l) (c.vb b l))) hi hok hr

theorem runs_fdotOp {ok : Nat → Bool} (hi : exec i s = fdotOp s m d a b ok) (hok : ok c.etype = true) :
    Runs i s fun t => c.Lanes t b.len m (lanesOf c.active) d.toNat
      (fun l => BitVec.ofNat 32 (roundF f32 c.rnd false (c.fdot d a b l).1).1)
      (fun l => (roundF f32 c.rnd false (c.fdot d a b l).1).2 ||| (c.fdot d a b l).2) := by
  refine runs_lanes h (.vvv m true d a b) (fun c => ok c.etype) d.toNat _ _ _ hi hok hr fun l _ => ?_
  unfold Ctx.fdot
  rw [Ctx.laneRes_of_noDZ ((roundF_noDZ _ _ _ _).or (dotFp_noDZ _ _ _ _))]

end

/-! ### Trits (06 R119) -/

theorem trits_length (x : Nat) : (trits x).1.length = 5 := by
  unfold trits
  split <;> rfl

theorem trits_legal (x : Nat) : (trits x).2 = decide (x ≤ 242) := by
  unfold trits
  by_cases h : x ≤ 242
  · rw [if_neg (by omega)]
    simp [h]
  · rw [if_pos (by omega)]
    simp [h]

theorem trits_getD_illegal {x : Nat} (h : ¬x ≤ 242) (j : Nat) : (trits x).1.getD j 0 = 0 := by
  rw [trits, if_pos (by omega)]
  rcases j with _ | _ | _ | _ | _ | j <;> rfl

/-- The bytes of the five trits of a code. -/
def tritBytes (x : Nat) : List Nat := (trits x).1.map (wrapN 8)

/-- The two words of the pair that VUNP5 writes. -/
def tritLo (x : Nat) : Word := BitVec.ofNat 32 (packElems 8 ((tritBytes x).take 4))
def tritHi (x : Nat) : Word := BitVec.ofNat 32 (packElems 8 ((tritBytes x).drop 4))

theorem tritBytes_length (x : Nat) : (tritBytes x).length = 5 := by rw [tritBytes, List.length_map, trits_length]

theorem tritLo_add_tritHi (x : Nat) : (tritLo x).toNat + 2 ^ 32 * (tritHi x).toNat = packElems 8 (tritBytes x) := by
  have hlo := packElems_lt 8 ((tritBytes x).take 4)
  have hhi := packElems_lt 8 ((tritBytes x).drop 4)
  have h4 : ((tritBytes x).take 4).length = 4 := by rw [List.length_take, tritBytes_length]; rfl
  have h1 : ((tritBytes x).drop 4).length = 1 := by rw [List.length_drop, tritBytes_length]
  rw [h4] at hlo
  rw [h1] at hhi
  conv_rhs => rw [← List.take_append_drop 4 (tritBytes x), packElems_append, h4]
  rw [tritLo, tritHi, BitVec.toNat_ofNat, BitVec.toNat_ofNat, Nat.mod_eq_of_lt hlo, Nat.mod_eq_of_lt (by omega)]

theorem elemAt_trits (x j : Nat) : elemAt ((tritLo x).toNat + 2 ^ 32 * (tritHi x).toNat) 8 j
    = if x ≤ 242 ∧ j < 5 then wrapN 8 (((trits x).1).getD j 0) else 0 := by
  rw [tritLo_add_tritHi, elemAt_packElems_getD]
  by_cases hj : j < 5
  · have hget : (tritBytes x).getD j 0 = wrapN 8 (((trits x).1).getD j 0) := by
      rw [List.getD_eq_getElem _ _ (by rw [tritBytes_length]; exact hj), List.getD_eq_getElem _ _ (by rw [trits_length]; exact hj)]
      exact List.getElem_map _
    rw [hget, wrapN_mod]
    by_cases hx : x ≤ 242
    · rw [if_pos ⟨hx, hj⟩]
    · rw [if_neg (fun h => hx h.1), trits_getD_illegal hx]
      rfl
  · rw [if_neg (fun h => hj h.2), List.getD_eq_default _ _ (by rw [tritBytes_length]; omega), Nat.zero_mod]

/-- VUNP5 writes the pair in the lanes that do not trap; the others fault INVALID_OP. -/
theorem runs_vunp5 {s : State} {c : Ctx} (h : s.ctx? = some c) {m : Bool} {d a : Field} {lit : Word}
    (hr : c.Ready [d.toNat, d.toNat + 1, a.toNat]) {x : Nat → Nat} (hx : ∀ l, elemAt (c.v a.toNat l).toNat 8 lit.toNat = x l)
    {trap : Nat → Bool} (htrap : ∀ l, trap l = (modeTrapNv c.p.mode && decide (242 < x l)))
    {st : Nat → Nat} (hst : ∀ l, st l = if x l ≤ 242 then 0 else stNV) :
    Runs (.vunp5 m d a lit) s fun t => c.WritesOrInvalid t 8 m
      (((lanesOf c.active).filter fun l => !trap l).flatMap fun l =>
        (.v d.toNat l, tritLo (x l)) :: (.v (d.toNat + 1) l, tritHi (x l)) ::
          if st l = 0 then [] else [(.stSet l, BitVec.ofNat 32 (st l))])
      ((lanesOf c.active).filter trap) := by
  have hlane (l : Nat) : (if modeTrapNv c.p.mode = true ∧ (!(trits (x l)).2) = true then LaneRes.fault .invalidOp 0 0
      else .ok [BitVec.ofNat 32 (packElems 8 (((trits (x l)).1.map (wrapN 8)).take 4)),
        BitVec.ofNat 32 (packElems 8 (((trits (x l)).1.map (wrapN 8)).drop 4))] (if (trits (x l)).2 then 0 else stNV))
      = trapRes (trap l) [tritLo (x l), tritHi (x l)] (st l) := by
    rw [trapRes, tritLo, tritHi, tritBytes, htrap, hst, trits_legal]
    by_cases hle : x l ≤ 242
    · simp [hle]
    · simp [hle, Nat.lt_of_not_le hle]
  refine ⟨_, laneOpWith_eq h ⟨m, 8, [d.toNat, d.toNat + 1, a.toNat], [a.toNat]⟩ (fun _ => []) anyType d.toNat _ rfl hr, ?_⟩
  simp only [hx]
  rw [overLanes_congr d.toNat fun l _ => hlane l, overLanes_trapRes]
  exact Ctx.completeLanes_invalid (State.ctx?_at h).own _ c.active _ _

end Sys2Proof.Machine

namespace Sys2Proof

open Machine

/-- Settles O24: integer and floating-point dot products each share one form; VUNP5's pair is one packed list of five bytes. -/
theorem packedResults : Obligations.PackedResults := by
  intro s c h m d a b lit sum dot fdot
  have idot (hr : c.Ready (d.toNat :: a.toNat :: b.vregs)) {i : Instr} {w n : Nat} {ok : Nat → Bool} {sx sy : Nat → Bool}
      {sx' sy' : Bool} (hi : exec i s = dotOp s m d a b ok w sx sy) (hok : ok c.etype = true) (hsx : sx c.etype = sx')
      (hsy : sy c.etype = sy') (hn : 32 / w = n) : dot i w n sx' sy' := hn ▸ runs_dotOp h hr hi hok hsx hsy
  clear_value dot
  refine ⟨fun hr => ⟨fun ht => ?dot4, fun ht => ?dot4n, fun ht => ?dot4m, fun ht => ?dot8, fun hlo hhi => ?fdot4, fun ht => ?fdot8⟩,
    fun hr _ => ?trits⟩
  case dot4 => exact idot hr (rfl : execVdot4 m d a b s = _) (by rw [ht]; rfl) (by rw [ht]; rfl) (by rw [ht]; rfl) rfl
  case dot4n => exact idot hr (rfl : execVdot4 m d a b s = _) (by rw [ht]; rfl) (by rw [ht]; rfl) (by rw [ht]; rfl) rfl
  case dot4m => exact idot hr (rfl : execVdot4m m d a b s = _) (by rw [ht]; rfl) rfl rfl rfl
  case dot8 => exact idot hr (rfl : execVdot8 m d a b s = _) (by rw [ht]; rfl) rfl rfl rfl
  case fdot4 =>
    have hel (x : Word) : fpElems c x = (List.range 4).map fun k => elemVal c.etype (elemAt x.toNat 8 k) := by
      rw [fpElems_eq_map, elemWidth_fdot4 hlo hhi]
    have hruns := runs_fdotOp h hr (i := .vfdot4 m d a b) (rfl : execVfdot4 m d a b s = _) (by simp [hlo, hhi])
    simp only [Ctx.fdot, hel] at hruns
    exact hruns
  case fdot8 =>
    have hel (x : Word) : fpElems c x = (List.range 8).map fun k => elemVal c.etype (elemAt x.toNat 4 k) := by
      rw [fpElems_eq_map, ht]
      rfl
    have hruns := runs_fdotOp h hr (i := .vfdot8 m d a b) (rfl : execVfdot8 m d a b s = _) (by rw [ht]; rfl)
    simp only [Ctx.fdot, hel] at hruns
    exact hruns
  case trits =>
    intro byte st trap bad
    exact ⟨fun l => tritLo (byte l), fun l => tritHi (byte l),
      runs_vunp5 h hr (x := byte) (fun _ => rfl) (trap := trap) (fun _ => rfl) (st := st) (fun _ => rfl),
      fun l _ j _ => elemAt_trits (byte l) j⟩

end Sys2Proof
end

section
/-! SUPPORT. Conversions between element types (06 R120, R121): the elements that a part takes, and those of the old word that a
narrowing keeps. -/

namespace Sys2Proof.Machine

/-! ### Parts of a word -/

/-- The part named by p of a word of wider elements, b bits each, lies among the elements of a bits each. -/
theorem part_fits {a b p : Nat} (hb : 0 < b) (hp : p < b / a) : p * (32 / b) + 32 / b ≤ 32 / a := calc
  p * (32 / b) + 32 / b = (p + 1) * (32 / b) := by ring
  _ ≤ b / a * (32 / b) := Nat.mul_le_mul_right _ hp
  _ ≤ b * 32 / (a * b) := Nat.div_mul_div_le ..
  _ = 32 / a := by rw [Nat.mul_comm a b, Nat.mul_div_mul_left _ _ hb]

theorem take_drop_map_range {α : Type} (f : Nat → α) {n q k : Nat} (h : q + k ≤ n) :
    (((List.range n).map f).drop q).take k = (List.range k).map fun j => f (q + j) := by
  apply List.ext_getElem
  · simp
    omega
  · intro j _ _
    simp

/-- A list with the k elements from place q on replaced. -/
theorem take_append_drop_map_range {α : Type} (e g : Nat → α) {n q k : Nat} (h : q + k ≤ n) :
    ((List.range n).map e).take q ++ (List.range k).map g ++ ((List.range n).map e).drop (q + k)
      = (List.range n).map fun j => if q ≤ j ∧ j < q + k then g (j - q) else e j := by
  apply List.ext_getElem
  · simp
    omega
  · intro j hj _
    simp only [List.length_append, List.length_take, List.length_map, List.length_range, List.length_drop] at hj
    have hmin : min q n = q := by omega
    simp only [List.getElem_append, List.getElem_take, List.getElem_drop, List.getElem_map, List.getElem_range, List.length_append,
      List.length_take, List.length_map, List.length_range, hmin]
    by_cases h1 : j < q
    · rw [dif_pos (by omega), dif_pos h1, if_neg (by omega)]
    · by_cases h2 : j < q + k
      · rw [dif_pos h2, dif_neg h1, if_pos (by omega)]
      · rw [dif_neg h2, if_neg (by omega)]
        congr 1
        omega

/-! ### The converted word (06 R120) -/

/-- Element k of a lane word, converted to type t. -/
def Ctx.cvt (c : Ctx) (t : Nat) (x : Word) (k : Nat) : Nat × Nat :=
  roundTo t c.rnd c.sat (elemExact c.etype (elemAt x.toNat (elemWidth c.etype) k))

theorem cvtElems_map_range (c : Ctx) (t : Nat) (x : Word) (q n : Nat) :
    cvtElems c t ((List.range n).map fun j => elemAt x.toNat (elemWidth c.etype) (q + j))
      = (List.range n).map fun j => c.cvt t x (q + j) := by
  rw [cvtElems, List.map_map]
  rfl

section
variable {c : Ctx} {t p : Nat} (x old : Word)

theorem cvtWord_wide (hle : elemWidth c.etype ≤ elemWidth t) (hp : p < elemWidth t / elemWidth c.etype) :
    cvtWord c t p x old = (wordOfElems (elemWidth t) fun j => (c.cvt t x (p * (32 / elemWidth t) + j)).1,
      unionBits (32 / elemWidth t) fun j => (c.cvt t x (p * (32 / elemWidth t) + j)).2) := by
  simp only [cvtWord, if_pos hle, elemsOf_eq_map]
  rw [take_drop_map_range _ (part_fits (elemWidth_pos t) hp), cvtElems_map_range, packRes_map_range]

theorem cvtWord_narrow (hlt : elemWidth t < elemWidth c.etype) (hp : p < elemWidth c.etype / elemWidth t) :
    cvtWord c t p x old = (wordOfElems (elemWidth t) fun j =>
        if p * (32 / elemWidth c.etype) ≤ j ∧ j < p * (32 / elemWidth c.etype) + 32 / elemWidth c.etype
        then (c.cvt t x (j - p * (32 / elemWidth c.etype))).1 else elemAt old.toNat (elemWidth t) j,
      unionBits (32 / elemWidth c.etype) fun k => (c.cvt t x k).2) := by
  have hcvt : cvtElems c t (elemsOf x.toNat (elemWidth c.etype)) = (List.range (32 / elemWidth c.etype)).map (c.cvt t x) := by
    rw [elemsOf_eq_map, cvtElems, List.map_map]
    rfl
  rw [cvtWord, if_neg (Nat.not_le.mpr hlt), hcvt, packRes]
  congr 1
  · simp only [List.map_append, List.map_map, Function.comp_def, List.map_id', elemsOf_eq_map]
    rw [take_append_drop_map_range _ _ (part_fits (elemWidth_pos _) hp)]
    rfl
  · simp only [List.foldl_append, List.foldl_map, Nat.or_zero, List.foldl_fixed]
    rfl

end

/-! ### The form of a conversion -/

section
variable {s : State} {c : Ctx} (h : s.ctx? = some c) {i : Instr} {m : Bool} {d a : Field} {lit : Word}
  (hr : c.Ready [d.toNat, a.toNat]) {ok : Nat → Nat → Bool} (hi : exec i s = cvtOp s m d a lit ok)
  (hok : cvtTypeOk ok lit c.etype) {t p : Nat} (ht : lit.toNat % 16 = t) (hp : lit.toNat / 16 % 8 = p)
include h hr hi hok ht hp

theorem runs_cvtOp (val : Nat → Word) (st : Nat → Nat) (hst : ∀ l, NoDZ (st l))
    (hword : ∀ l, cvtWord c t p (c.v a.toNat l) (if elemWidth c.etype ≤ elemWidth t then 0 else c.v d.toNat l) = (val l, st l)) :
    Runs i s fun t => c.Lanes t 8 m (lanesOf c.active) d.toNat val st := by
  unfold Runs
  rw [hi]
  refine laneOpWith_lanes h (.vvl m false d a) _ _ d.toNat _ val st ((cvtTypeOk_iff ok lit c.etype).mpr hok) hr fun l _ => ?_
  simp only [cvtType_eq, cvtPart_eq, ht, hp, hword]
  exact (Ctx.laneRes_of_noDZ (hst l) (val l)).symm

theorem runs_cvt_wide (hle : elemWidth c.etype ≤ elemWidth t) (hpart : p < elemWidth t / elemWidth c.etype) :
    ∃ val : Nat → Word,
      (Runs i s fun t' => c.Lanes t' 8 m (lanesOf c.active) d.toNat val fun l =>
        unionBits (32 / elemWidth t) fun j => (c.cvt t (c.v a.toNat l) (p * (32 / elemWidth t) + j)).2) ∧
      ∀ l ∈ lanesOf c.active, ∀ j, j < 32 / elemWidth t → elemAt (val l).toNat (elemWidth t) j
        = (c.cvt t (c.v a.toNat l) (p * (32 / elemWidth t) + j)).1 % 2 ^ elemWidth t :=
  ⟨_, runs_cvtOp h hr hi hok ht hp _ _ (fun _ => NoDZ.unionBits fun _ => roundTo_noDZ ..) fun _ => cvtWord_wide _ _ hle hpart,
    fun _ _ _ hj => elemAt_wordOfElems _ _ hj⟩

theorem runs_cvt_narrow (hlt : elemWidth t < elemWidth c.etype) (hpart : p < elemWidth c.etype / elemWidth t) :
    ∃ val : Nat → Word,
      (Runs i s fun t' => c.Lanes t' 8 m (lanesOf c.active) d.toNat val fun l =>
        unionBits (32 / elemWidth c.etype) fun k => (c.cvt t (c.v a.toNat l) k).2) ∧
      ∀ l ∈ lanesOf c.active, ∀ j, j < 32 / elemWidth t → elemAt (val l).toNat (elemWidth t) j =
        if p * (32 / elemWidth c.etype) ≤ j ∧ j < p * (32 / elemWidth c.etype) + 32 / elemWidth c.etype
        then (c.cvt t (c.v a.toNat l) (j - p * (32 / elemWidth c.etype))).1 % 2 ^ elemWidth t
        else elemAt (c.v d.toNat l).toNat (elemWidth t) j := by
  refine ⟨_, runs_cvtOp h hr hi hok ht hp _ _ (fun _ => NoDZ.unionBits fun _ => roundTo_noDZ ..) fun l => by
      rw [if_neg (Nat.not_le.mpr hlt)]
      exact cvtWord_narrow _ _ hlt hpart, fun l _ j hj => ?_⟩
  rw [elemAt_wordOfElems _ _ hj]
  split
  · rfl
  · exact Nat.mod_eq_of_lt (elemAt_lt ..)

end

end Sys2Proof.Machine

namespace Sys2Proof

open Machine

/-- Settles O25: the four conversions share one form, which either widens a part of the operand or narrows into a part of vD. -/
theorem conversionResults : Obligations.ConversionResults := by
  intro s c h m d a lit hr t p ws wt src out wide used st run fl int
  have conv {i : Instr} {ok : Nat → Nat → Bool} (hi : exec i s = cvtOp s m d a lit ok)
      (hok : PartIn lit c.etype → cvtTypeOk ok lit c.etype) : run i := by
    intro hp
    by_cases hle : ws ≤ wt
    · obtain ⟨val, hruns, hval⟩ := runs_cvt_wide h hr hi (hok hp) rfl rfl hle (by rwa [max_eq_right hle, min_eq_left hle] at hp)
      have hwide : wide = true := decide_eq_true hle
      simp only [st, used, hwide, if_true, List.foldl_map]
      exact ⟨val, hruns, hval⟩
    · have hlt := Nat.lt_of_not_le hle
      obtain ⟨val, hruns, hval⟩ := runs_cvt_narrow h hr hi (hok hp) rfl rfl hlt (by rwa [max_eq_left hlt.le, min_eq_right hlt.le] at hp)
      have hwide : wide = false := decide_eq_false hle
      simp only [st, used, hwide, Bool.false_eq_true, if_false]
      exact ⟨val, hruns, hval⟩
  clear_value run
  exact ⟨fun hs hle => conv (rfl : execVcvtw m d a lit s = _) fun hp => (cvtTypeOk_vcvtw lit c.etype).mpr ⟨hs, hle, hp⟩,
    fun hs hle => conv (rfl : execVcvtn m d a lit s = _) fun hp => (cvtTypeOk_vcvtn lit c.etype).mpr ⟨hs, hle, hp⟩,
    fun hx ht => conv (rfl : execVcvtfi m d a lit s = _) fun hp => (cvtTypeOk_vcvtfi lit c.etype).mpr ⟨hx, ht, hp⟩,
    fun hx ht => conv (rfl : execVcvtif m d a lit s = _) fun hp => (cvtTypeOk_vcvtif lit c.etype).mpr ⟨hx, ht, hp⟩⟩

end Sys2Proof
end

section
/-! SUPPORT. The landing of a path's outstanding writes (04 R65, R69): what it leaves of the warp, and the context in which an
instruction goes on after it. -/

namespace Sys2Proof.Machine

/-! ### The warp -/

/-- From w to x only registers and status words have changed, and no uncorrectable error is new. -/
structure Warp.OnlyRegs (w x : Warp) : Prop where
  rest : x = { w with sregs := x.sregs, vregs := x.vregs, status := x.status, soft := x.soft }
  soft : x.soft ⊆ w.soft

namespace Warp.OnlyRegs

theorem refl (w : Warp) : w.OnlyRegs w := ⟨rfl, List.Subset.refl _⟩

theorem trans {w x y : Warp} (h : w.OnlyRegs x) (k : x.OnlyRegs y) : w.OnlyRegs y where
  rest := by rw [k.rest, h.rest]
  soft _ hm := h.soft (k.soft hm)

theorem commit (w : Warp) (t : WTarget) (x : Word) : w.OnlyRegs (w.commit t x) := by
  cases t with
  | v n l => exact ⟨rfl, List.filter_sublist.subset⟩
  | s n => exact ⟨rfl, List.filter_sublist.subset⟩
  | stSet l => exact ⟨rfl, List.Subset.refl _⟩
  | stClr l => exact ⟨rfl, List.Subset.refl _⟩

theorem commitAll (w : Warp) (ws : List (WTarget × Word)) : w.OnlyRegs (w.commitAll ws) := by
  induction ws generalizing w with
  | nil => exact refl w
  | cons x r ih => exact (commit w x.1 x.2).trans (ih _)

theorem landRegs (free n code : Nat) (w : Warp) (ws : List PendingWrite) : w.OnlyRegs (Warp.landRegs free n code w ws) := by
  fun_induction Warp.landRegs free n code w ws with
  | case1 => exact refl _
  | case2 => exact refl _
  | case3 _ _ _ x _ _ ih => exact (commit _ x.target x.value).trans ih
  | case4 _ _ _ x _ _ _ _ _ ih => exact (commit _ x.target _).trans ih

section
variable {w x : Warp} (h : w.OnlyRegs x)
include h

theorem ref : x.ref = w.ref := by rw [h.rest]
theorem path? (k : Bool) : x.path? k = w.path? k := by rw [h.rest]; rfl
theorem groups : x.groups = w.groups := by rw [h.rest]
theorem exited : x.exited = w.exited := by rw [h.rest]
theorem retired : x.retired = w.retired := by rw [h.rest]
theorem inject : x.inject = w.inject := by rw [h.rest]
theorem loupe : x.loupe = w.loupe := by rw [h.rest]
theorem ended : x.ended = w.ended := by rw [h.rest]

end

end Warp.OnlyRegs

/-- A path whose outstanding writes have all landed. -/
def Path.allLanded (p : Path) : Path :=
  { p with writes := [], uncovered := [], park := if p.park = .marker ∧ p.pending = [] then .none else p.park }

/-- A landing writes registers and status words, and changes the one path. -/
theorem Warp.landPath_eq {w : Warp} {slot : Bool} {p : Path} (hp : w.path? slot = some p) (free : Nat) :
    ∃ x, w.OnlyRegs x ∧ w.landPath free slot = x.setPath slot (some p.allLanded) := by
  simp only [Warp.landPath, hp]
  exact ⟨_, (OnlyRegs.landRegs ..).trans (OnlyRegs.commitAll ..), rfl⟩

/-! ### The state -/

/-- Landing a path's writes moves the warp, and nothing else. -/
theorem Moves.land {s : State} {r : WarpRef} {w : Warp} {slot : Bool} {p : Path} (h : s.warp? r = some w)
    (hp : w.path? slot = some p) : Moves s (s.land r slot) r w (w.landPath s.free slot) := by
  obtain ⟨x, hx, he⟩ := Warp.landPath_eq hp s.free
  have hset : Moves s (s.setWarp (w.landPath s.free slot)) r w (w.landPath s.free slot) := by
    refine Moves.setWarp h ?_ ?_
    · rw [he, Warp.setPath_ref, hx.ref]; exact State.warp?_ref h
    · rw [he, Warp.onLoupe?_setPath, Warp.onLoupe?, hx.loupe]; rfl
  simp only [State.land, h, hp]
  exact hset.trans (Moves.film hset.after _)

/-! ### The context -/

/-- In v the outstanding writes of the path of c have landed. -/
structure Ctx.Landing (c v : Ctx) : Prop where
  ref : v.ref = c.ref
  slot : v.slot = c.slot
  launch : v.l = c.l
  own : v.At v.s
  state : v.s = c.s.land c.ref c.slot
  moves : Moves c.s v.s c.ref c.w v.w
  path : v.p = c.p.allLanded
  regs : ∃ x, c.w.OnlyRegs x ∧ v.w = x.setPath c.slot (some v.p)

theorem State.ctxAt?_eq {s : State} {r : WarpRef} {k : Bool} {w : Warp} {b : Block} {l : Launch} {p : Path} (hw : s.warp? r = some w)
    (hb : s.block? r.launch r.block = some b) (hl : s.launch? r.launch = some l) (hp : w.path? k = some p) :
    s.ctxAt? r k = some ⟨s, r, k, l, b, w, p⟩ := by
  simp [State.ctxAt?, hw, hb, hl, hp]

theorem Ctx.landed_landing {c : Ctx} (h : c.At c.s) : c.Landing c.landed := by
  obtain ⟨-, hw, hb, hl, hp⟩ := h
  have hm := Moves.land hw hp
  obtain ⟨x, hx, he⟩ := Warp.landPath_eq hp c.s.free
  rw [he] at hm
  have hpath : (x.setPath c.slot (some c.p.allLanded)).path? c.slot = some c.p.allLanded := x.path?_setPath c.slot _
  have hctx := State.ctxAt?_eq hm.after ((hm.only.block? ..).trans hb) ((hm.only.launch? _).trans hl) hpath
  have hv : c.landed = ⟨c.s.land c.ref c.slot, c.ref, c.slot, c.l, c.b, x.setPath c.slot (some c.p.allLanded), c.p.allLanded⟩ := by
    rw [Ctx.landed, hctx]; rfl
  rw [hv]
  exact ⟨rfl, rfl, rfl, ⟨rfl, hm.after, (hm.only.block? ..).trans hb, (hm.only.launch? _).trans hl, hpath⟩, rfl, hm, rfl, x, hx, rfl⟩

namespace Ctx.Landing

variable {c v : Ctx} (h : c.Landing v)
include h

theorem pc : v.p.pc = c.p.pc := by rw [h.path]; rfl
theorem back : v.p.back = c.p.back := by rw [h.path]; rfl
theorem lanes : v.p.lanes = c.p.lanes := by rw [h.path]; rfl
theorem stack : v.p.stack = c.p.stack := by rw [h.path]; rfl

theorem next (len : Nat) : v.next len = c.next len := by rw [Ctx.next, Ctx.next, h.pc, h.back]

theorem other : v.w.path? (!v.slot) = c.w.path? (!c.slot) := by
  obtain ⟨x, hx, he⟩ := h.regs
  rw [h.slot, he, Warp.path?_setPath_not, hx.path?]

theorem exited : v.w.exited = c.w.exited := by
  obtain ⟨x, hx, he⟩ := h.regs
  rw [he, Warp.setPath_exited, hx.exited]

theorem ended : v.w.ended = c.w.ended := by
  obtain ⟨x, hx, he⟩ := h.regs
  rw [he, Warp.setPath_ended, hx.ended]

theorem groups : v.w.groups = c.w.groups := by
  obtain ⟨x, hx, he⟩ := h.regs
  rw [he, Warp.setPath_groups, hx.groups]

theorem retired : v.w.retired = c.w.retired := by
  obtain ⟨x, hx, he⟩ := h.regs
  rw [he, Warp.setPath_retired, hx.retired]

theorem inject : v.w.inject = c.w.inject := by
  obtain ⟨x, hx, he⟩ := h.regs
  rw [he, Warp.setPath_inject, hx.inject]

theorem soft : v.w.soft ⊆ c.w.soft := by
  obtain ⟨x, hx, he⟩ := h.regs
  rw [he, Warp.setPath_soft]
  exact hx.soft

/-- What is sound stays sound. -/
theorem softAt {e : Nat × Nat} (hc : c.softAt e = false) : v.softAt e = false := by
  simp only [Ctx.softAt, Bool.or_eq_false_iff, List.contains_eq_mem, decide_eq_false_iff_not, h.inject] at hc ⊢
  exact ⟨fun hm => hc.1 (h.soft hm), hc.2⟩

theorem soundS (hc : c.SoundS) : v.SoundS := fun n hn => h.softAt (hc n hn)

end Ctx.Landing

end Sys2Proof.Machine
end

section
/-! SUPPORT. The divergent branch (07 R137, 08 R144): where the lanes go, and the warp that it leaves. -/

namespace Sys2Proof.Machine

/-! ### What BRD does -/

/-- The lanes that a BRD takes to its label. -/
def Ctx.taken (c : Ctx) (a : Field) : LaneMask := maskWhere c.active fun l => decide (c.v a.toNat l ≠ 0)

/-- BRD completes with its paths placed in the warp w: S(D) is written, and the path of its slot goes on. -/
def Ctx.brdDone (c : Ctx) (d : Field) (w : Warp) (npc : Word) : State :=
  (((c.s.setWarp (w.commit (.s d.toNat) c.p.lanes)).filmed c.ref [(sRd d, c.p.pc)]).retireTo c.ref c.slot c.active c.p.pc
    (some (sRd d)) 0 npc).bump

/-- BRD goes on in the warp that its split has made, or faults where the pending stack is full. -/
def Ctx.brdInto (c : Ctx) (m : Bool) (d : Field) (target : Word) : Option Warp → State
  | some w => c.brdDone d { w with splitReg := d.toNat } target
  | none => c.pathFault c.s .divergeDepth 0 0 ⟨m, 8, [], []⟩

/-- BRD after its path's writes have landed. -/
def Ctx.brd (c : Ctx) (m : Bool) (d a : Field) (lit : Word) : State :=
  if c.taken a = 0 ∨ c.p.back.isSome then c.brdDone d c.w (c.next 8)
  else if c.p.lanes &&& ~~~c.taken a = 0 then c.brdDone d c.w (c.p.pc + lit)
  else c.brdInto m d (c.p.pc + lit)
    (c.w.split c.slot c.p (c.taken a) (c.p.lanes &&& ~~~c.taken a) (c.p.pc + lit) (c.next 8))

theorem and_not_zero (q : LaneMask) : q &&& ~~~0 = q := BitVec.and_allOnes

/-- Without uncorrectable errors and splice operations on their way BRD acts on the landed path. -/
theorem exec_brd {s : State} {c : Ctx} (h : s.ctx? = some c) (hsp : s.splicing c.ref = false) (m : Bool) (d a : Field) (lit : Word)
    (hr : c.Ready [a.toNat]) : exec (.brd m d a lit) s = .next (c.landed.brd m d a lit) := by
  obtain ⟨hregs, hinj, hsoft⟩ := hr
  have hat := State.ctx?_at h
  have hv := Ctx.landed_landing hat.own
  have hb : (⟨m, 8, [a.toNat], [a.toNat]⟩ : Shape).inBounds c.l.record.regs = true := by simpa [Shape.inBounds] using hregs
  have hd (k : State) : c.drained k = k := by simp [Ctx.drained, hat.state, hsp]
  have hinj' : c.landed.w.inject = none := hv.inject.trans hinj
  have hsoft' : c.landed.w.soft = [] := List.subset_nil.mp (hsoft ▸ hv.soft)
  show execBrd m d a lit s = _
  rw [execBrd, issueOp_next h _ anyType _ hb rfl, hd, Ctx.guarded_eq (Ctx.soundS_none hinj' hsoft')]
  simp only [Ctx.softLanes_none hinj' hsoft', and_not_zero, if_true]
  rfl

/-- What completes BRD moves its warp, and nothing else. -/
theorem Moves.brdDone {c : Ctx} (h : c.At c.s) (d : Field) {w : Warp} {q : Path} (hr : w.ref = c.w.ref) (hl : w.loupe = c.w.loupe)
    (hq : w.path? c.slot = some q) (npc : Word) :
    ∃ clk, Moves c.s (c.brdDone d w npc) c.ref c.w
        ((((w.commit (.s d.toNat) c.p.lanes).retire c.l).clocked clk).setPath c.slot (some (q.goOn (q.back.getD npc)))) ∧
      (c.w.onLoupe? = none → clk = c.w.loupe.lastClk) := by
  have h1 : Moves c.s (c.s.setWarp (w.commit (.s d.toNat) c.p.lanes)) c.ref c.w (w.commit (.s d.toNat) c.p.lanes) :=
    Moves.setWarp h.warp (hr.trans (State.warp?_ref h.warp)) (by simp [Warp.onLoupe?, hl])
  have h2 := h1.trans (Moves.filmed h1.after [(sRd d, c.p.pc)])
  obtain ⟨clk, h3, e3⟩ := Moves.retireTo h2.after (by simpa using hq) ((h2.only.launch? _).trans h.launch) c.active c.p.pc
    (some (sRd d)) 0 npc
  have h4 := h2.trans h3
  exact ⟨clk, h4.trans (Moves.bump h4.after), fun hq => (e3 (by simpa [Warp.onLoupe?, hl] using hq)).trans (by simp [hl])⟩

/-! ### Whole -/

/-- A BRD that splits nothing. -/
theorem Ctx.brdDone_done {c : Ctx} (h : c.At c.s) (hs : c.w.soft = []) (d : Field) (npc : Word) :
    c.Done (c.brdDone d c.w npc) { c.w with sregs := put0 c.w.sregs d.toNat c.p.lanes } c.p npc false [] := by
  obtain ⟨clk, hm, hclk⟩ := Moves.brdDone h d rfl rfl h.path npc
  have hcommit : c.w.commit (.s d.toNat) c.p.lanes = { c.w with sregs := put0 c.w.sregs d.toNat c.p.lanes } := by
    simp [Warp.commit, hs]
  have hafter : c.p.after npc false [] c.p.uncovered = c.p.goOn (c.p.back.getD npc) := by
    simp [Path.after, Path.goOn]
  refine ⟨hm.only, ⟨clk, c.p.uncovered, ?_, hclk⟩, hm.quiet⟩
  rw [hm.after, Ctx.after, hafter, hcommit]
  rfl

section
variable {c : Ctx} {m : Bool} {d a : Field} {lit : Word}

theorem Ctx.brd_whole (h : c.taken a = 0 ∨ c.p.back.isSome = true) : c.brd m d a lit = c.brdDone d c.w (c.next 8) := by
  rw [Ctx.brd, if_pos h]

theorem Ctx.brd_all (hb : c.p.back = none) (ht : c.taken a ≠ 0) (hn : c.p.lanes &&& ~~~c.taken a = 0) :
    c.brd m d a lit = c.brdDone d c.w (c.p.pc + lit) := by
  rw [Ctx.brd, if_neg fun h => h.elim ht (by simp [hb]), if_pos hn]

end

/-! ### Split -/

/-- The path of some lanes of a path that a BRD has split, over a pending stack. -/
def Path.part (p : Path) (t : LaneMask) (pc : Word) (stack : List PendEntry) : Path :=
  { Path.start pc t with mode := p.mode, ix := p.ix, stack := stack }

/-- A warp whose path in a slot a BRD has split. -/
def Warp.forked (w : Warp) (slot : Bool) (d : Field) (y : Path) (z : Option Path) : Warp :=
  { (w.setPath slot (some y)).setPath (!slot) z with splitReg := d.toNat }

/-- The path beside it stays. -/
theorem Warp.forked_side {w : Warp} {slot : Bool} {o : Path} (h : w.path? (!slot) = some o) (d : Field) (y : Path) :
    w.forked slot d y (some o) = { w.setPath slot (some y) with splitReg := d.toNat } := by
  rw [Warp.forked, Warp.setPath_self (by simpa using h)]

/-- What BRD leaves of its warp when it has split its path: the lanes that it takes in y, the slot beside it as z. -/
structure Ctx.Forks (c : Ctx) (t : State) (d : Field) (y : Path) (z : Option Path) (x : Warp) : Prop where
  frame : OnlyWarp c.s t c.ref
  warp : t.warp? c.ref = some x
  path : x.path? c.slot = some y
  side : x.path? (!c.slot) = z
  sregs : x.sregs = put0 c.w.sregs d.toNat c.p.lanes
  vregs : x.vregs = c.w.vregs
  status : x.status = c.w.status
  groups : x.groups = c.w.groups
  exited : x.exited = c.w.exited

theorem Ctx.brdDone_forks {c : Ctx} (h : c.At c.s) (d : Field) (t : LaneMask) (pc : Word) (stack : List PendEntry) (z : Option Path)
    (npc : Word) : ∃ x, c.Forks (c.brdDone d (c.w.forked c.slot d (c.p.part t pc stack) z) npc) d (c.p.part t npc stack) z x := by
  have hpath : (c.w.forked c.slot d (c.p.part t pc stack) z).path? c.slot = some (c.p.part t pc stack) := by cases c.slot <;> rfl
  obtain ⟨clk, hm, -⟩ := Moves.brdDone h d (by cases c.slot <;> rfl) (by cases c.slot <;> rfl) hpath npc
  refine ⟨_, hm.only, hm.after, Warp.path?_setPath .., ?_, ?_, ?_, ?_, ?_, ?_⟩ <;> cases c.slot <;> rfl

section
variable {c : Ctx} {m : Bool} {d a : Field} {lit : Word} (hb : c.p.back = none) (ht : c.taken a ≠ 0)
  (hn : c.p.lanes &&& ~~~c.taken a ≠ 0)
include hb ht hn

theorem Ctx.brd_split {o : Option Warp}
    (ho : c.w.split c.slot c.p (c.taken a) (c.p.lanes &&& ~~~c.taken a) (c.p.pc + lit) (c.p.pc + 8) = o) :
    c.brd m d a lit = c.brdInto m d (c.p.pc + lit) o := by
  have hnext : c.next 8 = c.p.pc + 8 := by rw [Ctx.next, hb]; rfl
  rw [Ctx.brd, if_neg fun h => h.elim ht (by simp [hb]), if_neg hn, hnext, ho]

/-- The other lanes become the second live path. -/
theorem Ctx.brd_free (hfree : c.w.path? (!c.slot) = none) :
    c.brd m d a lit = c.brdDone d (c.w.forked c.slot d (c.p.part (c.taken a) (c.p.pc + lit) c.p.stack)
      (some (c.p.part (c.p.lanes &&& ~~~c.taken a) (c.p.pc + 8) []))) (c.p.pc + lit) :=
  Ctx.brd_split hb ht hn (by simp only [Warp.split, hfree]; rfl)

/-- The other lanes wait on the pending stack. -/
theorem Ctx.brd_push {o : Path} (ho : c.w.path? (!c.slot) = some o) (hlen : c.p.stack.length < 16) :
    c.brd m d a lit = c.brdDone d (c.w.forked c.slot d (c.p.part (c.taken a) (c.p.pc + lit)
      (⟨c.p.pc + 8, c.p.lanes &&& ~~~c.taken a, c.p.mode, c.p.ix, none⟩ :: c.p.stack)) (some o)) (c.p.pc + lit) := by
  rw [Warp.forked_side ho]
  exact Ctx.brd_split hb ht hn (by simp only [Warp.split, ho, hlen, if_true]; rfl)

/-- A full stack takes none. -/
theorem Ctx.brd_full {o : Path} (ho : c.w.path? (!c.slot) = some o) (hlen : 16 ≤ c.p.stack.length) :
    c.brd m d a lit = c.pathFault c.s .divergeDepth 0 0 ⟨m, 8, [], []⟩ :=
  Ctx.brd_split (o := none) hb ht hn (by simp only [Warp.split, ho, Nat.not_lt.mpr hlen, if_false])

end

end Sys2Proof.Machine
namespace Sys2Proof

open Machine

/-- Settles O27: after the landing BRD goes on whole, splits or faults (`Ctx.brd`), and what completes it moves only its warp
(`Moves.brdDone`). -/
theorem divergentBranchResults : Obligations.DivergentBranchResults := by
  intro s c h hsp m d a lit hr v t n w
  have hv : c.Landing v := Ctx.landed_landing (State.ctx?_at h).own
  have hsoft : v.w.soft = [] := List.subset_nil.mp (hr.2.2 ▸ hv.soft)
  have run {u : State} {P : State → Prop} (he : v.brd m d a lit = u) (hP : P u) : Runs (.brd m d a lit) s P :=
    ⟨u, he ▸ exec_brd h hsp m d a lit hr, hP⟩
  have whole (npc : Word) : v.Done (v.brdDone d v.w npc) w v.p npc false [] := Ctx.brdDone_done hv.own hsoft d npc
  have retried (hb : c.p.back ≠ none) : Runs (.brd m d a lit) s fun u => v.Done u w v.p (c.next 8) false [] := by
    rw [← hv.back, ← Option.isSome_iff_ne_none] at hb
    exact run (Ctx.brd_whole (.inr hb)) (hv.next 8 ▸ whole _)
  refine ⟨retried, fun hb => ?_⟩
  have hvb : v.p.back = none := hv.back.trans hb
  rw [← hv.pc, ← hv.ref, ← hv.slot]
  refine ⟨fun ht => ?none, fun ht hn => run (Ctx.brd_all hvb ht hn) (whole _), fun ht hn hfree => ?split,
    fun o ht hn ho hlen => ?push, fun o ht hn ho hlen => run (Ctx.brd_full hvb ht hn ho hlen) rfl⟩
  case none =>
    have hnext : v.next 8 = v.p.pc + 8 := by rw [Ctx.next, hvb]; rfl
    exact run (Ctx.brd_whole (.inl ht)) (hnext ▸ whole _)
  case split =>
    obtain ⟨x, hx⟩ := Ctx.brdDone_forks hv.own d t (v.p.pc + lit) v.p.stack (some (v.p.part n (v.p.pc + 8) [])) (v.p.pc + lit)
    exact run (Ctx.brd_free hvb ht hn hfree) ⟨hx.frame, x, _, _, hx.warp, hx.path, hx.side, hx.sregs, hx.vregs, hx.status, hx.groups,
      hx.exited, rfl, rfl, rfl, rfl, rfl, rfl, rfl, rfl, rfl, rfl, rfl, rfl, rfl, rfl⟩
  case push =>
    obtain ⟨x, hx⟩ := Ctx.brdDone_forks hv.own d t (v.p.pc + lit) (⟨v.p.pc + 8, n, v.p.mode, v.p.ix, none⟩ :: v.p.stack) (some o)
      (v.p.pc + lit)
    exact run (Ctx.brd_push hvb ht hn ho hlen) ⟨hx.frame, x, _, hx.warp, hx.path, hx.side, hx.sregs, rfl, rfl, rfl, rfl, rfl, rfl, rfl⟩

end Sys2Proof
end

section
/-! SUPPORT. Join groups (07 R138, R141; 08 R155): the group that an arrival makes or completes, and the path that has given up its
lanes or goes on. -/

namespace Sys2Proof.Machine

/-! ### The group -/

/-- What a path brings to a group. -/
def Path.arrival (p : Path) (active : LaneMask) (seq : Nat) : Arrival := ⟨p.lanes, active, p.mode, p.ix, seq⟩

/-- The group of a key when one more arrival has entered it. -/
def Warp.joined (w : Warp) (k : GroupKey) (a : Arrival) : JoinGroup :=
  match w.group? k with
  | some g => { g with arrivals := g.arrivals ++ [a] }
  | none => ⟨k, [a], none, 0⟩

theorem findBy_joinGroup (k : GroupKey) (a : Arrival) (gs : List JoinGroup) :
    findBy JoinGroup.key k (joinGroup k a gs) = some (match findBy JoinGroup.key k gs with
      | some g => { g with arrivals := g.arrivals ++ [a] }
      | none => ⟨k, [a], none, 0⟩) := by
  induction gs with
  | nil => simp [joinGroup, findBy]
  | cons g r ih => by_cases hk : g.key = k <;> simp [joinGroup, findBy, hk, ih]

theorem dropGroup_joinGroup (k : GroupKey) (a : Arrival) (gs : List JoinGroup) : dropGroup k (joinGroup k a gs) = dropGroup k gs := by
  induction gs with
  | nil => simp [joinGroup, dropGroup]
  | cons g r ih =>
    unfold dropGroup at ih ⊢
    by_cases hk : g.key = k
    · simp [joinGroup, hk]
    · simp only [joinGroup, hk, if_false, List.filter_cons, ih]

theorem Warp.joined_key (w : Warp) (k : GroupKey) (a : Arrival) : (w.joined k a).key = k := by
  unfold Warp.joined
  split
  · rename_i g hg; exact findBy_key (key := JoinGroup.key) (x := g) hg
  · rfl

theorem Warp.joined_arrivals (w : Warp) (k : GroupKey) (a : Arrival) :
    (w.joined k a).arrivals = ((w.group? k).map JoinGroup.arrivals).getD [] ++ [a] := by
  unfold Warp.joined
  cases w.group? k <;> rfl

theorem Warp.joined_left (w : Warp) (k : GroupKey) (a : Arrival) :
    (w.joined k a).left = ((w.group? k).map JoinGroup.left).getD 0 := by
  unfold Warp.joined
  cases w.group? k <;> rfl

theorem arrivalLanes_append (as bs : List Arrival) : arrivalLanes (as ++ bs) = arrivalLanes as ||| arrivalLanes bs := by
  induction as with
  | nil => simp [arrivalLanes]
  | cons a r ih => simp [arrivalLanes, ih, BitVec.or_assoc]

/-- A group holds its wanted set when no other non-exited lane stands in its key's mask or has been taken out of it. -/
theorem JoinGroup.complete_iff (w : Warp) (g : JoinGroup) :
    g.complete w = true ↔ (g.key.mask w ||| g.left) &&& ~~~w.exited &&& ~~~arrivalLanes g.arrivals = 0 := by
  have hwanted : g.wanted w &&& ~~~arrivalLanes g.arrivals = (g.key.mask w ||| g.left) &&& ~~~w.exited &&& ~~~arrivalLanes g.arrivals := by
    ext l
    simp only [JoinGroup.wanted, BitVec.getElem_and, BitVec.getElem_or, BitVec.getElem_not]
    cases (arrivalLanes g.arrivals)[l] <;> simp
  rw [JoinGroup.complete, decide_eq_true_iff, hwanted]

/-! ### The warp -/

/-- The arrivals of the warp are counted. -/
def Warp.counted (w : Warp) (gs : List JoinGroup) : Warp := { w with groups := gs, arrivals := w.arrivals + 1 }

theorem Warp.enter_eq {w : Warp} {slot : Bool} {p : Path} (hp : w.path? slot = some p) (k : GroupKey) (active : LaneMask) :
    w.enter slot k active =
      if (w.joined k (p.arrival active w.arrivals)).complete w = true then
        ((w.counted (dropGroup k w.groups)).setPath slot
          (some { (w.joined k (p.arrival active w.arrivals)).toPath with stack := p.stack }), true)
      else ((w.counted (joinGroup k (p.arrival active w.arrivals) w.groups)).setPath slot p.popped, false) := by
  have hg : (w.counted (joinGroup k (p.arrival active w.arrivals) w.groups)).group? k = some (w.joined k (p.arrival active w.arrivals)) :=
    findBy_joinGroup k _ w.groups
  have hdrop := dropGroup_joinGroup k (p.arrival active w.arrivals) w.groups
  unfold Warp.counted at hg
  simp only [Warp.enter, hp]
  simp only [Path.arrival] at hg hdrop ⊢
  rw [hg, hdrop]
  rfl

/-- Groups that lack lanes stay as they are. -/
theorem Warp.settle_of_incomplete {w : Warp} (h : ∀ g ∈ w.groups, g.complete w = false) (actor : Bool) : w.settle actor = w := by
  have key (gs : List JoinGroup) (hg : ∀ g ∈ gs, g.complete w = false) : Warp.placeGroups actor w gs = w := by
    induction gs with
    | nil => rfl
    | cons g r ih =>
      rw [List.forall_mem_cons] at hg
      simp only [Warp.placeGroups, hg.1, Bool.false_eq_true, if_false]
      exact ih hg.2
  exact key w.groups h

/-- A live path can go on. -/
theorem Warp.stuck_of_path {w : Warp} {slot : Bool} (h : w.path? slot ≠ none) : w.stuck = false := by
  obtain ⟨p, hp⟩ := Option.ne_none_iff_exists'.mp h
  cases slot with
  | false => simp [Warp.stuck, show w.p0 = some p from hp]
  | true => simp [Warp.stuck, show w.p1 = some p from hp]

/-! ### The state -/

/-- Nothing follows from an arrival or an exit where the warp has a live path and every group lacks lanes. -/
theorem Moves.settle_still {s : State} {r : WarpRef} {w : Warp} {l : Launch} {slot : Bool} (hw : s.warp? r = some w)
    (hl : s.launch? r.launch = some l) (he : w.ended = false) (hx : w.allExited = false) (hg : ∀ g ∈ w.groups, g.complete w = false)
    (hp : w.path? slot ≠ none) (n : Nat) (actor : Bool) : Moves s (State.settle (n + 1) s r actor) r w w := by
  have hset : State.settle (n + 1) s r actor = s.setWarp w := by
    simp only [State.settle, hw, hl, he, hx, Bool.false_eq_true, if_false, Warp.settle_of_incomplete hg, Warp.stuck_of_path hp]
  rw [hset]
  exact Moves.setWarp hw (State.warp?_ref hw) rfl

/-- Groups do not look beyond the lanes that have exited. -/
theorem JoinGroup.complete_congr {w x : Warp} (h : x.exited = w.exited) (g : JoinGroup) : g.complete x = g.complete w := by
  unfold JoinGroup.complete JoinGroup.wanted
  rw [show g.key.mask x = g.key.mask w by cases g.key <;> simp only [GroupKey.mask, h], h]

/-- A group that lacks a lane wants one that has not exited. -/
theorem Warp.allExited_of_incomplete {w : Warp} {g : JoinGroup} (h : g.complete w = false) : w.allExited = false := by
  rw [Warp.allExited, decide_eq_false_iff_not]
  intro hx
  rw [← Bool.not_eq_true, JoinGroup.complete_iff, hx] at h
  simp at h

/-- From w to x no register has changed, no lane has exited, and the warp goes on. -/
structure Warp.SameRegs (w x : Warp) : Prop where
  sregs : x.sregs = w.sregs
  vregs : x.vregs = w.vregs
  status : x.status = w.status
  exited : x.exited = w.exited
  ended : x.ended = w.ended

theorem Warp.SameRegs.trans {w x y : Warp} (h : w.SameRegs x) (k : x.SameRegs y) : w.SameRegs y :=
  ⟨k.sregs.trans h.sregs, k.vregs.trans h.vregs, k.status.trans h.status, k.exited.trans h.exited, k.ended.trans h.ended⟩

/-- From w to x no lane has moved either. -/
structure Warp.SameLanes (w x : Warp) : Prop where
  regs : w.SameRegs x
  path? : ∀ k, x.path? k = w.path? k
  groups : x.groups = w.groups

/-- An instruction that gives up its path's lanes retires here, or only when its group has completed. -/
theorem Moves.retireIf {s : State} {r : WarpRef} {w : Warp} {l : Launch} (h : s.warp? r = some w) (hl : s.launch? r.launch = some l)
    (retire : Bool) (active pc : Word) (path : Bool) :
    ∃ x, Moves s (if retire then s.retireWarp r active pc none 0 path else s) r w x ∧ w.SameLanes x := by
  cases retire with
  | false => exact ⟨w, Moves.refl h, ⟨rfl, rfl, rfl, rfl, rfl⟩, fun _ => rfl, rfl⟩
  | true =>
    obtain ⟨clk, hm, -⟩ := Moves.retireWarp h hl active pc none 0 path
    exact ⟨_, hm, ⟨rfl, rfl, rfl, rfl, rfl⟩, fun k => by cases k <;> rfl, rfl⟩

/-! ### A path that waits -/

/-- The turn of a tripod frame passes to a slot (10 R185). -/
def Warp.passTurn (w : Warp) (slot : Bool) : Warp := { w with frame := { w.frame with turn := slot } }

/-- The warp in which a path's lanes wait in a group, its only one. -/
def Warp.parked (w : Warp) (slot : Bool) (p : Path) (g : JoinGroup) : Warp :=
  ((w.counted [g]).setPath slot p.popped).passTurn (!slot)

theorem Warp.parked_slots (w : Warp) (slot : Bool) (p : Path) (g : JoinGroup) :
    (w.parked slot p g).path? slot = p.popped ∧ (w.parked slot p g).path? (!slot) = w.path? (!slot) := by
  cases slot <;> exact ⟨rfl, rfl⟩

theorem Warp.parked_groups (w : Warp) (slot : Bool) (p : Path) (g : JoinGroup) : (w.parked slot p g).groups = [g] := by
  cases slot <;> rfl

theorem Warp.parked_regs (w : Warp) (slot : Bool) (p : Path) (g : JoinGroup) : w.SameRegs (w.parked slot p g) := by
  cases slot <;> exact ⟨rfl, rfl, rfl, rfl, rfl⟩

/-- A path that is not the warp's last leaves one that can go on. -/
theorem Warp.parked_live {w : Warp} {slot : Bool} {p : Path} (h : p.stack ≠ [] ∨ w.path? (!slot) ≠ none) (g : JoinGroup) :
    ∃ k, (w.parked slot p g).path? k ≠ none := by
  obtain ⟨hslot, hother⟩ := w.parked_slots slot p g
  obtain h | h := h
  · obtain ⟨e, r, hs⟩ := List.exists_cons_of_ne_nil h
    exact ⟨slot, by rw [hslot, Path.popped, hs]; nofun⟩
  · exact ⟨!slot, hother ▸ h⟩

/-- The group that a path makes that arrives first. -/
def Ctx.newGroup (c : Ctx) (k : GroupKey) : JoinGroup := ⟨k, [c.p.arrival c.active c.w.arrivals], none, 0⟩

/-- An arrival that completes no group and is the warp's first. -/
theorem Ctx.enterGroup_first {c : Ctx} (h : c.At c.s) (hg : c.w.groups = []) {k : GroupKey} (hlacks : (c.newGroup k).complete c.w = false)
    (retire : Bool) (f : Ctx → State) :
    ∃ t, Moves c.s t c.ref c.w (c.w.parked c.slot c.p (c.newGroup k)) ∧ c.enterGroup k retire f =
      State.settle settleFuel (if retire then t.retireWarp c.ref c.active c.p.pc none 0 (c.w.pathBit c.slot) else t).bump c.ref c.slot := by
  have hjoined : c.w.joined k (c.p.arrival c.active c.w.arrivals) = c.newGroup k := by
    simp [Warp.joined, Warp.group?, hg, findBy, Ctx.newGroup]
  have henter : c.w.enter c.slot k c.active = ((c.w.counted [c.newGroup k]).setPath c.slot c.p.popped, false) := by
    rw [Warp.enter_eq h.path, hjoined, hlacks, hg]
    rfl
  have h1 : Moves c.s (c.s.setWarp ((c.w.counted [c.newGroup k]).setPath c.slot c.p.popped)) c.ref c.w _ :=
    Moves.setWarp h.warp ((Warp.setPath_ref ..).trans (State.warp?_ref (w := c.w) h.warp)) (Warp.onLoupe?_setPath ..)
  have h2 := h1.trans (Moves.updWarp h1.after (fun w => w.passTurn (!c.slot)) (fun _ => rfl) rfl)
  refine ⟨_, h2, ?_⟩
  simp only [Ctx.enterGroup, henter, Bool.false_eq_true, if_false]
  rfl

/-- The lanes of the issuing path wait in the group of a key, alone, and the slot's top pending entry goes on. -/
structure Ctx.Waits (c : Ctx) (t : State) (k : GroupKey) (x : Warp) : Prop where
  frame : OnlyWarp c.s t c.ref
  warp : t.warp? c.ref = some x
  popped : x.path? c.slot = c.p.popped
  other : x.path? (!c.slot) = c.w.path? (!c.slot)
  groups : x.groups = [c.newGroup k]
  regs : c.w.SameRegs x

/-- A path waits that arrives first, while other lanes are wanted and another path can go on. -/
theorem Ctx.enterGroup_waits {c : Ctx} (h : c.At c.s) (he : c.w.ended = false) (hg : c.w.groups = [])
    (hp : c.p.stack ≠ [] ∨ c.w.path? (!c.slot) ≠ none) {k : GroupKey} (hwants : k.mask c.w &&& ~~~c.w.exited &&& ~~~c.p.lanes ≠ 0)
    (retire : Bool) (f : Ctx → State) : ∃ x, c.Waits (c.enterGroup k retire f) k x := by
  have hlacks : (c.newGroup k).complete c.w = false := by
    rw [← Bool.not_eq_true, JoinGroup.complete_iff]
    simpa [Ctx.newGroup, Path.arrival, arrivalLanes] using hwants
  obtain ⟨t, h1, hstate⟩ := Ctx.enterGroup_first h hg hlacks retire f
  have hl := (h1.only.launch? _).trans h.launch
  obtain ⟨x, h2, hx, hpath, hgroups⟩ := Moves.retireIf h1.after hl retire c.active c.p.pc (c.w.pathBit c.slot)
  have hregs := (c.w.parked_regs c.slot c.p (c.newGroup k)).trans hx
  rw [Warp.parked_groups] at hgroups
  obtain ⟨hslot, hother⟩ := c.w.parked_slots c.slot c.p (c.newGroup k)
  obtain ⟨slot, hlive⟩ := Warp.parked_live hp (c.newGroup k)
  rw [← hpath] at hslot hother hlive
  have hlacksx := (JoinGroup.complete_congr hregs.exited (c.newGroup k)).trans hlacks
  have h3 := (h1.trans h2).trans (Moves.bump h2.after)
  have h4 := h3.trans (Moves.settle_still h3.after ((h3.only.launch? _).trans h.launch) (hregs.ended.trans he)
    (Warp.allExited_of_incomplete hlacksx) (by simpa [hgroups] using hlacksx) hlive 39 c.slot)
  rw [hstate]
  exact ⟨x, h4.only, h4.after, hslot, hother, hgroups, hregs⟩

end Sys2Proof.Machine
end

section
/-! SUPPORT. The instructions that gather the lanes of a warp, for a path that arrives first at its group: JOIN (08 R145), the
barriers (R155) and the operations over member sets (R146). -/

namespace Sys2Proof.Machine

section
variable {s : State} {c : Ctx} (h : s.ctx? = some c) (hsp : s.splicing c.ref = false)
include h hsp

/-- No splice operation holds the issuing path back. -/
theorem Ctx.drained_issuing (k : State) : c.drained k = k := by simp [Ctx.drained, (State.ctx?_at h).state, hsp]

theorem exec_join (hs : c.SoundS) (m : Bool) (a : Field) :
    exec (.join m a) s = .next (c.landed.enterGroup (.join c.landed.p.pc (c.landed.sr a.toNat)) true fun c' =>
      (c'.s.retireTo c.landed.ref c.landed.slot c.landed.active c.landed.p.pc none 0 (c.landed.next 4)).bump) := by
  have hv := Ctx.landed_landing (State.ctx?_at h).own
  show execJoin m a s = _
  rw [execJoin, withCtx_next h, Ctx.drained_issuing h hsp, Ctx.sound_eq (hv.soundS hs)]

/-- A barrier waits for the lanes of its warp that stand elsewhere. -/
theorem barrierOp_gathers (m : Bool) {u : BarUnit} (arrive wait : Bool) (hu : u = .package → c.l.record.cores = true)
    (hlanes : c.p.lanes ≠ ~~~c.w.exited) :
    ∃ f, barrierOp s m u arrive wait = .next (c.landed.enterGroup (.barrier c.p.pc) false f) := by
  have hbroken : ¬(u = .package ∧ c.l.record.cores = false) := fun ⟨hp, hc⟩ => by simp [hu hp] at hc
  refine ⟨fun c' => c'.frameFirst (c'.meetBarrier m u arrive wait), ?_⟩
  rw [barrierOp, withCtx_next h, if_neg hbroken, if_neg hlanes, Ctx.drained_issuing h hsp]

end

/-- Where no lane of it faults, a path that cannot execute waits whole. -/
theorem Ctx.parkWide_whole (c : Ctx) (sh : Shape) (u : LaneMask) (body : WideBody) :
    ∃ f, c.parkWide sh u 0 body = c.enterGroup (.wide c.p.pc u) false f := by
  have hsame : (fun p : Path => { p with lanes := p.lanes &&& ~~~0 }) = fun p => p := funext fun p => by rw [and_not_zero]
  exact ⟨_, by simp only [Ctx.parkWide, if_true, hsame, Warp.updPath_id]; rfl⟩

/-- A warp-wide operation waits for the lanes of its member set that stand elsewhere. -/
theorem wideOp_gathers {s : State} {c : Ctx} (h : s.ctx? = some c) (hsp : s.splicing c.ref = false) (hs : c.SoundS) {sh : Shape}
    (hb : sh.inBounds c.l.record.regs = true) {typeOk : Ctx → Bool} (ht : typeOk c = true) (body : WideBody)
    (hcarry : c.p.carry = none) (hwants : c.landed.memberSet &&& ~~~c.landed.w.exited &&& ~~~c.landed.p.lanes ≠ 0)
    (hbad : c.landed.active &&& ~~~c.landed.memberSet = 0) (hlanes : c.landed.p.lanes ≠ 0) :
    ∃ f, wideOp s sh typeOk body = .next (c.landed.enterGroup (.wide c.landed.p.pc c.landed.memberSet) false f) := by
  obtain ⟨f, hf⟩ := c.landed.parkWide_whole sh c.landed.memberSet body
  have hstand : ¬(c.landed.memberSet &&& ~~~c.landed.w.exited &&& ~~~c.landed.p.lanes = 0 ∨ c.landed.p.lanes &&& ~~~0 = 0) := by
    rw [and_not_zero]
    exact fun hor => hor.elim hwants hlanes
  refine ⟨f, ?_⟩
  rw [wideOp, issueOp_next h sh typeOk _ hb ht, Ctx.soundWide, Ctx.softScalar_sound hs, hcarry]
  simp only [Bool.false_eq_true, if_false, Ctx.drained_issuing h hsp, hbad, hstand, hf]

end Sys2Proof.Machine
end
namespace Sys2Proof

open Machine

/-- Settles O31: each of these instructions enters the group of its key (`exec_join`, `barrierOp_gathers`, `wideOp_gathers`), and a
path that enters first and is not alone waits there (`Ctx.enterGroup_waits`). -/
theorem groupArrivals : Obligations.GroupArrivals := by
  intro s c h hend hs hsp v hgroups hlive waits m d a b lit
  have hv : c.Landing v := Ctx.landed_landing (State.ctx?_at h).own
  have enters {i : Instr} {k : GroupKey} {retire : Bool} {f : Ctx → State} (he : exec i s = .next (v.enterGroup k retire f))
      (hwants : k.mask v.w &&& ~~~v.w.exited &&& ~~~v.p.lanes ≠ 0) : waits i k := by
    obtain ⟨x, hx⟩ := Ctx.enterGroup_waits hv.own (hv.ended.trans hend) hgroups (hv.slot ▸ hlive) hwants retire f
    obtain ⟨hframe, hwarp, hpopped, hother, hg, hr⟩ := hx
    rw [hv.ref] at hframe hwarp
    rw [hv.slot] at hpopped hother
    exact ⟨_, he, hframe, x, hwarp, hpopped, hother, hg, hr.sregs, hr.vregs, hr.status, hr.exited⟩
  refine ⟨fun hwants => ?join, fun hwants => ?barrier, fun hcarry hwants hbad hlanes => ?wide⟩
  case join =>
    rw [← hv.pc]
    exact enters (exec_join h hsp hs m a) hwants
  case barrier =>
    have hlanes : c.p.lanes ≠ ~~~c.w.exited := by
      rw [← hv.exited, ← hv.lanes]
      intro heq
      simp [heq] at hwants
    have bar {i : Instr} (u : BarUnit) (arrive wait : Bool) (hi : exec i s = barrierOp s m u arrive wait)
        (hu : u = .package → c.l.record.cores = true) : waits i (.barrier c.p.pc) := by
      obtain ⟨f, hf⟩ := barrierOp_gathers h hsp m arrive wait hu hlanes
      exact enters (hi.trans hf) (by simpa [GroupKey.mask] using hwants)
    exact ⟨bar (.block d.toNat) true true rfl nofun, bar (.block d.toNat) true false rfl nofun,
      bar (.block d.toNat) false true rfl nofun, bar .cluster true true rfl nofun, fun hcores => bar .package true true rfl fun _ => hcores⟩
  case wide =>
    intro wide
    have gathers {i : Instr} (sh : Shape) (typeOk : Ctx → Bool) (body : WideBody) (hi : exec i s = wideOp s sh typeOk body)
        (hregs : directVregs i = sh.vregs) (ht : acceptsType c.etype i = true → typeOk c = true) : wide i := by
      intro hb hok
      have hbounds : sh.inBounds c.l.record.regs = true := by simpa [Shape.inBounds, hregs] using hb
      obtain ⟨f, hf⟩ := wideOp_gathers h hsp hs hbounds (ht hok) body hcarry hwants hbad hlanes
      rw [← hv.pc]
      exact enters (hi.trans hf) hwants
    have tree : (decide (c.etype ≤ 8) || decide (c.etype = 14)) = true → treeTypes c = true := fun ht => (treeTypes_eq c).trans ht
    exact ⟨gathers _ anyType _ rfl rfl fun _ => rfl, gathers _ anyType _ rfl rfl fun _ => rfl, gathers _ anyType _ rfl rfl fun _ => rfl,
      gathers _ anyType _ rfl rfl fun _ => rfl, gathers _ anyType _ rfl rfl fun _ => rfl, gathers _ anyType _ rfl rfl fun _ => rfl,
      gathers _ treeTypes _ rfl rfl tree, gathers _ treeTypes _ rfl rfl tree⟩

end Sys2Proof

section
/-! SUPPORT. What no operation on the state takes back: the lanes of a warp that have exited, and the end of a warp. It is followed
through the end of a warp (06 R99), its barriers and records, and the delivery of a fault (19 R284, R287). -/

namespace Sys2Proof.Machine

/-! ### Warps -/

/-- A warp that has ended, with no lane left anywhere. -/
structure Warp.Gone (w : Warp) : Prop where
  ended : w.ended = true
  p0 : w.p0 = none
  p1 : w.p1 = none
  groups : w.groups = []

/-- From w to x no lane has come back, and a warp that was gone still is. -/
structure Warp.Onward (w x : Warp) : Prop where
  exited : ∀ l : Nat, w.exited.getLsbD l = true → x.exited.getLsbD l = true
  gone : w.Gone → x.Gone

namespace Warp.Onward

theorem refl (w : Warp) : w.Onward w := ⟨fun _ => id, id⟩

theorem trans {w x y : Warp} (h : w.Onward x) (k : x.Onward y) : w.Onward y :=
  ⟨fun l hl => k.exited l (h.exited l hl), fun hg => k.gone (h.gone hg)⟩

/-- A change of what is no lane's place. -/
theorem of_same {w x : Warp} (he : x.exited = w.exited) (hd : x.ended = w.ended) (h0 : x.p0 = w.p0) (h1 : x.p1 = w.p1)
    (hg : x.groups = w.groups) : w.Onward x :=
  ⟨fun _ hl => he ▸ hl, fun ⟨d, a, b, g⟩ => ⟨hd ▸ d, h0 ▸ a, h1 ▸ b, hg ▸ g⟩⟩

theorem of_live {w x : Warp} (hn : ¬w.Gone) (he : x.exited = w.exited) : w.Onward x := ⟨fun _ hl => he ▸ hl, fun hg => absurd hg hn⟩

theorem updPath (w : Warp) (k : Bool) (f : Path → Path) : w.Onward (w.updPath k f) := by
  refine ⟨fun _ hl => by simpa using hl, fun ⟨hd, h0, h1, hg⟩ => ?_⟩
  cases k <;> exact ⟨hd, by simp [Warp.updPath, Warp.setPath, Warp.path?, h0], by simp [Warp.updPath, Warp.setPath, Warp.path?, h1], hg⟩

theorem exitLanes (w : Warp) (x : LaneMask) : w.Onward (w.exitLanes x) :=
  ⟨fun _ hl => by simp [Warp.exitLanes, hl], fun ⟨hd, h0, h1, hg⟩ => ⟨hd, by simp [Warp.exitLanes, h0], by simp [Warp.exitLanes, h1],
    by simp [Warp.exitLanes, hg, stripGroups]⟩⟩

end Warp.Onward

theorem Warp.not_gone_of_path {w : Warp} {k : Bool} {p : Path} (h : w.path? k = some p) : ¬w.Gone := by
  rintro ⟨-, h0, h1, -⟩
  cases k <;> simp [Warp.path?, h0, h1] at h

theorem Warp.not_gone_of_running {w : Warp} (h : w.ended = false) : ¬w.Gone := fun hg => by simp [hg.ended] at h

/-- A landing moves no lane. -/
theorem Warp.Onward.landPath {w : Warp} {k : Bool} {p : Path} (hp : w.path? k = some p) (free : Nat) : w.Onward (w.landPath free k) := by
  obtain ⟨x, hx, he⟩ := Warp.landPath_eq hp free
  rw [he]
  exact .of_live (Warp.not_gone_of_path hp) (by rw [Warp.setPath_exited, hx.exited])

/-- Groups that find their place leave the exited lanes alone, and the warp's name. -/
theorem Warp.place?_same {w v : Warp} {g : JoinGroup} {actor : Bool} (h : w.place? g actor = some v) :
    v.ref = w.ref ∧ v.exited = w.exited := by
  unfold Warp.place? at h
  split at h
  · cases h; exact ⟨rfl, rfl⟩
  · cases h; exact ⟨rfl, rfl⟩
  · split at h
    · cases h; simp
    · cases h
  · cases h

theorem Warp.placeGroups_same (actor : Bool) (w : Warp) (gs : List JoinGroup) :
    (Warp.placeGroups actor w gs).ref = w.ref ∧ (Warp.placeGroups actor w gs).exited = w.exited := by
  induction gs generalizing w with
  | nil => exact ⟨rfl, rfl⟩
  | cons g r ih =>
    unfold Warp.placeGroups
    split
    · extract_lets who
      split
      · rename_i v hv
        obtain ⟨hr, he⟩ := Warp.place?_same hv
        exact ⟨(ih v).1.trans hr, (ih v).2.trans he⟩
      · exact ih _
    · exact ih w

theorem Warp.unstick_same {w v : Warp} (h : w.unstick = some v) : v.ref = w.ref ∧ v.exited = w.exited := by
  unfold Warp.unstick at h
  split at h
  · cases h
  · cases h; exact ⟨rfl, rfl⟩

/-- A warp that is gone has no group to leave. -/
theorem Warp.not_gone_of_unstick {w v : Warp} (h : w.unstick = some v) : ¬w.Gone := by
  intro hg
  rw [Warp.unstick, hg.groups] at h
  cases h

/-! ### States -/

theorem State.warp?_updWarp_same {s : State} {r : WarpRef} {w : Warp} {f : Warp → Warp} (hw : s.warp? r = some w)
    (hf : ∀ w, (f w).ref = w.ref) : (s.updWarp r f).warp? r = some (f w) := by
  rw [State.warp?_updWarp s r r f hf, if_pos rfl, hw]
  rfl

theorem State.warp?_setWarp_same {s : State} {r : WarpRef} {w x : Warp} (hw : s.warp? r = some w) (hr : x.ref = w.ref) :
    (s.setWarp x).warp? r = some x := by
  rw [State.warp?_setWarp, if_pos (hr.trans (State.warp?_ref hw)).symm, hw]
  rfl

/-- From s to t every warp is still there, and has only gone onward. -/
def State.Onward (s t : State) : Prop := ∀ ⦃r : WarpRef⦄ ⦃w : Warp⦄, s.warp? r = some w → ∃ x, t.warp? r = some x ∧ w.Onward x

/-- One warp has moved. -/
theorem Moves.onward {s t : State} {r : WarpRef} {w x : Warp} (h : Moves s t r w x) (hw : w.Onward x) : s.Onward t := by
  intro q v hv
  by_cases hq : q = r
  · subst hq
    obtain rfl : w = v := Option.some.inj (h.before.symm.trans hv)
    exact ⟨x, h.after, hw⟩
  · exact ⟨v, (h.only.others q hq).trans hv, .refl v⟩

namespace State.Onward

theorem refl (s : State) : s.Onward s := fun _ w h => ⟨w, h, .refl w⟩

theorem trans {s t u : State} (h : s.Onward t) (k : t.Onward u) : s.Onward u := by
  intro r w hw
  obtain ⟨x, hx, hwx⟩ := h hw
  obtain ⟨y, hy, hxy⟩ := k hx
  exact ⟨y, hy, hwx.trans hxy⟩

theorem of_warps {s t : State} (h : t.x.warps = s.x.warps) : s.Onward t := fun r w hw => ⟨w, by rwa [State.warp?, h], .refl w⟩

/-- Other parts of the state change. -/
theorem notes {s t : State} (h : OnlyNotes s t) : s.Onward t := of_warps (by rw [h.rest])

theorem updWarp_of {s : State} {r : WarpRef} {f : Warp → Warp} (hr : ∀ w, (f w).ref = w.ref)
    (hf : ∀ w, s.warp? r = some w → w.Onward (f w)) : s.Onward (s.updWarp r f) := by
  intro q w hw
  rw [State.warp?_updWarp s r q f hr, hw]
  by_cases hq : q = r
  · subst hq; exact ⟨f w, by simp, hf w hw⟩
  · exact ⟨w, by simp [hq], .refl w⟩

theorem setWarp {s : State} {r : WarpRef} {w x : Warp} (hw : s.warp? r = some w) (hr : x.ref = w.ref) (h : w.Onward x) :
    s.Onward (s.setWarp x) := by
  intro q v hv
  rw [State.warp?_setWarp, hr.trans (State.warp?_ref hw), hv]
  by_cases hq : q = r
  · subst hq
    obtain rfl : w = v := Option.some.inj (hw.symm.trans hv)
    exact ⟨x, by simp, h⟩
  · exact ⟨v, by simp [hq], .refl v⟩

theorem updPath (s : State) (r : WarpRef) (k : Bool) (f : Path → Path) : s.Onward (s.updPath r k f) :=
  updWarp_of (fun w => by simp) fun w _ => .updPath w k f

theorem foldl {α : Type} {f : State → α → State} (hf : ∀ s a, State.Onward s (f s a)) (s : State) (l : List α) :
    s.Onward (l.foldl f s) := by
  induction l generalizing s with
  | nil => exact refl s
  | cons a r ih => exact (hf s a).trans (ih _)

/-! ### Landing and retiring -/

theorem land (s : State) (r : WarpRef) (k : Bool) : s.Onward (s.land r k) := by
  cases hw : s.warp? r with
  | none => simp only [State.land, hw]; exact refl s
  | some w =>
    cases hp : w.path? k with
    | none => simp only [State.land, hw, hp]; exact refl s
    | some p => exact (Moves.land hw hp).onward (.landPath hp s.free)

theorem landBoth (s : State) (r : WarpRef) : s.Onward (s.landBoth r) := (land s r false).trans (land _ r true)

theorem landAll (s : State) (rs : List WarpRef) : s.Onward (s.landAll rs) := by
  induction rs generalizing s with
  | nil => exact refl s
  | cons r rs ih => exact (landBoth s r).trans (ih _)

theorem retireWarp (s : State) (r : WarpRef) (active pc : Word) (dest : Option Nat) (flags : Nat) (path : Bool) :
    s.Onward (s.retireWarp r active pc dest flags path) := by
  cases hw : s.warp? r with
  | none => simp only [State.retireWarp, hw]; exact refl s
  | some w =>
    cases hl : s.launch? r.launch with
    | none => simp only [State.retireWarp, hw, hl]; exact refl s
    | some l =>
      obtain ⟨clk, hm, -⟩ := Moves.retireWarp hw hl active pc dest flags path
      exact hm.onward (.of_same rfl rfl rfl rfl rfl)

theorem retireTo (s : State) (r : WarpRef) (k : Bool) (active pc : Word) (dest : Option Nat) (flags : Nat) (npc : Word) :
    s.Onward (s.retireTo r k active pc dest flags npc) := by
  unfold State.retireTo
  split
  · exact refl s
  · extract_lets watch
    exact (updPath s r k _).trans (retireWarp _ r _ _ _ _ _)

theorem waitDone (c : Ctx) (s : State) (len : Nat) : s.Onward (c.waitDone s len) :=
  (retireTo s c.ref c.slot _ _ _ _ _).trans (updPath _ c.ref c.slot _)

/-! ### Barriers -/

theorem releaseSlot (s : State) (r : WarpRef) (k : Bool) (u : BarUnit) (g : Nat) : s.Onward (s.releaseSlot r k u g) := by
  unfold State.releaseSlot
  split
  · exact refl s
  · split_ifs
    · exact waitDone _ s 4
    · exact updPath s r k _
    · exact refl s

theorem releaseWaiters (s : State) (u : BarUnit) (g : Nat) (rs : List WarpRef) : s.Onward (s.releaseWaiters u g rs) := by
  induction rs generalizing s with
  | nil => exact refl s
  | cons r rs ih => exact ((releaseSlot s r false u g).trans (releaseSlot _ r true u g)).trans (ih _)

theorem barrierFrames (s : State) (l : Launch) (u : BarUnit) (g : Nat) (rs : List WarpRef) :
    s.Onward (s.barrierFrames l u g rs) := by
  induction rs generalizing s with
  | nil => exact refl s
  | cons r rs ih =>
    unfold State.barrierFrames
    split
    · exact refl s
    · extract_lets hi waiting t
      have ht : s.Onward t := updWarp_of (fun w => by cases waiting <;> rfl) fun w _ => by
        cases waiting <;> exact .of_same rfl rfl rfl rfl rfl
      exact ht.trans (ih t)

end State.Onward

@[simp] theorem State.noteFrames_warps (s : State) (rs : List WarpRef) : (s.noteFrames rs).x.warps = s.x.warps := by
  induction rs generalizing s with
  | nil => rfl
  | cons r rs ih => simp [State.noteFrames, ih]

@[simp] theorem State.setBarrier_warps (s : State) (l : Launch) (r : WarpRef) (u : BarUnit) (b : Barrier) :
    (s.setBarrier l r u b).x.warps = s.x.warps := by cases u <;> rfl

@[simp] theorem State.mergeBlocks_warps (s : State) (l : Launch) (num : Nat) (bs : List Nat) :
    (s.mergeBlocks l num bs).x.warps = s.x.warps := by
  induction bs generalizing s with
  | nil => rfl
  | cons b bs ih => simp [State.mergeBlocks, ih]

@[simp] theorem State.mergeClusters_warps (s : State) (l : Launch) (cs : List Nat) :
    (s.mergeClusters l cs).x.warps = s.x.warps := by
  induction cs generalizing s with
  | nil => rfl
  | cons c cs ih => simp [State.mergeClusters, State.mergeClusterOverlay, ih]

@[simp] theorem State.freeTripodLocks_warps (s : State) (l : Launch) (r : WarpRef) (u : BarUnit) :
    (s.freeTripodLocks l r u).x.warps = s.x.warps := by cases u <;> rfl

@[simp] theorem State.openSlots_warps (s : State) (u : BarUnit) (gen : Nat) (arrived : List WarpRef) :
    (s.openSlots u gen arrived).x.warps = s.x.warps := rfl

@[simp] theorem State.writePlace_warps (s : State) (pl : Place) (a : Nat) (bs : List Byte) :
    (s.writePlace pl a bs).x.warps = s.x.warps := by cases pl <;> rfl

namespace State.Onward

/-- What a completed generation does to frames, locks and slots. -/
theorem generation (s : State) (l : Launch) (u : BarUnit) (g gen : Nat) (arrived : List WarpRef) :
    s.Onward (((s.openSlots u gen arrived).barrierFrames l u g arrived).noteFrames arrived) :=
  ((of_warps (s.openSlots_warps u gen arrived)).trans (barrierFrames _ l u g arrived)).trans (of_warps (State.noteFrames_warps _ _))

theorem tryComplete (s : State) (l : Launch) (r : WarpRef) (u : BarUnit) : s.Onward (s.tryComplete l r u) := by
  unfold State.tryComplete
  extract_lets b ms
  split
  · exact refl s
  · rename_i g s1 s2 s3 s4 s5 s6 _
    have h1 : s.Onward s1 := of_warps (s.setBarrier_warps ..)
    have h3 : s1.Onward s3 := by
      simp only [s3]
      split
      · exact refl s1
      · split
        · exact of_warps (s1.mergeBlocks_warps ..)
        · exact refl s1
      · have h2 : s1.Onward s2 := by
          simp only [s2]
          split
          · exact of_warps (s1.mergeClusters_warps ..)
          · exact refl s1
        exact h2.trans (foldl (fun t d => notes (OnlyReads.notify t d _ 0).notes) s2 _)
    have h4 : s3.Onward s4 := of_warps (s3.freeTripodLocks_warps l r u)
    have h6 : s.Onward s6 := ((h1.trans h3).trans h4).trans (generation s4 l u g b.gen b.arrived)
    split
    · exact h6.trans (of_warps rfl)
    · exact (h6.trans (notes (OnlyNotes.noteHostless s6 l))).trans (releaseWaiters _ u g _)

theorem tryReplay (s : State) (uid die : Nat) : s.Onward (s.tryReplay uid die) := by
  unfold State.tryReplay
  split
  · exact refl s
  · split
    · exact refl s
    · rename_i rp _
      extract_lets ms
      split
      · exact refl s
      · rename_i g s1 nums s2 s3 s4 _
        have h2 : s.Onward s2 := by
          simp only [s2]
          split
          · exact of_warps (s1.mergeClusters_warps ..)
          · exact of_warps rfl
        have h4 : s.Onward s4 := h2.trans (generation s2 _ .package (g + 1) g rp.arrived)
        split
        · exact h4
        · exact h4.trans (releaseWaiters s4 _ _ _)

theorem leaveBarrier (s : State) (r : WarpRef) (u : BarUnit) : s.Onward (s.leaveBarrier r u) := by
  unfold State.leaveBarrier
  split
  · exact refl s
  · extract_lets b s1
    have h1 : s.Onward s1 := (of_warps (s.setBarrier_warps ..)).trans (tryComplete _ _ r u)
    split
    · exact h1.trans (tryReplay s1 _ _)
    · exact h1

theorem leaveBarriers (s : State) (r : WarpRef) : s.Onward (s.leaveBarriers r) :=
  ((foldl (fun t _ => leaveBarrier t r _) s _).trans (leaveBarrier _ r .cluster)).trans (leaveBarrier _ r .package)

/-! ### The end of a warp -/

end State.Onward

/-- A write by the control die (20 R312) is noted in main memory and on the way there. -/
theorem OnlyNotes.writePieces (s : State) (i : Mmu) (world : Nat) (op : Option Nat) (ps : List (Nat × Nat)) (bs : List Byte) :
    OnlyNotes s (s.writePieces none i world op ps bs).2 := by
  induction ps generalizing s bs with
  | nil => exact refl s
  | cons x r ih =>
    have ht := (OnlyReads.transVia_none s i x.1 .w world).notes
    unfold State.writePieces
    split
    · exact refl s
    · split
      · rename_i h; rw [h] at ht; exact ht
      · rename_i h
        rw [h] at ht
        split
        · exact ht.trans (OnlyReads.logRefused _ _ _ _ _).notes
        · exact (ht.trans (writePage _ _ _ _ _ _)).trans (ih _ _)

theorem OnlyNotes.writeVa (s : State) (i : Mmu) (world : Nat) (op : Option Nat) (va : Nat) (bs : List Byte) :
    OnlyNotes s (s.writeVa none i world op va bs).2 := OnlyNotes.writePieces s i world op _ bs

theorem OnlyNotes.profWrite (s : State) (r : WarpRef) (p : ProfSet) (depth : Nat) (trunc : Bool) :
    OnlyNotes s (s.profWrite r p depth trunc) := by
  unfold State.profWrite
  split
  · exact refl s
  · extract_lets va x s1 hdr used
    have h1 : OnlyNotes s s1 := by
      simp only [s1, x]
      split
      · split
        · exact refl s
        · exact toControl s _
      · exact refl s
    split
    · exact h1
    · rename_i l _ _
      have hw := writeVa s1 (s1.mmu l.iface) l.record.world none (va + 16 + used) (profRecord p s1.time r depth trunc)
      split
      · rename_i t ht
        rw [ht] at hw
        exact (h1.trans hw).trans (writeVa t _ _ _ _ _)
      · exact h1.trans (writeVa s1 _ _ _ _ _)

namespace State.Onward

theorem profFlush (s : State) (r : WarpRef) (ps : List ProfSet) : s.Onward (s.profFlush r ps) := by
  induction ps generalizing s with
  | nil => exact updWarp_of (fun _ => rfl) fun w _ => .of_same rfl rfl rfl rfl rfl
  | cons p ps ih => exact (notes (OnlyNotes.profWrite s r p ps.length true)).trans (ih _)

theorem reportBatch (s : State) (r : WarpRef) (e : BatchError) : s.Onward (s.reportBatch r e) := by
  unfold State.reportBatch
  split
  · exact refl s
  · exact (notes (OnlyNotes.faultRecord s _ _ _)).trans (of_warps rfl)

theorem reportBatches (s : State) (r : WarpRef) (ns : List Nat) : s.Onward (s.reportBatches r ns) := by
  induction ns generalizing s with
  | nil => exact refl s
  | cons n ns ih =>
    unfold State.reportBatches
    split
    · exact refl s
    · split
      · exact ih s
      · split
        · refine ((reportBatch s r _).trans (updWarp_of ?_ ?_)).trans (ih _)
          · exact fun _ => rfl
          · exact fun w _ => .of_same rfl rfl rfl rfl rfl
        · exact ih s

end State.Onward

/-- From s to t the warp r has ended, and all others have only gone onward. -/
structure State.Ends (s t : State) (r : WarpRef) : Prop where
  onward : s.Onward t
  gone : ∃ x, t.warp? r = some x ∧ x.Gone

theorem State.endWarp_ends {s : State} {r : WarpRef} {w : Warp} (hw : s.warp? r = some w) (he : w.ended = false) :
    s.Ends (s.endWarp r) r := by
  unfold State.endWarp
  split
  · rename_i hnone
    cases hnone.symm.trans hw
  · rename_i v hv
    obtain rfl : w = v := Option.some.inj (hw.symm.trans hv)
    rw [if_neg (by simp [he])]
    extract_lets tripod s1 s2 s3 s4
    have h2 : s.Onward s2 := by
      refine (State.Onward.profFlush s r w.prof).trans ?_
      simp only [s2]
      split
      · exact .of_warps rfl
      · exact .refl s1
    obtain ⟨w2, hw2, -⟩ := h2 hw
    have h3 : s2.Onward s3 := .updWarp_of (fun _ => rfl) fun w _ => ⟨fun _ => id, fun _ => ⟨rfl, rfl, rfl, rfl⟩⟩
    have hs3 : ∃ x, s3.warp? r = some x ∧ x.Gone := by
      refine ⟨_, State.warp?_updWarp_same hw2 ?_, ?_⟩
      · exact fun _ => rfl
      · exact ⟨rfl, rfl, rfl, rfl⟩
    have h4 : s3.Onward s4 := by
      simp only [s4]
      split
      · exact .refl s3
      · exact .leaveBarriers s3 r
    have h5 := h4.trans (State.Onward.reportBatches s4 r (w.errors.map BatchError.closeNo).eraseDups)
    obtain ⟨x, hx, hgone⟩ := hs3
    obtain ⟨y, hy, hxy⟩ := h5 hx
    exact ⟨(h2.trans h3).trans h5, y, hy, hxy.gone hgone⟩

namespace State.Onward

theorem abort (s : State) (uid : Nat) (st : Status) : s.Onward (s.abort uid st) :=
  (landAll s _).trans (of_warps rfl)

/-! ### Loupe cores -/

theorem endFrozen (s : State) (r : WarpRef) (k : Bool) (p : Park) (dest : Option Nat) : s.Onward (s.endFrozen r k p dest) := by
  unfold State.endFrozen
  split
  · rename_i w l b hw _ _
    split
    · exact refl s
    · split
      · exact refl s
      · split
        · exact refl s
        · extract_lets q f
          have hset : s.Onward (s.setWarp { w with frozen := some f }) := setWarp hw rfl (.of_same rfl rfl rfl rfl rfl)
          exact hset.trans (retireWarp _ r _ _ _ _ _)
  · exact refl s

theorem endWait (s : State) (r : WarpRef) (k : Bool) (p : Park) : s.Onward (s.endWait r k p) := by
  unfold State.endWait
  extract_lets t
  have ht : s.Onward t := by
    simp only [t]
    split
    · split
      · exact waitDone _ s _
      · exact refl s
    · exact refl s
  exact ht.trans (endFrozen t r k p none)

theorem endSlotWaits (s : State) (r : WarpRef) : s.Onward (s.endSlotWaits r) :=
  (endWait s r false .loupeSlot).trans (endWait _ r true .loupeSlot)

theorem sendToLoupe (s : State) (r : WarpRef) : s.Onward (s.sendToLoupe r) := by
  unfold State.sendToLoupe
  split
  · exact refl s
  · exact refl s
  · split
    · exact ((endSlotWaits s r).trans (landBoth _ r)).trans (updWarp_of (fun _ => rfl) fun w _ => .of_same rfl rfl rfl rfl rfl)
    · refine (of_warps (t := { s with nextOp := s.nextOp + 1 }) rfl).trans (updWarp_of (fun w => ?_) fun w _ => ?_)
      · split <;> rfl
      · split
        · exact .refl w
        · exact .of_same rfl rfl rfl rfl rfl

/-! ### Faults -/

theorem enterContinuation {s : State} {l : Launch} {w : Warp} {p : Path} {slot : Bool} (hw : s.warp? w.ref = some w)
    (hp : w.path? slot = some p) (cls : FaultClass) (kind : FaultKind) (fmask : LaneMask) (fpc npc : Word) (ridx : Nat) :
    s.Onward (s.enterContinuation l w slot cls kind fmask fpc npc ridx) := by
  unfold State.enterContinuation
  extract_lets addr t
  have ht : t.x.warps = s.x.warps := s.writePlace_warps ..
  refine (of_warps ht).trans (updWarp_of (fun _ => rfl) fun v hv => ?_)
  rw [State.warp?, ht] at hv
  obtain rfl : w = v := Option.some.inj (hw.symm.trans hv)
  exact .of_live (Warp.not_gone_of_path hp) rfl

theorem deliverCore (s : State) (r : WarpRef) (slot : Bool) (cls : FaultClass) (kind : FaultKind) (es : List LaneEntry)
    (fmask : LaneMask) (fpc npc : Word) : s.Onward (s.deliverCore r slot cls kind es fmask fpc npc) := by
  unfold State.deliverCore
  extract_lets s1
  have h1 : s.Onward s1 := landBoth s r
  split
  · exact h1
  · rename_i c hc
    split
    · exact h1
    · obtain ⟨-, -, -, hw, -, -, hp⟩ := State.ctxAt?_some hc
      split
      rename_i t ridx e
      have hn : OnlyNotes s1 t := by
        have := OnlyNotes.faultRecord s1 r.launch ⟨fmask, fpc, r.block, r.warp, c.w.pathBit slot, cls, kind⟩ es
        rwa [e] at this
      have ht : s.Onward t := h1.trans (notes hn)
      have hwt : t.warp? c.w.ref = some c.w := by
        rw [State.warp?_ref hw, State.warp?, show t.x.warps = s1.x.warps by rw [hn.rest]]
        exact hw
      split_ifs
      · exact ht.trans (abort t _ _)
      · exact ht.trans (abort t _ _)
      · exact (ht.trans (of_warps rfl)).trans (updWarp_of (fun _ => rfl) fun w _ => .exitLanes w fmask)
      · exact ht.trans (enterContinuation hwt hp cls kind fmask fpc npc ridx)
      · exact (ht.trans (of_warps rfl)).trans (updWarp_of (fun _ => rfl) fun w _ => .of_same rfl rfl rfl rfl rfl)
      · extract_lets t1 t2
        have h2 : t1.Onward t2 := updWarp_of (fun _ => rfl) fun w _ => .of_same rfl rfl rfl rfl rfl
        exact ((ht.trans (of_warps rfl)).trans h2).trans (sendToLoupe t2 r)
      · exact ht.trans (abort t _ _)

theorem settle (n : Nat) (s : State) (r : WarpRef) (actor : Bool) : s.Onward (State.settle n s r actor) := by
  induction n generalizing s actor with
  | zero => exact refl s
  | succ n ih =>
    unfold State.settle
    split
    · rename_i w l hw hl
      split
      · exact refl s
      · rename_i he
        rw [Bool.not_eq_true] at he
        split
        · exact (State.endWarp_ends hw he).onward
        · extract_lets w1 s1
          obtain ⟨hr1, he1⟩ := Warp.placeGroups_same actor w w.groups
          have h1 : s.Onward s1 := setWarp hw hr1 (.of_live (Warp.not_gone_of_running he) he1)
          split
          · split
            · exact h1
            · rename_i w2 hw2
              extract_lets p s2 npc s3
              obtain ⟨hr2, he2⟩ := Warp.unstick_same hw2
              have h2 : s1.Onward s2 := setWarp (State.warp?_setWarp_same hw hr1) hr2 (.of_live (Warp.not_gone_of_unstick hw2) he2)
              exact ((h1.trans h2).trans (deliverCore s2 r false _ _ _ _ _ _)).trans (ih s3 false)
          · exact h1
    · exact refl s

end State.Onward

end Sys2Proof.Machine
end

section
/-! SUPPORT. A JOIN that completes its group (07 R138), and EXIT (06 R99). -/

namespace Sys2Proof.Machine

/-! ### The warp -/

/-- The warp when an instruction of its path has retired, which goes on as p. -/
def Warp.retiredTo (w : Warp) (l : Launch) (clk : Option DWord) (slot : Bool) (p : Path) : Warp :=
  ((w.retire l).clocked clk).setPath slot (some p)

section
variable (w : Warp) (l : Launch) (clk : Option DWord) (slot : Bool) (p : Path)

theorem Warp.retiredTo_path? : (w.retiredTo l clk slot p).path? slot = some p := Warp.path?_setPath ..

theorem Warp.retiredTo_other : (w.retiredTo l clk slot p).path? (!slot) = w.path? (!slot) := by cases slot <;> rfl

theorem Warp.retiredTo_groups : (w.retiredTo l clk slot p).groups = w.groups := by cases slot <;> rfl

theorem Warp.retiredTo_retired : (w.retiredTo l clk slot p).retired = w.retired + 1 := by cases slot <;> rfl

theorem Warp.retiredTo_regs : w.SameRegs (w.retiredTo l clk slot p) := by cases slot <;> exact ⟨rfl, rfl, rfl, rfl, rfl⟩

theorem Warp.counted_setPath_regs (gs : List JoinGroup) : w.SameRegs ((w.counted gs).setPath slot (some p)) := by
  cases slot <;> exact ⟨rfl, rfl, rfl, rfl, rfl⟩

theorem Warp.path?_passTurn_exitLanes (x : LaneMask) (turn : Bool) :
    ((w.exitLanes x).passTurn turn).path? slot = (w.path? slot).bind (Path.strip x) := by
  cases slot <;> rfl

end

/-! ### A completed group -/

/-- The path that a group becomes which an arrival completes, over the pending stack of the slot. -/
def Ctx.gathered (c : Ctx) (k : GroupKey) : Path :=
  { (c.w.joined k (c.p.arrival c.active c.w.arrivals)).toPath with stack := c.p.stack }

/-- The issuing path in the place of the group that its arrival completes. -/
def Ctx.gatheredCtx (c : Ctx) (k : GroupKey) : Ctx :=
  let w := (c.w.counted (dropGroup k c.w.groups)).setPath c.slot (some (c.gathered k))
  { c with s := c.s.setWarp w, w := w, p := c.gathered k }

theorem Moves.gatheredCtx {c : Ctx} (h : c.At c.s) (k : GroupKey) : Moves c.s (c.gatheredCtx k).s c.ref c.w (c.gatheredCtx k).w :=
  Moves.setWarp h.warp ((Warp.setPath_ref ..).trans (State.warp?_ref (w := c.w) h.warp)) (Warp.onLoupe?_setPath ..)

/-- An instruction whose arrival completes its group goes on with it. -/
theorem Ctx.enterGroup_complete {c : Ctx} (h : c.At c.s) {k : GroupKey}
    (hc : (c.w.joined k (c.p.arrival c.active c.w.arrivals)).complete c.w = true) (retire : Bool) (f : Ctx → State) :
    c.enterGroup k retire f = f (c.gatheredCtx k) := by
  have hm := Moves.gatheredCtx h k
  have hctx := State.ctxAt?_eq hm.after ((hm.only.block? ..).trans h.block) ((hm.only.launch? _).trans h.launch)
    (Warp.path?_setPath _ c.slot (some (c.gathered k)))
  have henter : c.w.enter c.slot k c.active = ((c.gatheredCtx k).w, true) := by
    rw [Warp.enter_eq h.path, if_pos hc]
    rfl
  have hfound : (c.s.setWarp (c.gatheredCtx k).w).ctxAt? c.ref c.slot = some (c.gatheredCtx k) := hctx
  simp only [Ctx.enterGroup, henter, if_true, hfound]

/-- The path that a JOIN's group becomes has MODE and ix of the path that brought its lowest lane. -/
theorem Ctx.gathered_join {c : Ctx} {pc : Word} {m lanes : LaneMask} {arrivals : List Arrival}
    (ha : (c.w.joined (.join pc m) (c.p.arrival c.active c.w.arrivals)).arrivals = arrivals) (hl : arrivalLanes arrivals = lanes) :
    c.gathered (.join pc m) = { Path.start (pc + 4) lanes with
      mode := ((arrivalOf (lowestLane lanes) arrivals).map Arrival.mode).getD 0
      ix := ((arrivalOf (lowestLane lanes) arrivals).map Arrival.ix).getD 0
      stack := c.p.stack } := by
  subst hl ha
  have hkey := Warp.joined_key c.w (.join pc m) (c.p.arrival c.active c.w.arrivals)
  simp only [Ctx.gathered, JoinGroup.toPath, hkey]

/-- The warp in which a JOIN has completed its group of the key k: its lanes go on together at npc as y. -/
structure Ctx.JoinDone (c : Ctx) (t : State) (k : GroupKey) (npc : Word) (x : Warp) (y : Path) : Prop where
  frame : OnlyWarp c.s t c.ref
  warp : t.warp? c.ref = some x
  path : x.path? c.slot = some y
  other : x.path? (!c.slot) = c.w.path? (!c.slot)
  groups : x.groups = dropGroup k c.w.groups
  regs : c.w.SameRegs x
  retired : x.retired = c.w.retired + 1
  goOn : y = (c.gathered k).goOn npc

theorem Ctx.gathered_joinDone {c : Ctx} (h : c.At c.s) {k : GroupKey} (hback : (c.gathered k).back = none) (npc : Word) :
    ∃ x y, c.JoinDone (((c.gatheredCtx k).s.retireTo c.ref c.slot c.active c.p.pc none 0 npc).bump) k npc x y := by
  have h1 := Moves.gatheredCtx h k
  have hp : (c.gatheredCtx k).w.path? c.slot = some (c.gathered k) := Warp.path?_setPath ..
  obtain ⟨clk, h2, -⟩ := Moves.retireTo h1.after hp ((h1.only.launch? _).trans h.launch) c.active c.p.pc none 0 npc
  have h3 := h1.trans h2
  have h4 := h3.trans (Moves.bump h3.after)
  rw [hback] at h4
  have hother : (c.gatheredCtx k).w.path? (!c.slot) = c.w.path? (!c.slot) := Warp.path?_setPath_not ..
  have hgroups : (c.gatheredCtx k).w.groups = dropGroup k c.w.groups := Warp.setPath_groups ..
  have hretired : (c.gatheredCtx k).w.retired = c.w.retired := Warp.setPath_retired ..
  refine ⟨_, _, h4.only, h4.after, Warp.retiredTo_path? .., ?_, ?_, ?_, ?_, rfl⟩
  · exact (Warp.retiredTo_other ..).trans hother
  · exact (Warp.retiredTo_groups ..).trans hgroups
  · exact (Warp.counted_setPath_regs ..).trans (Warp.retiredTo_regs ..)
  · exact (Warp.retiredTo_retired ..).trans (congrArg (· + 1) hretired)

/-! ### EXIT -/

/-- What EXIT does before the warp's groups settle. -/
def Ctx.exits (c : Ctx) : State :=
  ((c.landed.s.retireTo c.ref c.slot c.active c.p.pc none 0 (c.next 4)).updWarp c.ref fun w =>
    (w.exitLanes c.p.lanes).passTurn (!c.slot)).bump

theorem exec_exit {s : State} {c : Ctx} (h : s.ctx? = some c) (hsp : s.splicing c.ref = false) (m : Bool) :
    exec (.exit m) s = .next (State.settle settleFuel c.exits c.ref c.slot) := by
  have hv := Ctx.landed_landing (State.ctx?_at h).own
  show execExit m s = _
  rw [execExit, withCtx_next h, Ctx.drained_issuing h hsp, Ctx.exits, hv.state]
  rfl

/-- EXIT has removed its path's lanes from the warp, which is now y. -/
structure Ctx.Exited (c : Ctx) (y : Warp) : Prop where
  moves : Moves c.landed.s c.exits c.ref c.landed.w y
  exited : y.exited = c.w.exited ||| c.p.lanes
  ended : y.ended = c.w.ended
  retired : y.retired = c.w.retired + 1
  groups : y.groups = stripGroups c.p.lanes c.w.groups
  path : c.p.stack = [] → y.path? c.slot = none
  other : y.path? (!c.slot) = (c.w.path? (!c.slot)).bind (Path.strip c.p.lanes)

/-- A path loses all its lanes; without a pending entry nothing takes its place. -/
theorem Path.strip_all {p : Path} (h : p.stack = []) : p.strip p.lanes = none := by
  simp [Path.strip, Path.popped, h, stripEntries]

/-- A path without pending entries keeps the lanes that do not exit. -/
theorem Path.strip_disjoint {x : LaneMask} {p : Path} (hs : p.stack = []) (hx : p.lanes &&& x = 0) (hp : p.lanes ≠ 0) :
    p.strip x = some p := by
  have hlanes : p.lanes &&& ~~~x = p.lanes := by
    ext l hl
    have hbit : (p.lanes[l] && x[l]) = false := by rw [← BitVec.getElem_and, hx]; exact BitVec.getElem_zero hl
    rw [BitVec.getElem_and, BitVec.getElem_not]
    cases hpl : p.lanes[l] <;> simp_all only [Bool.true_and, Bool.false_and, Bool.not_false]
  have hstack : stripEntries x p.stack = p.stack := by rw [hs]; rfl
  simp only [Path.strip, hlanes, hstack, hp, if_false]

theorem Ctx.exits_exited {c : Ctx} (h : c.At c.s) : ∃ y, c.Exited y := by
  have hv := Ctx.landed_landing h
  obtain ⟨-, hw, -, hl, hp⟩ := hv.own
  rw [hv.ref] at hw hl
  rw [hv.slot] at hp
  obtain ⟨clk, h1, -⟩ := Moves.retireTo hw hp hl c.active c.p.pc none 0 (c.next 4)
  have h2 := h1.trans (Moves.updWarp h1.after (fun w => (w.exitLanes c.p.lanes).passTurn (!c.slot)) (fun _ => rfl) rfl)
  have hregs := c.landed.w.retiredTo_regs c.landed.l clk c.slot (c.landed.p.goOn (c.landed.p.back.getD (c.next 4)))
  refine ⟨_, h2.trans (Moves.bump h2.after), ?_, ?_, ?_, ?_, ?_, ?_⟩
  · rw [← hv.exited, ← hregs.exited]; rfl
  · exact hregs.ended.trans hv.ended
  · exact (Warp.retiredTo_retired ..).trans (congrArg (· + 1) hv.retired)
  · exact congrArg (stripGroups c.p.lanes) ((Warp.retiredTo_groups ..).trans hv.groups)
  · intro hs
    rw [Warp.path?_passTurn_exitLanes, Warp.path?_setPath, ← hv.lanes]
    exact Path.strip_all (p := c.landed.p.goOn _) (hv.stack.trans hs)
  · rw [Warp.path?_passTurn_exitLanes, ← hv.other, hv.slot]
    exact congrArg (·.bind (Path.strip c.p.lanes)) (Warp.retiredTo_other ..)

/-! ### What follows from an exit -/

/-- A warp whose lanes have all exited ends. -/
theorem State.settle_ends {s : State} {r : WarpRef} {w : Warp} {l : Launch} (hw : s.warp? r = some w) (hl : s.launch? r.launch = some l)
    (he : w.ended = false) (hx : w.allExited = true) (n : Nat) (actor : Bool) : s.Ends (State.settle (n + 1) s r actor) r := by
  have hset : State.settle (n + 1) s r actor = s.endWarp r := by
    simp only [State.settle, hw, hl, he, hx, Bool.false_eq_true, if_false, if_true]
  rw [hset]
  exact State.endWarp_ends hw he

/-- No lane has come back. -/
theorem Warp.Onward.exited_subset {w x : Warp} (h : w.Onward x) : w.exited &&& ~~~x.exited = 0 := by
  ext l hl
  have := h.exited l
  rw [BitVec.getLsbD_eq_getElem hl, BitVec.getLsbD_eq_getElem hl] at this
  simpa using this

/-- Lanes that have not exited, and do not stand in an exiting path, remain. -/
theorem LaneMask.not_all_of_disjoint {x p o : LaneMask} (hp : o &&& p = 0) (ho : o &&& ~~~x ≠ 0) : x ||| p ≠ BitVec.allOnes 32 := by
  intro hall
  refine ho ?_
  ext l hl
  have hout : (o[l] && p[l]) = false := by rw [← BitVec.getElem_and, hp]; exact BitVec.getElem_zero hl
  have hin : (x[l] || p[l]) = true := by rw [← BitVec.getElem_or, hall]; exact BitVec.getElem_allOnes ..
  rw [BitVec.getElem_and, BitVec.getElem_not]
  cases hxl : x[l] with
  | true => simp
  | false => simp_all

end Sys2Proof.Machine
end
namespace Sys2Proof

open Machine

/-- Settles O28: a JOIN whose group lacks no lane goes on with it (`Ctx.enterGroup_complete`); an EXIT removes its path's lanes
(`Ctx.Exited`), what follows takes none of them back (`State.Onward.settle`), ends the warp that they leave empty
(`State.settle_ends`), and leaves a path that lives beside them alone (`Moves.settle_still`). -/
theorem joinAndExitResults : Obligations.JoinAndExitResults := by
  refine ⟨?join, ?exit⟩
  case join =>
    intro s c h hs hsp m a v k before left all arrivals hlacks
    have hv : c.Landing v := Ctx.landed_landing (State.ctx?_at h).own
    have hkey : k = .join v.p.pc (v.sr a.toNat) := by rw [hv.pc]
    have harr : (v.w.joined k (v.p.arrival v.active v.w.arrivals)).arrivals = arrivals := Warp.joined_arrivals ..
    have hall : arrivalLanes arrivals = all := by
      rw [arrivalLanes_append]
      simp [arrivalLanes, all]
    have hcomplete : (v.w.joined k (v.p.arrival v.active v.w.arrivals)).complete v.w = true := by
      rw [JoinGroup.complete_iff, harr, hall, Warp.joined_key, Warp.joined_left]
      exact hlacks
    have hgathered := Ctx.gathered_join harr hall
    obtain ⟨x, y, hframe, hwarp, hslot, hother, hgroups, hregs, hretired, hy⟩ :=
      Ctx.gathered_joinDone hv.own (k := k) (by rw [hgathered]; rfl) (v.next 4)
    rw [hgathered] at hy
    rw [← hv.ref, ← hv.slot]
    refine ⟨_, ?_, hframe, x, y, hwarp, hslot, hother, hgroups, hregs.sregs, hregs.vregs, hregs.status, hregs.exited, hretired, ?_⟩
    · rw [exec_join h hsp hs, ← hkey]
      exact congrArg _ (Ctx.enterGroup_complete hv.own hcomplete true _)
    · subst hy
      refine ⟨hv.next 4, rfl, rfl, rfl, rfl, fun z hz => ?_⟩
      rw [← arrivalOf] at hz
      simp [Path.goOn, hz]
  case exit =>
    intro s c h hsp m
    have hat := (State.ctx?_at h).own
    have hv := Ctx.landed_landing hat
    obtain ⟨y, hy⟩ := Ctx.exits_exited hat
    have hl : c.exits.launch? c.ref.launch = some c.l := by
      rw [hy.moves.only.launch?, hv.moves.only.launch?, hat.launch]
    obtain ⟨w, hw, honward⟩ := State.Onward.settle settleFuel c.exits c.ref c.slot hy.moves.after
    refine ⟨_, exec_exit h hsp m, w, hw, hy.exited ▸ honward.exited_subset, fun hend hlast => ?last,
      fun o hend ho hdisjoint hremain hgroups hstack hostack => ?other⟩
    case last =>
      obtain ⟨-, x, hx, hgone⟩ := State.settle_ends hy.moves.after hl (hy.ended.trans hend)
        (by rw [Warp.allExited, hy.exited, hlast]; exact decide_eq_true rfl) 39 c.slot
      obtain rfl : w = x := Option.some.inj (hw.symm.trans hx)
      exact ⟨hgone.ended, hgone.p0, hgone.p1, hgone.groups⟩
    case other =>
      have hne : o.lanes ≠ 0 := fun h0 => hremain (by rw [h0]; exact BitVec.zero_and)
      have hother : y.path? (!c.slot) = some o := by
        rw [hy.other, ho]
        exact Path.strip_disjoint hostack hdisjoint hne
      have hy0 : y.groups = [] := by rw [hy.groups, hgroups]; rfl
      have hrunning : y.allExited = false := by
        rw [Warp.allExited, hy.exited]
        exact decide_eq_false (LaneMask.not_all_of_disjoint hdisjoint hremain)
      have hm := hy.moves.trans (Moves.settle_still hy.moves.after hl (hy.ended.trans hend) hrunning (by simp [hy0])
        (hother ▸ Option.some_ne_none o) 39 c.slot)
      obtain rfl : w = y := Option.some.inj (hw.symm.trans hm.after)
      exact ⟨hm.only, hy.exited, hy.path hstack, hother, hy.retired⟩

end Sys2Proof
